-- ==== Sys2Proof/Word.lean ====
section
/-! DEFINITION. The word types of the part (R5, R6) and the sparse table type that the state is made of. -/

namespace Sys2Proof

/-- One byte. -/
abbrev Byte := BitVec 8

/-- A 16-bit field. -/
abbrev Half := BitVec 16

/-- A control-space register (R6). -/
abbrev Word := BitVec 32

/-- A 64-bit word: a Palette or Window word, an address. -/
abbrev DWord := BitVec 64

/-- A 64-byte line, slot or header; bit 0 is bit 0 of byte 0 (R5). -/
abbrev Line := BitVec 512

/-- A sparse table: (key, value) pairs with strictly rising keys, no pair equal to what an unlisted key reads as. -/
abbrev SMap (α : Type) := List (Nat × α)

end Sys2Proof
end

