-- ==== Sys2Proof/Syntax.lean ====
section
/-! DEFINITION. The rows of spec/opcode_table.json as one inductive, with the operands that each row's sender or the
environment decides. Everything else a row needs is computed from the state. -/

namespace Sys2Proof

/-- A command packet (R469): the submission ring, its 64-byte header slot and the bytes of its payload slots. -/
structure Packet where
  ring : Nat
  hdr : Line
  payload : List Byte
deriving DecidableEq, Repr

/-- A module: host-link module HL0 or HL1, or fabric port FAB0 to FAB3 (R7). -/
inductive ModId where
  | hl (n : Nat)
  | fab (p : Nat)
deriving DecidableEq, Repr

/-- A packet-layer link with its own sequence numbers: the host link (R457) or one fabric port (R570). -/
inductive LinkId where
  | host
  | fab (p : Nat)
deriving DecidableEq, Repr

/-- What the check of R458 sees of a received frame: its sequence number, and whether CRC and trailer agree. -/
structure Rx where
  seq : Half
  good : Bool
deriving DecidableEq, Repr

/-- A received Weave frame (R571, R574): the port it came on, its header fields, its data, its check, and whether its CRC is the
inverted one of a copy that was stopped. A message of more than one frame is one `Wrx` with all its data. -/
structure Wrx where
  port : Nat
  src : Nat
  dst : Nat
  param : Word
  aux : Byte
  data : List Byte
  rx : Rx
  stomp : Bool
deriving DecidableEq, Repr

/-- The codes of one sub-strike of one panel (R88): 256 data codes, 32 checksum codes, two reference codes. -/
structure SubCodes where
  data : List Byte
  chk : List Byte
  r0 : Byte
  r1 : Byte
deriving DecidableEq, Repr

/-- The task that a unit works for (R45): the context of its command, FRAME, and SLICE or PART. -/
structure Work where
  owner : Nat
  frame : Nat
  part : Nat
deriving DecidableEq, Repr

/-- One participating panel of a strike (R87): the place of the segment among the layer's, and the codes of its sub-strikes. -/
structure SegStrike where
  seg : Nat
  subs : List SubCodes
deriving DecidableEq, Repr

/-- One replica's share of a strike (R87): the task it works for, the loop that it is a step of, counted from 1 (R218), the layer, the replica, the sequence
number of its input vector (R207), the credit pair of its consumer, where the vector stands in the Palette feed banks (one address in half bytes
for each row, in order of the row segments), the byte address of the consumer's entry, and the codes of the panels. -/
structure StrikePart where
  work : Work
  loop : Nat
  layer : Nat
  replica : Nat
  seq : Nat
  pair : Nat
  src : List Nat
  dst : Nat
  segs : List SegStrike
deriving DecidableEq, Repr

/-- A context that has input for its next strike in a group (R87), the replicas whose input vectors are in the group's input buffer, and the input
vectors of the tick that each replica of the context still holds, as layer, replica and count (R140). -/
structure StrikeCand where
  ctx : Nat
  parts : List StrikePart
  left : List (Nat × Nat × Nat)
deriving DecidableEq, Repr

/-- One panel's probe (R126): the physical panel and its codes; the pattern is the panel's next one. -/
structure ProbeRead where
  panel : Nat
  codes : SubCodes
deriving DecidableEq, Repr

/-- One output of a tile: the input vector's sequence number, the output column, the scratch addresses of its weights and of its
activations (bytes), the steps from one pixel and from one kernel row to the next in the activations (CONV), the panel layers whose
RAW32 parts a REDUCE adds (R210), or for a substitute the scratch addresses of the images of the replica's row segments (R211), the scale of
the activations (R224), the replica of a substitute, where its output goes in Palette, and where it also goes in the new version of the
layer's state object (R215). -/
structure TileCol where
  seq : Nat
  col : Nat
  w : Nat
  a : Nat
  pix : Nat
  row : Nat
  parts : List Nat
  ascale : Half
  replica : Nat
  dst : Nat
  save : Option Nat
deriving DecidableEq, Repr

/-- The key block of an attention tile (R213): the head whose columns the tile makes, the block's first key and how many it holds, the keys of the
sequence, and the scratch addresses of the block's keys and values. -/
structure KeyBlock where
  head : Nat
  key0 : Nat
  keys : Nat
  total : Nat
  k : Nat
  v : Nat
deriving DecidableEq, Repr

/-- One query of an attention tile (R213): its place among the queries of the layer, its position in the sequence, its scratch address, where
its output goes in Palette, and where it also goes in the new version of the layer's state object (R215). -/
structure AttnQuery where
  id : Nat
  pos : Nat
  q : Nat
  dst : Nat
  save : Option Nat
deriving DecidableEq, Repr

/-- A tile that an engine may start (R194): context, the task it works for, layer index, whether it loads a weight share, for a
substitute's tile the loop that it is a step of, counted from 1 (R218), whether its inputs are present (R51, R214), whether it is work of
Retouch (R228) or of a substitute (R211, layer then counts panel layers), the cost declared for those two, the credit pair of its
consumer, the ARITH cycles since its layer became ready (R202), what its load phase brings: (Palette line, scratch line) pairs, bank ×
8,192 + line, and (line of the state object, scratch line) pairs (R215), its outputs, or its key block and queries, their format (R102, R201;
5 BF16, 6 E4M3, 7 E5M2, 8 FP32), the input vectors that it completes, and whether the layer's work of a loop step or of the tick is done with
it. -/
structure TileCand where
  ctx : Nat
  work : Work
  layer : Nat
  share : Bool
  loop : Nat
  present : Bool
  retouch : Bool
  subst : Bool
  cost : Nat
  pair : Nat
  since : Nat
  loads : List (Nat × Nat)
  stateLoads : List (Nat × Nat)
  outs : List TileCol
  block : KeyBlock
  queries : List AttnQuery
  out : Nat
  vecs : Nat
  stepDone : Bool
  layerDone : Bool
deriving DecidableEq, Repr

/-- What a Retouch step has from outside the stack and from the forward pass (R227): the bytes of SAMPOBJ, of TGTOBJ and of each trained layer's
weights in the Canvas where their home is another stack's (R596), and the scale of each layer's activations. -/
structure RetouchIn where
  samp : List Byte
  tgt : List Byte
  canvas : List (List Byte)
  ascales : List Half
deriving DecidableEq, Repr

/-- A plane of samples, row after row (R236). -/
structure Plane where
  w : Nat
  h : Nat
  px : List Half
deriving DecidableEq, Repr

/-- A Warp job's inputs (R239 to R245): the job record of the dispatch entry by index, the plane, the size of the output picture in luma
pixels, the output rows of the plane, the Palette byte addresses of the flow grid and of the plane's first output row, how many rows of the
grid have been produced, and the credit pair of the consumer. -/
structure WarpIn where
  job : Nat
  plane : Nat
  w : Nat
  h : Nat
  row0 : Nat
  rows : Nat
  grid : Nat
  gridRows : Nat
  dst : Nat
  pair : Nat
deriving DecidableEq, Repr

/-- An access of port B during a port-A access of the Window (R331): the word, the data if it is a write, the time in picoseconds from port A's
edge to port B's edge, and whether its array cycle began before the last WIN_COMMIT took effect (R336). -/
structure PortB where
  word : Nat
  wr : Option DWord
  dps : Int
  before : Bool
deriving DecidableEq, Repr

/-- A line access: a read, or a write with 64 byte enables (R299). -/
inductive LineOp where
  | read
  | write (data : Line) (en : BitVec 64)
deriving DecidableEq, Repr

/-- One request to a bank (R301, R304): the unit, the agent that makes it (0 the unit itself, 2 Mover, 6 Migration engine), the line,
the bits that have flipped in it, those that the first read alone sees, whether the producer declines a recompute (R318), and the
context. -/
structure PalReq where
  unit : Nat
  agent : Nat
  line : Nat
  op : LineOp
  upset : BitVec 640
  noise : BitVec 640
  declines : Bool
  ctx : Nat
deriving DecidableEq, Repr

/-- An access to a swatch: a read or a write of one line (R347). -/
inductive SwOp where
  | read
  | write (line : Nat) (data : Line)
deriving DecidableEq, Repr

/-- A cell fault found by March C− (R326). -/
structure MarchFail where
  line : Nat
deriving DecidableEq, Repr

/-- What a read of pages finds (R391, R396): the error bits of each codeword, four to a page, after the retry steps taken. -/
structure ReadFinding where
  bits : List Nat
  retries : Nat
deriving DecidableEq, Repr

/-- Which agent writes a register (R712): the host through the control space, or Easel on its own path with the
selector value it names. -/
inductive Agent where
  | host
  | easel (sel : Nat)
deriving DecidableEq, Repr

/-- What the boot probe reads of a panel (R655): the mismatches of its SPAN strikes, and the reference codes of each window, those of the SPAN strikes
first and then those of the 64 ZERO strikes. -/
structure BootProbe where
  panel : Nat
  misses : Nat
  refs : List (List (Byte × Byte))
deriving DecidableEq, Repr

/-- What a start finds (R651): what the boot probe reads of panels, fence-record units that fail their test or pass with
corrections (R619), the fuse map's CRC, the verification of both slots (R660), and whether what is loaded reads without fault (R661). -/
structure StartIn where
  probe : List BootProbe
  testFail : List (Nat × Nat)
  testCorr : List (Nat × Nat)
  fuseOk : Bool
  okA : Bool
  okB : Bool
  loadOk : Bool
deriving DecidableEq, Repr

/-- The rows of the table, in its order. -/
inductive Instr where
  -- Tick unit
  | tickBumpEdge (t : Nat) (wide : Bool)
  | tick (hl : Nat) (t : Nat)
  | internalTimer
  | synthesisedEdge
  | registeredEdge (draw : Half) (same : List Nat)
  | sliceBoundary
  | creditWaitExpiry (unit ctx waited : Nat)
  | creditReturn (ctx pair : Nat)
  -- arithmetic
  | strikeIssue (group : Nat) (cands : List StrikeCand) (residueBad : Bool) (cut : Option Nat)
  | probeStrike (group : Nat) (cands : List StrikeCand) (reads : List ProbeRead)
  | tileStart (eng : Nat) (cands : List TileCand)
  | tileEnd (eng wait : Nat) (upset : Option (Nat × Line))
  | swwaitExpiry (eng ctx : Nat) (arrived : Bool)
  | retouchStepDone (ctx : Nat) (inp : RetouchIn)
  | warpJob (ctx : Nat) (work : Work) (inp : WarpIn)
  | sourceLineFill (line cycles : Nat)
  | payloadUnpack (ctx frame slice : Nat) (width height : Nat) (dst : List Nat) (acts : Nat)
  | pack (ctx frame slice line0 lines before after out : Nat) (acts : List Nat) (count : Nat)
  | classicalBlock (line0 lines : Nat) (sizes : List (Nat × Nat))
  | completionPost (ring : Nat)
  | eventRecordPost
  -- Glaze
  | compressBlock (lane : Nat)
  | expandBlock (lane : Nat)
  -- Palette
  | palAccess (bank : Nat) (reqs : List PalReq)
  | palBankOwner (writer bank : Nat) (value : Word)
  | bankHandoverDone (bank : Nat)
  | palCommit
  | bankClearDone (bank : Nat)
  | conversionDone (bank : Nat)
  | testerChunk (recent : List Nat) (fail : Option MarchFail)
  | rawWrite
  | rawRead
  | winCommit
  | winBusyExpiry
  -- Swatch Map and Migration engine
  | swatchAccess (requester ctx obj off : Nat) (op : SwOp) (bufHit : Bool)
  | moveStart
  | fillDone (obj idx : Nat) (good : Bool) (data : List Byte)
  | writebackDone (obj idx : Nat)
  | readTimeout (obj idx : Nat)
  | refetchDone (obj idx : Nat) (good : Bool) (data : List Byte)
  -- Plan chest
  | chestRead (addr : Nat) (sys : Bool) (find : ReadFinding)
  | chestWrite (addr : Nat) (sys : Bool) (data : List Byte) (ctx : Nat)
  | chestWriteDone (quad blockSet page : Nat) (failed : List Nat)
  | relocation (blockSet : Nat) (finds : List ReadFinding)
  | refreshScan (find : ReadFinding)
  | xipFetch (addr lat : Nat) (busy : Bool)
  | suspendedResume (plane : Nat)
  | read (find : ReadFinding)
  | readRaw
  | program (verified : Bool)
  | erase (verified : Bool)
  | blankCheck (programmedBits : List Nat)
  | chsCommit
  -- Mover
  | transferIssue (queue cycles : Nat)
  | transferRetire (queue id : Nat) (fault : Option Nat)
  | arm (queue desc : Nat)
  | cancel (queue : Nat)
  | cancelComplete (queue : Nat)
  | movSemSig (value : Word)
  | movCommit
  -- host link
  | resetNDeassert (strap : BitVec 4) (vddq : BitVec 6)
  | moduleActive (m : ModId) (rate : BitVec 2)
  | trainingTimeout (m : ModId)
  | trainingRetry (m : ModId)
  | linkManagementRequest (hl : Nat)
  | vddqLoss (m : ModId)
  | mrdc (rx : Rx) (id : Nat) (data : List Byte)
  | cwr (rx : Rx) (off : Nat) (data : List Byte) (resp : Bool) (portB : List PortB)
  | crd (rx : Rx) (off len : Nat) (portB : List PortB)
  | ack (link : LinkId) (good : Bool) (seq : Half) (credit : List Nat)
  | nak (link : LinkId) (good : Bool) (seq : Half)
  | replayTimeout (link : LinkId) (seq : Half)
  | linkDownTimeout
  | linkLossTimeout
  | produce (ring index : Nat)
  | consume (ring index : Nat)
  | enable (ring : Nat)
  | disable (ring : Nat)
  | hlkUrgDb (mask : Half)
  | hlkCommit
  -- commands
  | unsupported (p : Packet)
  | ctxOpen (p : Packet)
  | ctxBind (p : Packet)
  | ctxClose (p : Packet)
  | objDefine (p : Packet)
  | objDefineUndef (p : Packet)
  | objWrite (p : Packet) (remote : List Byte)
  | objRead (p : Packet) (remote : List Byte)
  | objPlace (p : Packet)
  | modelStage (p : Packet) (remote : List Byte)
  | modelSwitch (p : Packet)
  | panelProgram (p : Packet)
  | panelReprime (p : Packet)
  | programStart (group : Nat) (fetched next : List Byte)
  | programComplete (group : Nat) (good : Bool) (pulses : BitVec 4) (time : Half) (refs : List (List (Byte × Byte)))
  | runSlice (p : Packet) (blocks : Nat)
  | runFrame (p : Packet) (blocks : Nat)
  | abort (p : Packet) (urgent : Option Nat)
  | abortCompletion (ctx : Nat)
  | tickConfig (p : Packet)
  | tckCommit
  | calControlSet (p : Packet)
  | calControlMark (p : Packet)
  | calControlClear (p : Packet)
  | prmCommit
  | retouch (p : Packet)
  | fabJoin (p : Packet)
  | fabBroadcast (p : Packet) (remote : List Byte)
  | powerActive (p : Packet)
  | powerHold (p : Packet)
  | powerDoze (p : Packet)
  | powerRest (p : Packet)
  | powerOff (p : Packet)
  | fwStage (p : Packet)
  | fwActivate (p : Packet) (verified : Bool)
  | fwSwap (loadOk : Bool)
  | selfTestDone (passed : Bool)
  | confirmWindowExpiry
  | clamps (p : Packet)
  | palCheck (p : Packet)
  | winCheck (p : Packet) (collided : Bool)
  | service (p : Packet)
  | chestRaw (p : Packet) (find : ReadFinding) (verified : Bool)
  | swatch (p : Packet)
  | sem (p : Packet)
  | events (p : Packet)
  | attest (p : Packet)
  | keyExpansionDone
  | slotDigestDone
  -- fabric
  | enum (w : Wrx)
  | enumReply (w : Wrx)
  | enumTimeout (port : Nat)
  | cmd (w : Wrx)
  | cpl (w : Wrx)
  | rmt (w : Wrx)
  | rmtReply (w : Wrx)
  | remoteRead
  | remoteWrite
  | bcastStart (w : Wrx)
  | bcastStartTimeout (d : Nat)
  | shard (w : Wrx)
  | shardAck (w : Wrx)
  | shardNack (w : Wrx)
  | shardTimeout (sno : Nat)
  | bcastEnd (w : Wrx)
  | bcastFail (w : Option Wrx) (sno : Nat)
  | entry (w : Wrx)
  | entryCredit (w : Wrx)
  | glzAck (w : Wrx)
  | glzResend (w : Wrx)
  | tierRd (w : Wrx)
  | tierRdc (w : Wrx) (obj idx : Nat)
  | tierWr (w : Wrx)
  | tierWrack (w : Wrx) (obj idx : Nat)
  | lendBankReturn (bank : Nat)
  | fabCommit
  | fabRoute (d : Nat) (value : Word)
  | heartbeat (w : Wrx)
  | heartbeatSend
  | heartbeatLoss (d : Nat)
  | hopDownTimeout (port pos : Nat)
  -- containment, power, boot
  | helperWatchdog (unit index : Nat)
  | dispatchReinstallDone (bank : Nat)
  | sensorSample (tj : List Int)
  | refclkLoss
  | coldReset (rstAsserted pwrGood : Bool)
  | start (inp : StartIn)
  | recoveryGo (verified : Bool)
  | watchdogExpiry
  | easWdog (value : Word)
  | wakeBump (level : Bool) (cycles : Nat) (short coreLow : Bool)
  | wake (hl : Nat) (byte1 : Byte) (cycles : Nat) (coreLow : Bool)
  | wakeTimer (us : Nat) (coreLow : Bool)
  | easelResume (loadOk : Bool)
  | allowanceGain
  | trimSave
  | glzCommit
  | migCommit
  | registerWrite (a : Agent) (off : Nat) (v : Word)
  | loadPhaseComplete (eng wait : Nat) (upset : Option (Nat × Line))
  | blockEraseDone (blockSet : Nat) (failed : List Nat)
  | vddqReturn (m : ModId)
  | sidebandMessageIgnored (hl : Nat) (vendor : Half) (code : Byte)
  | undefinedKindFrame (w : Wrx) (kind vc : Nat)
  | flWpNChange (asserted : Bool)
  | jtagTckEdge (tms tdi : Bool)
  | trstNAssert
  | diagUndefinedFunc (p : Packet)
  | poweredHour
deriving DecidableEq, Repr

end Sys2Proof
end

