-- ==== Sys2Proof/Decode.lean ====
section
/-! DEFINITION. The command that a word of the table's bits spells. spec/opcode_table.json gives its rows no bits, so no
word spells a command. -/

namespace Sys2Proof

/-- No row of the table gives bits: every word is refused. -/
def decodeTableWord (_nbits _w : Nat) : Option Instr := none

end Sys2Proof
end

