-- ==== Sys2Proof/Config.lean ====
section
/-! DEFINITION. What one part fixes and what the manual leaves open: constants with no body, so that no proof can see
their value. Each is named in the assumption log (log 1, 5, 7, 8, 9). -/

namespace Sys2Proof.Config

/-- Free values the manual leaves undefined after an effect (R25, R333, R633), applied to the state's counter (log 1). -/
opaque freeBit : Nat → Bool
/-- Free 64-bit values (R333: a collided read in compatibility mode returns undefined data) (log 1). -/
opaque freeWord : Nat → DWord

/-- The part's own fuse map: which of a group's 17 panels is the spare (R13, R178) (log 4). -/
opaque fuseSpare : Nat → Nat
/-- Row of a panel that one of its 8 repair rows replaces (R178) (log 4). -/
opaque fuseRow : Nat → Nat → Option Nat
/-- Column of a panel that one of its 4 repair columns replaces (R178) (log 4). -/
opaque fuseCol : Nat → Nat → Option Nat
/-- Temperature grade in the fuse map: 1 is GN-7204-C, 2 is GN-7204-E (R710) (log 5). -/
opaque gradeE : Bool
/-- Serial number in the fuse map (R682) (log 5). -/
opaque serial : DWord
/-- Fuses at shipment: security version and revoked keys (R660) (log 5). -/
opaque fuseSvn : BitVec 6
/-- Revoked ROM keys (R660) (log 5). -/
opaque fuseKeyRev : BitVec 4
/-- Width of each fabric port, fixed by the package (R569) (log 5). -/
opaque fabWide : Nat → Bool
/-- Spare-pool blocks at the first start (R399) and erased blocks ready (R721) (log 5). -/
opaque chestSpare : Nat
/-- Erased blocks ready for writes at the first start (R721) (log 5). -/
opaque chestFree : Nat
/-- Byte of the ten metadata bytes of a codeword (R381): logical unit, the page's place in it, write sequence number; the manual lays none out
(log 5). -/
opaque metaByte : Nat → Nat → Nat → Nat → Byte
/-- Byte of the 70 parity bytes over a codeword's data and metadata (R381); the manual names no code (log 5). -/
opaque parityByte : List Byte → Nat → Byte
/-- The blocks, plane × 2,560 + block, of the factory bad-block table (R397, R410) (log 5). -/
opaque factoryBlocks : List Nat
/-- Bytes of KEYS, FUSE_SHADOW and the first boot record as the part leaves the factory (R386, R663), by system address (log 5). -/
opaque shipped : Nat → Byte
/-- Bytes of the PANEL and TRIMS records by how often they have been written and system address: the manual gives their content and no layout
(R386) (log 121). -/
opaque recordByte : Nat → Nat → Byte
/-- What a byte of an erased page reads as: page number and byte; the manual states none (log 5). -/
opaque erasedByte : Nat → Nat → Byte
/-- Bytes of the image in slot A when the part leaves the factory (R658, R663) (log 5). -/
opaque factoryImage : Nat → Byte
/-- The four key digests in the mask ROM (R660) (log 5). -/
opaque romKey : Nat → Line
/-- Banks that Easel keeps for its urgent handler (R322, R652); the manual gives no number (log 9). -/
opaque handlerBanks : Nat
/-- DEVID words (R675) (log 8). -/
opaque devid : Nat → Word
/-- Length of the Falcon signature over a report and of the certificate (R677) (log 8). -/
opaque sigLen : List Byte → BitVec 32
/-- Bytes of the Falcon-1024 signature over a message (R676) (log 8). -/
opaque falconSig : List Byte → Nat → Byte
/-- The SHAKE256 digest with 64-byte output (R660, R678) (log 8). -/
opaque shake256 : List Byte → Line
/-- The mask ROM, the voted fuse map and a loaded microcode section, as digests measure them (R678) (log 8). -/
opaque romDigest : Line
/-- Digest of the voted fuse map (R678) (log 8). -/
opaque fuseDigest : Line
/-- Device public key bytes (R676) (log 8). -/
opaque pubKey : Nat → Byte
/-- Certificate bytes and its length (R676) (log 8). -/
opaque cert : Nat → Byte
/-- Certificate length (R677) (log 8). -/
opaque certLen : BitVec 32
/-- Which UCIe training state a module in training shows at a read (R453) (log 7). -/
opaque trainShow : Nat → BitVec 2
/-- A coefficient of the Catmull-Rom table of R242, phase and tap, is rounded up from its exact value; the manual does not print the
table (log 9). -/
opaque catmullUp : Nat → Nat → Bool
/-- A coefficient of the Lanczos-3 table of R257, phase and tap, is rounded up from the value of the kernel whose taps sum to one; the manual does not
print the table (log 9). -/
opaque lanczosUp : Nat → Nat → Bool
/-- Where the sample of a scaled line lies in its source, in 1/64 sample: source length, target length, index (R257). No rule states it;
the model keeps it within one source sample of the proportional place (log 9). -/
opaque lanczosAt : Nat → Nat → Nat → Int
/-- An entry of a transfer function's table of 4,096 (R250), in FP32: the function and the index; the manual does not print it (log 9). -/
opaque curveEntry : Nat → Nat → Word
/-- Where a value falls in a transfer function's table (R250): the entry below it, and the way to the next one; no rule states the spacing
(log 9). -/
opaque curvePlace : Nat → Word → Nat × Word
/-- Light after a tone table of the Canvas, in 2⁻⁶⁴ of 10,000 cd/m²; no rule states what an index and an entry stand for (R250) (log 9). -/
opaque toneCurve : List Half → Nat → Nat
/-- A sample of a plane of a frame that the context never had: plane, place in the row, row; no rule states it (R257) (log 90). -/
opaque absentSample : Nat → Nat → Nat → Half
/-- What a NaN becomes as an output sample (R255 states none) (log 9). -/
opaque nanSample : Half
/-- T of R239 for a context whose manifest has no WARP record: the manual states none (log 9). -/
opaque noPhase : Nat
/-- The entries of a channel are Retouch gradients (R264, R594): context and pair; no rule says how a manifest tells (log 115). -/
opaque gradients : Nat → Nat → Bool
/-- Object that holds a context's trained copies of a layer (R230): context and layer; no rule gives its number (log 117). -/
opaque retouchObj : Nat → Nat → BitVec 20
/-- Pool banks that Easel wants the Migration engine to hold, at each CTX_BIND, OBJ_PLACE and POWER (R356); the manual gives no number (log 9). -/
opaque poolWant : Nat → Nat
/-- A byte of a unit's send buffer that a PORT source reads: unit code, counter, offset; no rule lays a buffer out (R423)
(log 9). -/
opaque sendByte : Nat → Nat → Nat → Byte
/-- What a NaN becomes at an integer output, by OUT (R102 states none) (log 9). -/
opaque nanCode : Nat → Byte
/-- The test-port instruction of a code drives the bumps from the scan chain; the manual prints no codes (R711) (log 9). -/
opaque tapScan : BitVec 4 → Bool
/-- The test-port instruction of a code is IDCODE (R711) (log 9). -/
opaque tapIdcode : BitVec 4 → Bool
/-- The 1,024-entry exponential table of R213, in FP32; the manual does not print it (log 9). -/
opaque expEntry : Nat → Word
/-- Where an FP32 argument falls in the exponential table of R213: the entry below it, and how far it lies towards the next (log 9). -/
opaque expPlace : Word → Nat × Word
/-- A score divided by √d, d of 32 or 128, takes the FP32 number above the exact quotient, not the one below it (R212): no rule states how the
division is rounded (log 9). -/
opaque divRootUp : Nat → Word → Bool

end Sys2Proof.Config
end

