-- ==== Sys2Proof/Machine/Bits.lean ====
section
/-! DEFINITION. Bit fields, byte order (R5), saturating counters (R10), rounding, and the sparse tables. -/

namespace Sys2Proof.Machine

/-- Bits hi..lo of a number, as a number. -/
def bits (x hi lo : Nat) : Nat := (x >>> lo) % 2 ^ (hi + 1 - lo)

/-- One bit of a number. -/
def bit (x i : Nat) : Bool := x.testBit i

/-- A Bool as one bit. -/
def b1 (b : Bool) : BitVec 1 := BitVec.ofBool b

/-- A counter that saturates at all ones (R10). -/
def satInc {w : Nat} (x : BitVec w) : BitVec w := if x = BitVec.allOnes w then x else x + 1

/-- A counter that saturates, advanced by k. -/
def satAdd {w : Nat} (x : BitVec w) (k : Nat) : BitVec w :=
  if x.toNat + k < 2 ^ w then BitVec.ofNat w (x.toNat + k) else BitVec.allOnes w

/-- A field of register width taken from a number, saturated to the field. -/
def satNat (w n : Nat) : BitVec w := if n < 2 ^ w then BitVec.ofNat w n else BitVec.allOnes w

/-- Nearest value of [lo, hi] (R497). -/
def clampN (lo hi x : Nat) : Nat := if x < lo then lo else if hi < x then hi else x

/-- Nearest value of [lo, hi] among the integers. -/
def clampZ (lo hi x : Int) : Int := if x < lo then lo else if hi < x then hi else x

/-- ceil(a / b). -/
def ceilDiv (a b : Nat) : Nat := (a + b - 1) / b

/-- round(n / d) with halves away from zero (R76), d > 0. -/
def roundAway (n d : Int) : Int :=
  if n < 0 then -(((-n) * 2 + d) / (2 * d)) else (n * 2 + d) / (2 * d)

/-- n / d truncated towards zero, d > 0. -/
def truncDiv (n d : Int) : Int := if n < 0 then -((-n) / d) else n / d

/-- n / d rounded to nearest, ties to even, d > 0 (R99, R102). -/
def roundEven (n d : Int) : Int :=
  let q := n / d
  let r := n - q * d
  if 2 * r < d then q else if d < 2 * r then q + 1 else if q % 2 = 0 then q else q + 1

/-- Two's complement value of the low w bits of a number. -/
def signed (w x : Nat) : Int :=
  let y := x % 2 ^ w
  if y < 2 ^ (w - 1) then (y : Int) else (y : Int) - (2 ^ w : Nat)

/-- Low w bits of an integer. -/
def low (w : Nat) (x : Int) : Nat := (x % ((2 ^ w : Nat) : Int)).toNat

/-- Little-endian bytes of a number (R5). -/
def bytesOf : Nat → Nat → List Byte
  | 0, _ => []
  | n + 1, x => BitVec.ofNat 8 x :: bytesOf n (x / 256)

/-- Number whose little-endian bytes are given (R5). -/
def natOf : List Byte → Nat
  | [] => 0
  | b :: bs => b.toNat + 256 * natOf bs

/-- n bytes from offset off of a list, missing bytes zero (R491). -/
def slice (bs : List Byte) (off n : Nat) : List Byte :=
  let t := (bs.drop off).take n
  t ++ List.replicate (n - t.length) 0

/-- The little-endian number in n bytes from offset off, missing bytes zero. -/
def fieldB (bs : List Byte) (off n : Nat) : Nat := natOf ((bs.drop off).take n)

/-- The 64 bytes of a line. -/
def lineBytes (l : Line) : List Byte := bytesOf 64 l.toNat

/-- The line of 64 bytes, missing bytes zero. -/
def lineOf (bs : List Byte) : Line := BitVec.ofNat 512 (natOf (bs.take 64))

/-- Bytes cut into pieces of n bytes, at most fuel pieces. -/
def piecesF (n : Nat) : Nat → List Byte → List (List Byte)
  | 0, _ => []
  | f + 1, bs => if bs.isEmpty then [] else bs.take n :: piecesF n f (bs.drop n)

/-- Bytes cut into pieces of n bytes (n > 0), the last maybe shorter. -/
def pieces (n : Nat) (bs : List Byte) : List (List Byte) := piecesF n bs.length bs

/-- What a sparse table holds under a key; d is what an unlisted key reads as. -/
def look {α : Type} (d : α) : SMap α → Nat → α
  | [], _ => d
  | (a, v) :: m, k => if k = a then v else look d m k

/-- Puts a value under a key, keys kept strictly rising. -/
def putRaw {α : Type} (k : Nat) (v : α) : SMap α → SMap α
  | [] => [(k, v)]
  | (a, w) :: m => if k < a then (k, v) :: (a, w) :: m else if k = a then (k, v) :: m else (a, w) :: putRaw k v m

/-- Removes a key. -/
def eraseKey {α : Type} (k : Nat) : SMap α → SMap α
  | [] => []
  | (a, w) :: m => if k = a then m else (a, w) :: eraseKey k m

/-- Writes a cell of a memory in canonical form: the value an unlisted key reads as removes the entry. -/
def put {α : Type} [DecidableEq α] (d : α) (k : Nat) (v : α) (m : SMap α) : SMap α :=
  if v = d then eraseKey k m else putRaw k v m

/-- Applies a function to the value under a key. -/
def modify {α : Type} (d : α) (k : Nat) (f : α → α) (m : SMap α) : SMap α := putRaw k (f (look d m k)) m

/-- Keys strictly rising and above a bound. -/
def risingFrom {α : Type} : Nat → SMap α → Bool
  | _, [] => true
  | b, (a, _) :: m => decide (b ≤ a) && risingFrom (a + 1) m

/-- The canonical form of a memory: keys strictly rising, no entry equal to what an unlisted key reads as. -/
def memWf {α : Type} [DecidableEq α] (d : α) (m : SMap α) : Bool :=
  risingFrom 0 m && m.all (fun p => decide (p.2 ≠ d))

/-- Writes bytes at rising addresses into a byte memory that reads 0 where nothing is listed. -/
def putBytes (addr : Nat) : List Byte → SMap Byte → SMap Byte
  | [], m => m
  | b :: bs, m => putBytes (addr + 1) bs (put 0 addr b m)

/-- Reads n bytes from rising addresses. -/
def getBytes (m : SMap Byte) (addr : Nat) : Nat → List Byte
  | 0 => []
  | n + 1 => look 0 m addr :: getBytes m (addr + 1) n

/-- Replaces the i-th element of a list, if there is one. -/
def setAt {α : Type} : List α → Nat → (α → α) → List α
  | [], _, _ => []
  | a :: as, 0, f => f a :: as
  | a :: as, i + 1, f => a :: setAt as i f

/-- Numbers below n with a property, ascending. -/
def below (n : Nat) (p : Nat → Bool) : List Nat := (List.range n).filter p

/-- First element of the cyclic order that starts just after last (R44): the least one above last, else the least. -/
def nextAfter (last : Nat) (xs : List Nat) : Option Nat :=
  match (xs.filter (fun x => decide (last < x))).min? with
  | some x => some x
  | none => xs.min?

/-- Sum of a list. -/
def sumN (xs : List Nat) : Nat := xs.foldl (· + ·) 0

/-- Sum of a list of integers. -/
def sumZ (xs : List Int) : Int := xs.foldl (· + ·) 0

end Sys2Proof.Machine
end

