-- ==== Sys2Proof/Machine/UnitsCore.lean ====
section
/-! DEFINITION. State of the Tick unit, contexts and their maps, tasks, panels and the Primer. Every default is the
value at cold reset. -/

namespace Sys2Proof.Machine

/-- Settings of the Tick unit, one set of RWC fields (R36, R714). -/
structure TickCfg where
  slices : BitVec 6 := 0
  holdover : BitVec 1 := 1
  src : BitVec 2 := 2
  nom : BitVec 24 := 0x196E6B
  min : BitVec 24 := 0x030D40
deriving DecidableEq, Repr

/-- A source event in the synchroniser (R24): a real one or a synthesised one, and its TCK cycle. -/
structure SyncEvent where
  real : Bool
  at_ : Nat
deriving DecidableEq, Repr

/-- The Tick unit (R23 to R36, R719). Times are TCK cycles since the last reset. -/
structure TickUnit where
  loaded : Bool := false
  shadow : TickCfg := {}
  latched : Option TickCfg := none
  eff : TickCfg := {}
  meas : BitVec 24 := 0x196E6B
  sliceLen : BitVec 24 := 0x196E6B
  realign : Bool := false
  overrun : Bool := false
  synth : Bool := false
  ignored : Bool := false
  count : Word := 0
  sliceNow : BitVec 6 := 0
  ignoredCnt : Word := 0
  missedCnt : Word := 0
  ctxSel : BitVec 10 := 0
  begun : Bool := false
  lastAcc : Nat := 0
  lastSynth : Option Nat := none
  lastReal : Option Nat := none
  periods : List Nat := []
  bandPeriods : List Nat := []
  gridEdge : Nat := 0
  gridP : Nat := 0x196E6B
  sync : List SyncEvent := []
deriving DecidableEq, Repr

/-- What serves in a context's place (R58). -/
inductive Fallback where
  | ctx (c : Nat)
  | lanczos
  | frameRepeat
  | blend
deriving DecidableEq, Repr

/-- A budget: strike tokens per group, cycle tokens per engine, byte tokens (R38); an unlisted unit holds 0. -/
structure Budget where
  strike : SMap Nat := []
  cycle : SMap Nat := []
  bytes : Nat := 0
deriving DecidableEq, Repr

/-- What a CTX_BIND sets (R57, R504); w counts ARITH cycles. -/
structure Bind where
  realtime : Bool := true
  d : Nat := 0
  w : Nat := 2048
  fb : Fallback := .frameRepeat
  budget : Budget := {}
deriving DecidableEq, Repr

/-- Where a command came from: a submission ring, an urgent mailbox slot, or the manager over the fabric (R494, R578). -/
inductive CmdSrc where
  | ring (r : Nat)
  | urgent (n : Nat)
  | fabric (ring : Nat)
deriving DecidableEq, Repr

/-- A command taken: where from, its header, the head index after its packet (R471), its place in the order taken. -/
structure Cmd where
  src : CmdSrc
  hdr : Line
  head : Nat
  seq : Nat
deriving DecidableEq, Repr

/-- Gallery address of a panel image (R539). -/
structure Src where
  obj : Nat
  off : Nat
  chest : Option (Nat × Nat) := none
deriving DecidableEq, Repr

/-- A segment as installed (R83, R541): image, group and slot from PLACE, and whether it was dropped or belongs to a
twin; ord pairs a twin segment with its primary. -/
structure Seg where
  layer : Nat
  ord : Nat
  twin : Bool
  img : Src
  grp : Nat
  slot : Nat
  replica : Nat
  rowseg : Nat
  row0 : Nat
  rows : Nat
  col0 : Nat
  cols : Nat
  dropped : Bool := false
deriving DecidableEq, Repr

/-- A column record (R543). -/
structure ColRec where
  k : Int := 0
  scale : Half := 0
  bias : Half := 0
deriving DecidableEq, Repr

/-- A panel layer as installed (R83, R116, R542). -/
structure PLayer where
  window : BitVec 2 := 0
  abits4 : Bool := false
  asigned : Bool := false
  out : BitVec 3 := 0
  table : Option (List Byte) := none
  noTable : Bool := false
  ckta : Nat := 0
  cktr : Nat := 0
  twin : Bool := false
  subst : Bool := false
  substLe : Nat := 0
  cols : List ColRec := []
deriving DecidableEq, Repr

/-- A Liner layer as installed (R204, R544). -/
structure LLayer where
  kind : BitVec 3 := 0
  fmt : BitVec 3 := 0
  fp8w : Bool := false
  fp8a : Bool := false
  wsign : Bool := false
  asign : Bool := false
  stream : Bool := false
  stateful : Bool := false
  mask : Bool := false
  headdim : BitVec 2 := 0
  kw : Nat := 0
  kh : Nat := 0
  rank : Nat := 0
  groups : Nat := 0
  stagger : Nat := 0
  win : Nat := 0
  highsrc : Nat := 0
  m : Nat := 0
  k : Nat := 0
  tcostw : Nat := 0
  tcost : Nat := 0
  eset : BitVec 16 := 0
  swwait : Nat := 0
  alpha : Half := 0
  loop : Nat := 0
  waddr : DWord := 0
  table : Option (List Byte) := none
  cols : List ColRec := []
deriving DecidableEq, Repr

/-- A pixel channel record (R538). -/
structure PixChan where
  ascale : Half := 0
  abias : Half := 0
  oscale : Half := 0
  obias : Half := 0
deriving DecidableEq, Repr

/-- A Warp job record (R239, R538). -/
structure WarpRec where
  mode : Bool := false
  filter : Bool := false
  edge : BitVec 2 := 0
  fill : Half := 0
  flowsub : Nat := 0
  phase : Nat := 0
  blend : Bool := false
  shuf : BitVec 2 := 0
deriving DecidableEq, Repr

/-- A panel map with the dispatch entries that came with it (R547). `streamAt` and `glazeAt` are the offsets
of the STREAMS and GLAZE sections (R500), `channels` the pairs of its cross-stack streams in stream order, to which the GLAZE records belong in their
order (R538, R592; log 115). -/
structure CMap where
  modelId : DWord := 0
  grainSlice : Bool := false
  msize : Nat := 0
  digest : Line := 0
  segs : List Seg := []
  players : List PLayer := []
  llayers : List LLayer := []
  objects : List Nat := []
  buffers : List (Nat × Nat × Nat) := []
  streams : List Line := []
  streamAt : Nat := 0
  blocks : List (List Byte) := []
  pixel : List PixChan := []
  warp : List WarpRec := []
  tone : List Half := []
  loops : List (Nat × Nat × Nat) := []
  glaze : List (Bool × Nat × Nat) := []
  glazeAt : Nat := 0
  channels : List Nat := []
  pieces : List (Nat × Nat) := []
deriving DecidableEq, Repr

/-- Context states (R502). -/
inductive CState where
  | closed
  | open_
  | bound
  | closing
deriving DecidableEq, Repr

/-- Where a replica runs in this tick (R137); the fallback with its cause code. -/
inductive Route where
  | own
  | twin
  | subst
  | fallback (cause : Nat)
deriving DecidableEq, Repr

/-- The status word of a layer in a tick (R112); cols lists the distinct columns that clipped. -/
structure LStat where
  clipped : Bool := false
  mismatch : Bool := false
  routed : Bool := false
  saturated : Bool := false
  window : BitVec 2 := 0
  cols : List Nat := []
  splits : Nat := 0
deriving DecidableEq, Repr

/-- A context's two maps and the switch between them (R171 to R176, R511). useB names the map in use, live whether one
is in use; `old` is the map that drains or waits for its release. -/
structure CtxMaps where
  a : Option CMap := none
  b : Option CMap := none
  old : Option CMap := none
  useB : Bool := false
  live : Bool := false
  switching : List Cmd := []
  drain : Nat := 0
  releasing : Bool := false
  everBound : Bool := false
deriving DecidableEq, Repr

/-- A Retouch run (R227 to R230): steps done and steps taken up, the steps completed that wait for the edge, and whether the step in progress is
to be discarded (R292, R624). -/
structure RetouchRun where
  cmd : Cmd
  layers : List Nat
  steps : Nat
  taken : Nat := 0
  done : Nat := 0
  ready : Nat := 0
  spoiled : Bool := false
  eset : BitVec 16 := 0
  lr : Word := 0
  mom : Half := 0
  nsamp : Nat := 0
  samp : Nat := 0
  tgt : Nat := 0
deriving DecidableEq, Repr

/-- A context's counters, each 32 bits: Tick unit (R36), panels (R112), Primer (R146), Liner (R234), Warp and Pixel
units (R262), Mover (R451). -/
structure CtxCnt where
  miss : Word := 0
  fbblk : Word := 0
  ovr : Word := 0
  strikes : Word := 0
  split : Word := 0
  empty : Word := 0
  clip : Word := 0
  twin : Word := 0
  subst : Word := 0
  fb : Word := 0
  linTiles : Word := 0
  linOver : Word := 0
  linLate : Word := 0
  linHold : Word := 0
  linShort : Word := 0
  linRetouch : Word := 0
  pixPay : Word := 0
  pixClassic : Word := 0
  movBytes : Nat := 0
  movCancel : Word := 0
  movCause : BitVec 4 := 0
  movFault : BitVec 28 := 0
deriving DecidableEq, Repr

/-- A plane of samples as it stands in Palette (R236): its size, and the Palette byte address of its first row. Every row starts on
a 64-byte line. -/
structure PlaneRef where
  addr : Nat
  w : Nat
  h : Nat
deriving DecidableEq, Repr

/-- The trained A and B of one LOWRANK layer (R227 to R230), row after row: the FP32 master copies, their momenta, the BF16 copies in
use, and those that wait for the edge. -/
structure LowRank where
  a : List Word := []
  b : List Word := []
  ma : List Word := []
  mb : List Word := []
  useA : List Half := []
  useB : List Half := []
  newA : List Half := []
  newB : List Half := []
deriving DecidableEq, Repr

/-- A context (R502). `routesOld` are the routes of the draining map, `pics` the pictures unpacked last with frame and slice, newest first, `stateBuf` and
`stateNew` the two versions of each state object (R215), `low` the trained copies of LOWRANK layers. Clamp record (R500); tokens of the bank in use; credits per pair (R49); `handed` the cause of the
handover in this tick, 0 none; `missed` whether MISS has counted in this tick (R64); `runs` the (tick,
slice) pairs that have a RUN_SLICE, 64 for a RUN_FRAME (R516); `retouchNext` the RETOUCHes that wait for the one in progress. -/
structure Ctx where
  st : CState := .closed
  even : Bool := false
  evq : BitVec 15 := 0
  bind : Bind := {}
  bindLive : Bool := false
  next : Option Bind := none
  firstBind : Bool := false
  dNow : Nat := 0
  tok : Budget := {}
  credit : SMap Nat := []
  fence : Bool := false
  closeFence : Bool := false
  linkFence : Bool := false
  powerFence : Bool := false
  closeCmd : Option Cmd := none
  abortCmds : List Cmd := []
  clampCnt : Word := 0
  clampOp : Byte := 0
  clampTick : Word := 0
  clampWhere : Word := 0
  handed : BitVec 3 := 0
  missed : Bool := false
  maps : CtxMaps := {}
  routes : List (Nat × Nat × Route) := []
  routesOld : List (Nat × Nat × Route) := []
  stats : SMap LStat := []
  latched : SMap LStat := []
  cnt : CtxCnt := {}
  runs : List (Word × Nat) := []
  refs : List Nat := []
  queues : List Nat := []
  sems : List Nat := []
  stateOk : SMap Bool := []
  loopEnds : List Nat := []
  loopRun : SMap Nat := []
  retouch : Option RetouchRun := none
  retouchNext : List RetouchRun := []
  pics : List (Word × Nat × List PlaneRef) := []
  stateBuf : SMap (List Byte) := []
  stateNew : SMap (List Byte) := []
  low : SMap LowRank := []
deriving DecidableEq, Repr

/-- A completion block packed and not yet posted (R255, R517). -/
structure Block where
  idx : Nat
  line0 : Nat
  lines : Nat
  status : Byte
  cause : BitVec 3
  payload : List Byte
deriving DecidableEq, Repr

/-- A RUN_SLICE or RUN_FRAME in progress (R514 to R518). `tick` is the tick the work belongs to; `cause` the cause of a
handover, 0 none; `by_` what produces the blocks not yet posted; `old` that it belongs to the draining map (R173). `posted` counts the blocks
whose post has begun (R62), `wait` the blocks packed and not yet written whole,
`nextBlk` the next block of a classical path, `line` the first output line that no block has taken. The parts of a frame before its last are tasks of their own, with `last` false and no
blocks, until the unpack (R515). `planes` are the picture's planes once unpacked (R236), `acts` the Palette byte address and the
number of its activations (R254), `low` the trained copies of LOWRANK layers that an open frame keeps past an edge (R229). -/
structure Task where
  cmd : Cmd
  ctx : Nat
  frameCmd : Bool
  frame : Word
  part : Nat
  last : Bool := true
  ifmt : BitVec 12
  ofmt : BitVec 12
  tick : Word
  taken : Word
  ready : Bool := true
  blocks : Nat
  payload : List Byte := []
  unpacked : Bool := false
  planes : List PlaneRef := []
  acts : Option (Nat × Nat) := none
  tone : List Half := []
  packed : Nat := 0
  posted : Nat := 0
  wait : List Block := []
  cause : BitVec 3 := 0
  by_ : Option Fallback := none
  chain : List Nat := []
  gen : Byte := 0
  old : Bool := false
  oldBy : Bool := false
  handedAt : Word := 0
  nextBlk : Nat := 0
  line : Nat := 0
  low : SMap (List Half × List Half) := []
  lowBy : SMap (List Half × List Half) := []
deriving DecidableEq, Repr

/-- Panel states (R112). -/
inductive PState where
  | empty
  | serving
  | spare
  | programming
  | marked
  | fenced
deriving DecidableEq, Repr

/-- The trims, targets and reference accumulators of one panel at one row window (R120 to R122). si counts 1/32
units, so that 2X / L stays whole. -/
structure WinCal where
  gain : Nat := 0x4000
  ofs : Int := 0
  tg : Int := 0x4000
  to_ : Int := 0
  sm : Int := 0
  si : Int := 0
  ng : Nat := 0
  so : Int := 0
  no : Nat := 0
deriving DecidableEq, Repr

/-- A program request (R159): kind 0 program, 1 re-prime, 2 spare rewrite, 3 re-prime of the ROM (R167, R186); `begun` that its
erase step has begun (R161), `back` the state of its panel when it was taken from the queue, to which it goes back (R374). -/
structure Req where
  kind : Nat
  panel : Nat
  src : Src
  cmd : Option Cmd
  image : List Byte := []
  begun : Bool := false
  back : PState := .empty
deriving DecidableEq, Repr

/-- A physical panel. `repRow` and `repCol` are the lines that repair rows and columns replace (R178). `finish` tells that a vector in
flight may still end on the panel, which was marked HARD in this tick (R129, R141). `takes` tells that a spare has taken the slot of a
fenced panel and has not served yet (R181). `probe` counts the panel's probes
(R126). `pendCause` is a mark that waits for an edge (R129, R134), `pendClear` a clear (R133), `verified`
a final verify that has passed and waits for an edge (R142), `req` the program in progress with whether it is the
retry (R156), `start` the starting trims of the four windows (R154),
`relSince` that it has been released since the last start (R551). -/
structure Panel where
  st : PState := .empty
  slot : BitVec 5 := 0
  w0 : WinCal := {}
  w1 : WinCal := {}
  w2 : WinCal := {}
  w3 : WinCal := {}
  rngrun : Nat := 0
  mmrun : Nat := 0
  mmTick : Nat := 0
  mmLast : Half := 0
  total : Word := 0
  cause : BitVec 3 := 0
  pendCause : BitVec 3 := 0
  pendClear : Bool := false
  verified : Bool := false
  req : Option (Req × Bool) := none
  start : List (BitVec 16 × BitVec 12) := []
  relSince : Bool := false
  src : Option Src := none
  cells : List Byte := []
  repRow : SMap Nat := []
  repCol : SMap Nat := []
  finish : Bool := false
  takes : Bool := false
  probe : Nat := 0
  prog : BitVec 12 := 0
  reprime : BitVec 12 := 0
  allow : BitVec 3 := 0
  result : BitVec 2 := 0
  kind : BitVec 2 := 0
  pulses : BitVec 4 := 0
  time : Half := 0
  unfinished : Bool := false
deriving DecidableEq, Repr

/-- One replica's input vector in flight (R86, R98 to R100): the context that strikes it, the work it belongs to, its sequence
number (R207), the loop that it is a step of, counted from 1 (R218), the credit pair of its consumer with the entries that its output takes (R49), where the output goes, its
activations as read from the feed banks, the slices done of each segment, one 48-bit accumulator per data column of the
replica, and the trims in effect when its first slice was struck. -/
structure Vec where
  ctx : Nat
  layer : Nat
  replica : Nat
  twin : Bool := false
  work : Work := { owner := 0, frame := 0, part := 0 }
  seq : Nat := 0
  pair : Nat := 0
  need : Nat := 0
  dst : Nat := 0
  loop : Nat := 0
  acts : List Nat := []
  done : SMap Nat := []
  acc : SMap Int := []
  trims : List (Nat × Nat × Int) := []
deriving DecidableEq, Repr

/-- A panel group's periphery (R87 to R112). `residue` counts residue mismatches of the tick (R608); `probes` the probe
slots of the tick (R128), `outs` the output column and code of each result of the last vector (R99, R102), `buf` the images
fetched into the program buffer with the panel and the source they are for, two at most (R148). -/
structure Group where
  fenced : Bool := false
  spareUsed : Bool := false
  rrReal : Nat := 0
  rrBest : Nat := 0
  residue : Nat := 0
  probes : Nat := 0
  vecs : List Vec := []
  queue : List Req := []
  outs : List (Nat × Nat) := []
  buf : List (Nat × Src × List Byte) := []
deriving DecidableEq, Repr

/-- The panels, their groups and the PNL_ and PGR_ registers. -/
structure PanelUnit where
  panels : SMap Panel := []
  groups : SMap Group := []
  maxpar : BitVec 6 := 32
  hours : Word := 0
  progFail : Byte := 0
  worn : Byte := 0
  spareCnt : Byte := 0
  release : Byte := 0
  pnlSel : BitVec 10 := 0
  ctxSel : BitVec 10 := 0
  layerSelCtx : BitVec 10 := 0
  layerSelLayer : BitVec 10 := 0
deriving DecidableEq, Repr

/-- Settings of the Primer (R146). -/
structure PrmCfg where
  mmt : BitVec 8 := 8
  mmn : BitVec 4 := 3
  rngn : BitVec 4 := 2
  filt : BitVec 3 := 2
  mode : BitVec 2 := 0
  gainMax : BitVec 16 := 0x4800
  gainMin : BitVec 16 := 0x3800
  ofsLim : BitVec 12 := 0x080
  ofsStep : BitVec 8 := 4
  gainStep : BitVec 8 := 0x10
  mmh : BitVec 16 := 0x1000
  probeMax : BitVec 16 := 0x0100
deriving DecidableEq, Repr

/-- The Primer. -/
structure Primer where
  shadow : PrmCfg := {}
  latched : Option PrmCfg := none
  eff : PrmCfg := {}
  markEvent : Bool := false
  routeEvent : Bool := false
  running : Bool := false
  fenced : Bool := false
  selWin : BitVec 2 := 0
  selPanel : BitVec 10 := 0
  ctxSel : BitVec 10 := 0
deriving DecidableEq, Repr

end Sys2Proof.Machine
end

