-- ==== Sys2Proof/Machine/UnitsArith.lean ====
section
/-! DEFINITION. State of the Liner engines, the Warp and Pixel units and Glaze. -/

namespace Sys2Proof.Machine

/-- A tile in progress on an engine (R194): what was charged and in which tick, the entries it will deliver, cycles its load phase took, whether it
computes, and whether its results are to be discarded at its boundary (R61, R231). -/
structure Tile extends TileCand where
  charge : Nat
  tick : Word := 0
  need : Nat := 0
  loaded : Nat := 0
  computing : Bool := false
  dead : Bool := false
deriving DecidableEq, Repr

/-- Where a scratch line was loaded from (R200): a Palette line, bank × 8,192 + line, or a line of the state object of a context's layer. -/
inductive LineSrc where
  | palette (g : Nat)
  | state (ctx layer line : Nat)
deriving DecidableEq, Repr

/-- A scratch line with its CRC-32 line check (R193), and the line it was loaded from. -/
structure ScratchLine where
  data : Line := 0
  crc : Word := 0
  src : Option LineSrc := none
deriving DecidableEq, Repr

/-- A query under way on an engine (R213): running maximum and sum, and the output accumulator, in FP32. -/
structure AttnAcc where
  ctx : Nat
  layer : Nat
  id : Nat
  next : Nat
  max_ : Word
  sum : Word
  acc : List Word
deriving DecidableEq, Repr

/-- A Liner engine (R188 to R234). `scratch` holds the lines of the local scratch, `attn` the queries under way, `bad` the scratch
lines whose check failed in this tick (R200), `outs` the results of the last tile, `waits` the tiles that wait for input, credit or a
swatch (R51, R60, R223). The scratch holds zeros at reset (log 101). -/
structure Engine where
  fenced : Bool := false
  ready : Bool := false
  phase : BitVec 2 := 0
  ctx : BitVec 10 := 0
  loadCyc : Word := 0
  compCyc : Word := 0
  retry : Half := 0
  check : Half := 0
  rrReal : Nat := 0
  rrBest : Nat := 0
  tile : Option Tile := none
  bad : List Nat := []
  outs : List Word := []
  scratch : SMap ScratchLine := []
  attn : List AttnAcc := []
  waits : List TileCand := []
deriving DecidableEq, Repr

/-- A staging area of a streamed layer (R221): the context and layer it holds, which of the context's two areas it is, the weight
bytes asked for and those that have come, and the engines whose load phase has taken their share (R222). -/
structure Stage where
  ctx : Nat
  layer : Nat
  area : Nat := 0
  asked : Nat := 0
  have_ : Nat := 0
  taken : BitVec 16 := 0
deriving DecidableEq, Repr

/-- An entry of the receive buffer of a layer that takes RAW32 parts (R207): column and y′ of up to 64 columns of one input vector of a panel
layer, the credit pair, the work it belongs to, and the loop that it is a step of, counted from 1. -/
structure RawEntry where
  ctx : Nat
  layer : Nat
  seq : Nat
  pair : Nat
  ys : List (Nat × Int)
  work : Work
  loop : Nat := 0
deriving DecidableEq, Repr

/-- The Liner engines and the LIN_ page. `recv` is the receive buffer of R207, `stageNext` the streamed layer that each context's
staging fetches next, by place in pass order (R221). -/
structure Liner where
  engs : SMap Engine := []
  stages : List Stage := []
  stageNext : SMap Nat := []
  recv : List RawEntry := []
  engSel : BitVec 4 := 0
  ctxSel : BitVec 10 := 0
deriving DecidableEq, Repr

/-- A block handed to the classical lane (R258): its task, the path and the tick it was handed in. -/
structure ClassJob where
  ctx : Nat
  frame : Word
  part : Nat
  path : Fallback
  tick : Word
deriving DecidableEq, Repr

/-- A Warp job in progress (R238): whose it is, the results of the gathers made so far, in order, and the cache lines that its next gather waits
for. -/
structure WarpRun where
  ctx : Nat
  work : Work
  inp : WarpIn
  done : List Half := []
  need : List Nat := []
deriving DecidableEq, Repr

/-- The Warp unit and the Pixel unit (R235 to R262). `jobs` are the Warp jobs in progress, `gathers` and `classicGathers` count single gathers, from which the
registers show units of 1,024; `cache` lists the Palette lines, bank × 8,192 + line, that the source cache holds
with their data, oldest first. -/
structure WarpPix where
  wReady : Bool := false
  wFenced : Bool := false
  jobs : List WarpRun := []
  gathers : Nat := 0
  missCyc : Word := 0
  classicGathers : Nat := 0
  cache : List (Nat × Line) := []
  pReady : Bool := false
  pFenced : Bool := false
  pOverrun : Bool := false
  cntRepeat : BitVec 10 := 0
  cntBlend : BitVec 11 := 0
  cntLanczos : BitVec 11 := 0
  ctxSel : BitVec 10 := 0
  lane : List ClassJob := []
deriving DecidableEq, Repr

/-- Settings of Glaze (R296). -/
structure GlzCfg where
  rawcut : BitVec 6 := 0
  drift : BitVec 8 := 32
  histblk : BitVec 4 := 4
  mode : BitVec 2 := 0
deriving DecidableEq, Repr

/-- An entry of the encoder store (R279): lengths, GEN, REF, the mark of R280, the sums of the tick, the tick of its last
block, the ports its table went out on in that tick, and its place in the order of use. -/
structure EncEntry where
  lens : List Nat := []
  gen : Byte := 0
  ref : Half := 0
  marked : Bool := false
  bits : Nat := 0
  bytes : Nat := 0
  begun : Bool := false
  ports : List Nat := []
  used : Nat := 0
deriving DecidableEq, Repr

/-- An entry of the decoder store (R284). -/
structure DecEntry where
  src : Nat
  tensor : Nat
  gen : Byte
  lens : List Nat
  used : Nat
deriving DecidableEq, Repr

/-- A record kept until the receiver acknowledges it (R293), with the port, the stack, PARAM and AUX of its ENTRY message. -/
structure SentRec where
  id : Nat
  port : Nat
  dst : Nat
  param : Nat
  aux : Nat
  bytes : List Byte
deriving DecidableEq, Repr

/-- An entry under way through a compressor lane (R274, R285): the lane of its tensor and link, where it goes, how it is coded, and its bytes that are not
yet coded, of which the lane holds the first block; `begun` whether a block of it has gone out. -/
structure GlzJob where
  lane : Nat
  port : Nat
  dst : Nat
  aux : Nat
  ctx : Nat
  tensor : Nat
  elem : Nat
  gradient : Bool
  begun : Bool := false
  data : List Byte
deriving DecidableEq, Repr

/-- A record in the Weave receive buffer (R289): the expander lane of its tensor and link, its sender and port, the pair it is for, PARAM of its
message, whether a re-send has been asked for, which it then waits for, and whether it is such a second copy (R292). -/
structure GlzIn where
  lane : Nat
  src : Nat
  port : Nat
  pair : Nat
  param : Nat
  bytes : List Byte
  asked : Bool := false
  again : Bool := false
deriving DecidableEq, Repr

/-- Glaze (R263 to R296). `jobs` are the entries in its 8 compressor lanes, oldest first, `inq` the records that its 8 expander lanes and the raw paths
are to take, in the order received (R285, R287). inBytes and outBytes stand behind the KiB counters. -/
structure Glaze where
  shadow : GlzCfg := {}
  latched : Option GlzCfg := none
  eff : GlzCfg := {}
  ready : Bool := false
  fenced : Bool := false
  corruptEvent : Bool := false
  coded : Word := 0
  raw : Word := 0
  corrupt : Word := 0
  inBytes : Nat := 0
  outBytes : Nat := 0
  builds : Word := 0
  tenSel : Half := 0
  clock : Nat := 0
  enc : SMap EncEntry := []
  dec : List DecEntry := []
  sent : List SentRec := []
  nextId : Nat := 0
  jobs : List GlzJob := []
  inq : List GlzIn := []
deriving DecidableEq, Repr

end Sys2Proof.Machine
end

