-- ==== Sys2Proof/Machine/UnitsLink.lean ====
section
/-! DEFINITION. State of the host link, its rings, the urgent lane, and Easel's command and event handling. -/

namespace Sys2Proof.Machine

/-- Training state of a module (R453, HLK_STAT). `training` stands for SBINIT to LINKINIT. -/
inductive ModState where
  | reset
  | training
  | active
  | retrain
  | down
deriving DecidableEq, Repr

/-- A UCIe module (R453): its state, the rate trained, whether VDDQ powers it (R696), whether a turn of HLK_COMMIT waits
for it (R455), and whether a retrain is due when it may leave ACTIVE. -/
structure Module where
  st : ModState := .reset
  rate : BitVec 2 := 0
  vddq : Bool := true
  turn : Bool := false
  again : Bool := false
deriving DecidableEq, Repr

/-- Who issued a host frame (R461). -/
inductive Issuer where
  | gallery (obj idx : Nat)
  | mover (queue id off : Nat)
  | ringDesc (r : Nat)
  | ringHdr (r : Nat)
  | completion (ctx : Nat)
  | control
deriving DecidableEq, Repr

/-- Frame kinds that the stack sends (R457); reads carry the identity that the MRDC answers. -/
inductive TxKind where
  | mrd (id addr len : Nat)
  | mwr (addr : Nat) (data : List Byte)
  | crdc (status : BitVec 3) (busy : Bool) (data : List Byte)
  | cwrResp (status : BitVec 3) (busy : Bool)
deriving DecidableEq, Repr

/-- A frame of the stack (R459, R460): sequence number, issuer, whether it has been sent and so lies in a replay buffer, the module that
carries it, replays on HL0 and on HL1. -/
structure TxFrame where
  seq : Half
  kind : TxKind
  by_ : Issuer
  sent : Bool := false
  on1 : Bool := false
  n0 : Nat := 0
  n1 : Nat := 0
deriving DecidableEq, Repr

/-- A read of host memory outstanding (R457). -/
structure HostRead where
  id : Nat
  by_ : Issuer
deriving DecidableEq, Repr

/-- HLK_CFG (R487). -/
structure HlkCfg where
  moden : BitVec 2 := 3
  maxrate : BitVec 2 := 3
deriving DecidableEq, Repr

/-- Sequence numbers and replay buffer of one packet-layer link (R457 to R459, R570). -/
structure LinkLayer where
  txNext : Half := 0
  rxNext : Half := 0
  naks : Nat := 0
  acks : Nat := 0
deriving DecidableEq, Repr

/-- The host link (R452 to R487). `side` lists the sideband messages sent (R456): WAKE_ACK by module. -/
structure HostLink where
  hl0 : Module := {}
  hl1 : Module := {}
  seqs : LinkLayer := {}
  tx : List TxFrame := []
  reads : List HostRead := []
  readId : Nat := 0
  shadow : HlkCfg := {}
  eff : HlkCfg := {}
  rdtLo : BitVec 20 := 0
  rdtHi : Word := 0
  urgPending : Half := 0
  evtStat : BitVec 5 := 0
  evtEn : BitVec 5 := 0x1F
  errCrc : Word := 0
  errReplay : Word := 0
  errUnrec : Word := 0
  retrains0 : Half := 0
  retrains1 : Half := 0
  dbIgnored : Word := 0
  urgIgnored : Word := 0
  ringSel : BitVec 15 := 0
  side : List Nat := []
deriving DecidableEq, Repr

/-- A ring (R465 to R475). `rd` is the index of the next header slot to read ahead, `reading` a header read that is
outstanding, `enabling` an ENABLE whose descriptor read is outstanding, `heldDb` the doorbells held behind it. -/
structure Ring where
  enabled : Bool := false
  dir : Bool := false
  cls : BitVec 3 := 0
  stopped : Bool := false
  phase : Bool := false
  log2 : Nat := 0
  base : Nat := 0
  cq : Nat := 0
  cqOk : Bool := false
  evt : Bool := false
  head : Nat := 0
  tail : Nat := 0
  rd : Nat := 0
  reading : Bool := false
  enabling : Bool := false
  heldDb : List (Nat × Nat) := []
  passed : List (Nat × Nat × Bool) := []
deriving DecidableEq, Repr

/-- A header not yet taken (R473): its ring and the index of its slot; on a worker a routed one with its payload (R578). -/
structure Held where
  ring : Nat
  idx : Nat
  hdr : Line
  payload : Option (List Byte) := none
deriving DecidableEq, Repr

/-- A completion or record that waits for room (R472, R528): its completion ring, its slot without PHASE, its payload. -/
structure Waiting where
  ring : Nat
  slot : Line
  payload : List Byte := []
deriving DecidableEq, Repr

/-- A command taken that has not posted its last completion (R529, R522). -/
structure Live where
  cmd : Cmd
deriving DecidableEq, Repr

/-- Easel's command handling: headers held, completions and event records that wait, commands in progress. `taken`
counts headers taken (every 16th is the oldest held, R481), `nextSeq` numbers the commands taken, `dispatch` lists the dispatch banks (R548), `reinstall` those whose entries are being
reinstalled elsewhere (R621). -/
structure Easel where
  held : List Held := []
  rings : SMap Ring := []
  rrRing : SMap Nat := []
  taken : Nat := 0
  live : List Live := []
  waiting : List Waiting := []
  records : List Waiting := []
  dropped : Word := 0
  tasks : List Task := []
  ctxs : SMap Ctx := []
  wholeFence : Bool := false
  nextSeq : Nat := 1
  dispatch : List Nat := []
  reinstall : List Nat := []
  urgentPosts : List (Nat × Line) := []
  running : Bool := false
deriving DecidableEq, Repr

end Sys2Proof.Machine
end

