-- ==== Sys2Proof/Machine/UnitsStore.lean ====
section
/-! DEFINITION. State of the Palette, the Window, the Swatch Map and Migration engine, the Plan chest and the Mover. -/

namespace Sys2Proof.Machine

/-- A stored Palette line: 512 data bits and 16 check bits for each of its 8 words (R297). -/
structure PLine where
  data : Line
  check : BitVec 128
deriving DecidableEq, Repr

/-- The RWC fields of PAL_BANK_CTL (R339). -/
structure BankCtl where
  urg : Bool := false
  pin : Bool := false
  testEn : Bool := true
  state : BitVec 2 := 0
  mode : BitVec 2 := 1
deriving DecidableEq, Repr

/-- A Palette bank. An unlisted line is zeros with valid check bits (R309). `clear`
a clear of R309 in progress, `convWait` and `conv` the mode a conversion waits for or writes (R320), `lost` the lines that failed twice in this
tick and are to be replaced (R317), `bad` those that have been replaced since (R319), `chunk` the next chunk of the tester (R324), `waiting` the
accesses that wait for a handover, a ramp or a clear (R302, R306, R309), in the order made. -/
structure Bank where
  owner : BitVec 8 := 0
  set : Half := 0
  busy : Bool := false
  shadow : BankCtl := {}
  ctl : BankCtl := {}
  clear : Bool := false
  convWait : Option (BitVec 2) := none
  conv : Option (BitVec 2) := none
  fenced : Bool := false
  check : BitVec 8 := 0
  corr : BitVec 12 := 0
  lines : SMap PLine := []
  lost : List Nat := []
  bad : List Nat := []
  chunk : Nat := 0
  waiting : List PalReq := []
deriving DecidableEq, Repr

/-- The background tester (R322 to R326). `turn` is the bank whose turn it is, `hold` the bank, first line and shadow of
the chunk in progress. -/
structure Tester where
  gap : Half := 64
  idle : BitVec 12 := 0x400
  exclUrg : Bool := false
  run : Bool := false
  fail : Bool := false
  bank : BitVec 8 := 0
  line : BitVec 13 := 0
  yields : Word := 0
  turn : Nat := 0
  hold : Option (Nat × Nat × List PLine) := none
deriving DecidableEq, Repr

/-- The raw test registers (R321). -/
structure PalTest where
  bank : BitVec 8 := 0
  word : BitVec 16 := 0
  lo : Word := 0
  hi : Word := 0
  check : BitVec 16 := 0
  done : Bool := false
  find : BitVec 3 := 0
  syn : BitVec 14 := 0
  corrLo : Word := 0
  corrHi : Word := 0
deriving DecidableEq, Repr

/-- A line that an optional step of a loop has overwritten (R219): the context, the loop by index, the line, bank × 8,192 + line, and what it held. -/
structure SavedLine where
  ctx : Nat
  loop : Nat
  line : Nat
  was : PLine
deriving DecidableEq, Repr

/-- The Palette. `nonown` and `dark` are the counters by unit code; `urgent` whether Easel's urgent handler is active
(R322), `answers` what the requests last served received, in the order served: unit, line, data and status, `saved` the lines that the optional
step under way of a loop has overwritten (R219). -/
structure Palette where
  banks : SMap Bank := []
  nonown : SMap Word := []
  dark : SMap Word := []
  unitSel : BitVec 8 := 0
  tester : Tester := {}
  test : PalTest := {}
  urgent : Bool := false
  last : Line := 0
  lastStat : BitVec 3 := 0
  answers : List (Nat × Nat × Line × BitVec 3) := []
  saved : List SavedLine := []
deriving DecidableEq, Repr

/-- A Window word with its check bits (R328). -/
structure WWord where
  data : DWord := 0
  check : Half := 0
deriving DecidableEq, Repr

/-- The Window (R327 to R336). `was` is the mode before the last commit (R336); power: 0 OFF, 1 RETAIN, 2 ON. -/
structure Window where
  words : SMap WWord := []
  power : BitVec 2 := 0
  shadow : Bool := false
  compat : Bool := false
  was : Bool := false
  busy : Bool := false
  aWarn : Bool := false
  bWarn : Bool := false
  collA : Word := 0
  collB : Word := 0
  uncorr : Half := 0
  corr : Half := 0
  loads : List (DWord × Bool) := []
deriving DecidableEq, Repr

/-- An object record (R348). `size` counts swatches, `ref` is its reference count, `pois` that its POISON flag is set,
`fetched` how many swatches the refetch has verified, `applied` that R370 has applied, `bad` the swatches poisoned since POISON was set. -/
structure Obj where
  home : BitVec 3
  allow : BitVec 5
  dclass : BitVec 2
  pin : Bool
  ro : Bool
  size : Nat
  base : DWord
  master : DWord
  ref : Nat := 0
  pois : Bool := false
  applied : Bool := false
  fetched : Nat := 0
  bad : List Nat := []
deriving DecidableEq, Repr

/-- States of a swatch (R355). -/
inductive SwState where
  | resident
  | promoting
  | evicting
  | poisoned
deriving DecidableEq, Repr

/-- A swatch-table entry (R355). `homeEnt` marks a home entry (R354); `place` that it holds its slot; `wb` a write-back in flight, `wbRead` that the
write-back still waits for a read of the slot, `rewrite` a write since it began (R364); `writes` writes that wait, `reads` readers that wait, each
a context and a line; `fresh` data and tag that an OBJ_WRITE stored while the swatch was moving; `tries` reads that failed, `asked` that its refetch is
queued, `homeFail` that the read which poisoned it read the home (R371, R373); `restore` a copy read again after a CHECK (R317); `whole` a read of
the whole slot in another stack under way; `holders` the units whose swatch buffers may hold its translation (R357, R358). -/
structure Entry where
  obj : Nat
  idx : Nat
  st : SwState
  t2 : Bool := false
  dirty : Bool := false
  ppin : Bool := false
  use : Bool := false
  claim : Nat := 0
  port : Nat := 0
  pos : Nat := 0
  bank : Nat := 0
  slot : Nat := 0
  homeEnt : Bool := false
  place : Bool := true
  wb : Bool := false
  rewrite : Bool := false
  writes : List (Nat × Line) := []
  reads : List (Nat × Nat) := []
  fresh : Option (List Byte × List Byte) := none
  tries : Nat := 0
  asked : Bool := false
  homeFail : Bool := false
  restore : Bool := false
  whole : Bool := false
  wbRead : Bool := false
  holders : List Nat := []
deriving DecidableEq, Repr

/-- Kinds of move, in the order of R359. -/
inductive MoveKind where
  | refetch
  | demand
  | placement
  | prefetch
  | homeMove
  | evict
deriving DecidableEq, Repr

/-- A move queued or in flight (R359), or a read served from the home tier, which is no move. `cls` is the DCLASS, `again` that the read was reissued
(R367), `tries` reads that failed (R375), `readers` the context and line of each reader served from the home tier, `ctx` the context on whose behalf a
demand promotion is made (R366), 1,024 none. -/
structure Move where
  kind : MoveKind
  obj : Nat
  idx : Nat
  cls : Nat := 0
  again : Bool := false
  tries : Nat := 0
  readers : List (Nat × Nat) := []
  ctx : Nat := 1024
deriving DecidableEq, Repr

/-- An OBJ_DEFINE or OBJ_PLACE that waits: its command, object, swatches still to move from the old home, whether copies are
to be made for PIN, and swatches whose copies are still to come (R350, R351, R354). -/
structure Placing where
  cmd : Cmd
  obj : Nat
  left : List Nat := []
  oldHome : BitVec 3 := 0
  oldBase : DWord := 0
  pins : Bool := false
  pinLeft : List Nat := []
deriving DecidableEq, Repr

/-- What has arrived of a swatch read from a neighbour's Plan chest: its data, or its tag (R342, R596). -/
structure TierPart where
  obj : Nat
  idx : Nat
  tag : Bool
  good : Bool
  data : List Byte
deriving DecidableEq, Repr

/-- The Swatch Map and the Migration engine (R340 to R379). `table` has key 4 × set + way; an entry that waits for its way
has 2^18 more. `pool` lists own pool banks, `pool2` lent ones by port, position and bank, `records` the record banks by
range, `last1` and `last2` the slots of the last victims, `homeWr` line writes that wait for a read of the home swatch,
`acks` the OBJ_WRITEs that wait for TIER_WRACKs: command, object, swatches, DETAIL; `direct` the reads from home tiers for readers that no move serves,
`parts` what has come of swatches in T5, `late` first answers from T5 that may still come after a reissue (R367), each swatch and whether it is the tag,
`leaving` the pool banks that Easel takes back (R356), `lent5` the GiB of Plan chest that a stack lends here, by its address (R595, log 12). -/
structure Swatches where
  objs : SMap Obj := []
  table : SMap Entry := []
  pool : List Nat := []
  pool2 : List (Nat × Nat × Nat) := []
  records : SMap Nat := []
  mapBanks : List Nat := []
  last1 : Nat := 0
  last2 : Nat := 0
  queue : List Move := []
  flight : List Move := []
  placing : List Placing := []
  homeWr : List (Nat × Nat × Nat × Line) := []
  acks : List (Cmd × Nat × List Nat × Nat) := []
  direct : List Move := []
  parts : List TierPart := []
  late : List (Nat × Nat × Bool) := []
  leaving : List Nat := []
  lent5 : SMap Nat := []
  swReady : Bool := false
  swFenced : Bool := false
  migReady : Bool := false
  migFenced : Bool := false
  hits : Word := 0
  misses : Word := 0
  unmapped : Word := 0
  objSel : BitVec 20 := 0
  shTmo : BitVec 8 := 50
  shMax : BitVec 7 := 64
  tmo : BitVec 8 := 50
  maxflight : BitVec 7 := 64
  stuck : Bool := false
  unpoisonEvent : Bool := false
  poisonEvent : Bool := false
  promotes : Word := 0
  evicts : Word := 0
  writebacks : Word := 0
  noslot : Word := 0
  races : Word := 0
  poisons : Word := 0
  refetches : Word := 0
  timeouts : Word := 0
deriving DecidableEq, Repr

/-- Settings of the Chest controller (R414). -/
structure ChsCfg where
  scanrate : BitVec 8 := 16
  rdlimit : BitVec 8 := 10
  refreshT : BitVec 6 := 24
  wrbusy : BitVec 6 := 8
  xipEn : Bool := false
  service : Bool := false
deriving DecidableEq, Repr

/-- What is known of one physical block, plane × 2,560 + block: erases, reads since its last erase, pages programmed,
whether it is bad and whether a raw command programmed it (R394, R411). -/
structure BlockInfo where
  erases : Nat := 0
  reads : Nat := 0
  pages : List Nat := []
  bad : Bool := false
  rawUsed : Bool := false
deriving DecidableEq, Repr

/-- A unit held in the write buffer until its program verifies (R389, R398); `by_` numbers the command that waits for it, 0
none, from 2^40 a TIER_WRACK. -/
structure ChestWr where
  sys : Bool
  unit : Nat
  data : List Byte
  ctx : Nat
  whole : Bool
  failed : Bool := false
  by_ : Nat := 0
deriving DecidableEq, Repr

/-- What of a Plan chest survives a reset (R389, R712, R660): bytes of both spaces and of the slots, the place of each
map unit, lost units, blocks, bad-block tables and the spare pool. Unit keys: user units 0 to 2^20 − 1, system units
from 2^20. `erasedA` lists the
blocks of slot A erased since the part left the factory (R663), `factory` the factory bad-block table (R397), `own` the system units written
since then with the write sequence number, `seq` the last write sequence number and `meta_` the unit,
the place in it and the sequence number that each programmed page's metadata names, by plane × 163,840 + block × 64 + page (R381). `raw` holds what the pages
hold that hold no unit now. -/
structure Flash where
  user : SMap Byte := []
  sys : SMap Byte := []
  slotA : SMap Byte := []
  slotB : SMap Byte := []
  erasedA : List Nat := []
  places : SMap (Nat × Nat × Nat) := []
  lost : List Nat := []
  blocks : SMap BlockInfo := []
  raw : SMap (List Byte) := []
  grown : Nat := 0
  spare : Nat := 0
  free : Nat := 0
  seeded : Bool := false
  factory : List Nat := []
  own : SMap Nat := []
  seq : Nat := 0
  meta_ : SMap (Nat × Nat × Nat) := []
  journal : Nat := 0
  checkpoints : Nat := 0
  order : List Nat := []
deriving DecidableEq, Repr

/-- The Chest controller (R380 to R414). `buffer` holds units until their programs verify, `reloc` the block sets to relocate
with the kind (0 read disturb, 1 corrected bits, 2 a block gone bad), `scan` the page scanned last, `busy` the planes that
erase, `suspended` those suspended, `waits` the commands that complete once their units are durable, with DETAIL, `wracks` the TIER_WRACKs owed
once theirs are: mark of the writes, stack, PARAM, AUX. Easel's records in system space survive a reset as the flash does (R386): `recs` the boot records by
index, `panelRec` and `trimRec` how often PANEL and TRIMS have been written, each with the write sequence number that stood then. -/
structure Chest where
  flash : Flash := {}
  shadow : ChsCfg := {}
  eff : ChsCfg := {}
  ready : Bool := false
  fenced : Bool := false
  lowSpare : Bool := false
  readonly_ : Bool := false
  uncorrEvent : Bool := false
  corr : Word := 0
  uncorr : Word := 0
  retries : Word := 0
  relDisturb : Half := 0
  relRefresh : Half := 0
  wpRefused : Word := 0
  maxlat : Half := 0
  suspends : Half := 0
  buffer : List ChestWr := []
  waits : List (Cmd × Nat) := []
  wracks : List (Nat × Nat × Nat × Nat) := []
  wrackNo : Nat := 0
  recs : SMap (Nat × Line) := []
  panelRec : Nat × Nat := (0, 0)
  trimRec : Nat × Nat := (0, 0)
  reloc : List (Nat × Nat) := []
  scan : Nat := 0
  busy : List Nat := []
  suspended : List Nat := []
  rawPlane : BitVec 5 := 0
  rawBlock : BitVec 12 := 0
  rawPage : BitVec 6 := 0
  rawDone : Bool := false
  rawStatus : BitVec 3 := 0
  rawMax : BitVec 6 := 0
  rawBlank : Bool := false
  rawBuf : SMap Byte := []
  banks : List Nat := []
deriving DecidableEq, Repr

/-- MOV_Q_LIMIT (R451). -/
structure QLimit where
  rate : BitVec 12 := 0
  outmax : BitVec 7 := 16
deriving DecidableEq, Repr

/-- What a transfer moves: payload bytes of a task into the Pixel unit, a completion block out, part of a stream block,
or a prefetch promotion (R435). -/
inductive XferKind where
  | fetch (ctx : Nat) (frame : Word) (part off : Nat)
  | post (ctx : Nat) (frame : Word) (part blk : Nat)
  | stream (src dst : DWord) (sp dp : Nat) (sagent dagent : Nat) (blk : Nat)
  | pref (obj idx : Nat)
deriving DecidableEq, Repr

/-- An outstanding transfer (R418): data arrived so far as (offset, bytes), the sequence number of its last MWR, whether a
cancel discards it (R437), and the context, tick and generation it carries (R439). -/
structure Xfer where
  id : Nat
  kind : XferKind
  len : Nat
  ctx : Nat
  tick : Word
  gen : Byte
  got : List (Nat × List Byte) := []
  upto : Option Half := none
  dropped : Bool := false
deriving DecidableEq, Repr

/-- A run of a stream descriptor (R440): the copy made at the arm, its blocks, the block and byte to issue next, the
blocks handed over, and whether the semaphores of its next entry are taken (R430). -/
structure Run where
  desc : Line
  idx : Nat
  gen : Byte
  ctx : Nat
  blocks : List (List Byte)
  blk : Nat := 0
  off : Nat := 0
  handed : Nat := 0
  took : Bool := false
deriving DecidableEq, Repr

/-- Work that waits on a ring or command queue: a kind, its length left and where it stands. -/
structure MovJob where
  kind : XferKind
  len : Nat
  ctx : Nat
  tick : Word
deriving DecidableEq, Repr

/-- A Mover queue with its channel (R415). `bucket` counts twelfths of a byte (R419), `gens` the GEN of each descriptor, `extra`
the surplus streams it carries and `surplus` those still to run in this pass (R416), `moved` that its work has moved (R613). -/
structure Queue where
  bank : BitVec 8 := 0
  line : BitVec 13 := 0
  log2 : BitVec 4 := 4
  good : Option (Nat × Nat × Nat) := none
  stale : Bool := false
  shadow : QLimit := {}
  latched : Option QLimit := none
  eff : QLimit := {}
  bucket : Nat := 196608
  cancelling : Bool := false
  fenced : Bool := false
  slot : Option (Nat × Line) := none
  gen : Byte := 0
  head : BitVec 10 := 0
  run : Option Run := none
  jobs : List MovJob := []
  out : List Xfer := []
  rearms : Half := 0
  lost : Half := 0
  bytes : Nat := 0
  owner : Option Nat := none
  gens : SMap Byte := []
  extra : Nat := 0
  surplus : List Nat := []
  moved : Bool := false
deriving DecidableEq, Repr

/-- The Mover (R415 to R451). `semInit` the values Easel set at CTX_BIND (R437); `ports` the entries delivered to a
PORT that no hand-over has passed on: queue, unit code, bytes (R437). `descBank` is the bank that holds the rings of stream
descriptors (R420). -/
structure Mover where
  queues : SMap Queue := []
  sems : SMap Half := []
  semInit : SMap Half := []
  ready : Bool := false
  fenced : Bool := false
  faultEvent : Bool := false
  semSat : Bool := false
  pairStale : Bool := false
  qSel : BitVec 6 := 0
  semSel : BitVec 9 := 0
  ctxSel : BitVec 10 := 0
  nextId : Nat := 0
  rrReal : Nat := 0
  rrBest : Nat := 0
  ports : List (Nat × Nat × List Byte) := []
  descBank : Option Nat := none
deriving DecidableEq, Repr

end Sys2Proof.Machine
end

