-- ==== Sys2Proof/Machine/UnitsSys.lean ====
section
/-! DEFINITION. State of the fabric, power, boot, security, debug and the pins. -/

namespace Sys2Proof.Machine

/-- A Weave frame sent (R571, R572). -/
structure WFrame where
  seq : Half
  kind : Byte
  vc : Nat
  dst : Nat
  src : Nat
  param : Word
  aux : Byte
  data : List Byte
  n : Nat := 0
deriving DecidableEq, Repr

/-- A fabric port (R569, R570). `wait` lists the frames not yet sent for want of credit, `credit` the lines of credit
held per virtual channel (R573), `back` the lines of credit returned to the other end in ACK frames, `turns` counts frames sent for the turn of VC2. -/
structure Port where
  mod : Module := {}
  seqs : LinkLayer := {}
  tx : List WFrame := []
  wait : List WFrame := []
  credit : List Nat := [4, 1024, 2048, 4096, 2048]
  back : List Nat := [0, 0, 0, 0, 0]
  turns : Nat := 0
  errCrc : Word := 0
  errReplay : Word := 0
  errUnrec : Word := 0
  stomped : Word := 0
  enumPos : Option Nat := none
deriving DecidableEq, Repr

/-- A broadcast on the manager (R585 to R591): its command, swatches, workers that accepted, answered, acknowledged up
to, failed, the coded shards kept, the code lengths of its table, and bytes of swatches whose home lies beyond the stack. -/
structure Bcast where
  cmd : Cmd
  obj : Nat
  off : Nat
  count : Nat
  named : List Nat
  waiting : List Nat
  accepted : List Nat := []
  acked : SMap Nat := []
  done : List Nat := []
  failed : List Nat := []
  next : Nat := 0
  shards : List (Nat × List Byte) := []
  serial : Nat := 0
  elem : Nat := 0
  remote : List Byte := []
  lens : List Nat := []
  gen : Nat := 0
  ended : Bool := false
deriving DecidableEq, Repr

/-- A broadcast on a worker (R587 to R590): shards held, tries per shard, shards given up. -/
structure BcastIn where
  obj : Nat
  off : Nat
  count : Nat
  onlyPoisoned : Bool
  held : List Nat := []
  tries : SMap Nat := []
  gaveUp : List Nat := []
  ended : Bool := false
deriving DecidableEq, Repr

/-- A FAB_JOIN in progress (R576): the ports that still enumerate, each with the position asked. -/
structure Joining where
  cmd : Cmd
  left : List (Nat × Nat)
deriving DecidableEq, Repr

/-- Lending (R595 to R597): shadows and values in effect, banks now lent, and those that wait to return. -/
structure FabLend where
  shTo : BitVec 5 := 0
  shBanks : BitVec 8 := 0
  shChest : BitVec 5 := 0
  to_ : BitVec 5 := 0
  banks : BitVec 8 := 0
  chest : BitVec 5 := 0
  lent : List Nat := []
deriving DecidableEq, Repr

/-- The remote access registers (R582). -/
structure FabRmt where
  stack : BitVec 5 := 0
  off : BitVec 24 := 0
  data : Word := 0
  done : Bool := false
  busy : Bool := false
  status : BitVec 3 := 0
  outstanding : Bool := false
deriving DecidableEq, Repr

/-- An entry in the Fabric unit's store (R593): the pair it is for, its bytes, and whether it is complete. -/
structure StoreEntry where
  pair : Nat
  data : List Byte
  whole : Bool := false
deriving DecidableEq, Repr

/-- The Fabric unit (R564 to R604). `entries` is its store of received entries, oldest first. -/
structure Fabric where
  strap : BitVec 4 := 0
  selfAddr : Nat := 0
  ready : Bool := false
  fenced : Bool := false
  mismatch : Bool := false
  uplost : Bool := false
  joinedSelf : Bool := false
  shTfwd : Bool := false
  shRate : BitVec 2 := 3
  tfwd : Bool := false
  rate : BitVec 2 := 3
  joined : Half := 0
  spares : Half := 0
  mask : Half := 0
  dropped : Word := 0
  portSel : BitVec 2 := 0
  ports : SMap Port := []
  routes : SMap Word := []
  chanSel : BitVec 8 := 0
  chans : SMap Word := []
  lend : FabLend := {}
  rmt : FabRmt := {}
  shards : Word := 0
  retx : Word := 0
  nacks : Word := 0
  incomplete : Word := 0
  joining : Option Joining := none
  bcast : Option Bcast := none
  bcastIn : Option BcastIn := none
  serial : Nat := 0
  entries : List StoreEntry := []
  routed : List (Nat × Cmd) := []
deriving DecidableEq, Repr

/-- Power management (R625 to R646). mode: 0 ACTIVE, 1 HOLD, 2 DOZE, 3 REST, 4 OFF; `asleep` whether WAIT has been
executed, `leaving` the sources of an exit in progress, `sideLevel` the request of the sideband WAKE message, `wakeRecord` a record
WAKE to be posted; `entering` a POWER command under way. -/
structure Pmu where
  mode : BitVec 3 := 0
  cap : BitVec 7 := 0
  next : BitVec 7 := 0
  lvl : BitVec 3 := 0
  en : BitVec 3 := 0
  timer : Word := 0
  lastSrc : BitVec 3 := 0
  lastState : BitVec 3 := 0
  overFlag : Bool := false
  alert : Bool := false
  immediate : Bool := false
  ready : Bool := false
  pmax : Half := 0
  plast : Half := 0
  est : Half := 950
  scale : BitVec 7 := 64
  coefS : Half := 2000
  coefC : Half := 140
  coefB : Half := 10
  wakes : Word := 0
  overcap : Word := 0
  asleep : Bool := false
  leaving : Option (BitVec 3) := none
  wakeRecord : Option Nat := none
  sideLevel : Bool := false
  entering : Option (Nat × Cmd) := none
deriving DecidableEq, Repr

/-- The boot record in force (R662, R663), less the VERSIONs of the slots' images, which are those of the slots' own bytes. States: 0 EMPTY,
1 STAGED, 2 VALID, 3 FAILED. -/
structure BootRec where
  seq : Nat := 0
  slotB : Bool := false
  trial : Bool := false
  stA : BitVec 2 := 2
  stB : BitVec 2 := 0
  kind : BitVec 2 := 2
deriving DecidableEq, Repr

/-- What a part keeps in the Plan chest's records over every reset besides its bytes (R163, R183, R618, R662, R672):
the boot record, panels' records, saved trims, the fence record, hours, fuse changes. -/
structure NonVol where
  rec_ : Option BootRec := some {}
  panels : SMap Panel := []
  fences : List (Nat × Nat) := []
  careful : List Nat := []
  hours : Nat := 0
  svn : Option (BitVec 6) := none
  subst : SMap (BitVec 5) := []
deriving DecidableEq, Repr

/-- Start-up, firmware and security (R647 to R682). phase as in EAS_BOOT.PHASE; `held` whether the part is held in cold
reset; `settle` an activation that waits (R667): 0 none, 1 verifying, 2 settling, 3 swap due; `switch` that helpers
change microcode at the next edge (R669); `wearLoaded` that the panel record has been applied (R187). -/
structure Boot where
  phase : BitVec 4 := 0
  held : Bool := true
  error : Byte := 0
  fallback : Bool := false
  confirmed : Bool := false
  trial : Bool := false
  slotB : Bool := false
  resets : BitVec 24 := 0
  cause : BitVec 3 := 0
  fwver : Word := 0
  left : BitVec 7 := 0
  repDone : Half := 0
  repQueued : Half := 0
  wdogRun : Bool := false
  wdogKicks : Nat := 0
  nv : NonVol := {}
  fusesValid : Bool := false
  lock : Bool := false
  svn : BitVec 6 := 0
  keyrev : BitVec 4 := 0
  serial : DWord := 0
  grade : BitVec 4 := 0
  ifmaj : Byte := 0
  ifmin : Byte := 0
  secReady : Bool := false
  secFenced : Bool := false
  keyReady : Bool := false
  attests : Word := 0
  settle : Nat := 0
  settleCmd : Option Cmd := none
  switch : Bool := false
  newDigest : Bool := false
  digestA : Line := 0
  digestB : Line := 0
  wearLoaded : Bool := false
  stageOpen : Bool := false
  recErased : Bool := false
  recGo : Bool := false
  attWait : List (Cmd × List Byte) := []
deriving DecidableEq, Repr

/-- Debug registers and the test access port (R679, R711): state of the IEEE 1149.1 machine and its instruction, none being IDCODE
as Test-Logic-Reset selects it. -/
structure Debug where
  scratch0 : Word := 0
  scratch1 : Word := 0
  tap : BitVec 4 := 15
  ir : Option (BitVec 4) := none
  shift : BitVec 32 := 0
  bscan : Bool := false
deriving DecidableEq, Repr

/-- Pins, protection and the always-on timebase (R165, R622, R623, R686, R698). A bump whose name ends in _N is active-low (R11): at reset RESET_N is
low, asserted, and the other levels are the model's choice (DESIGN CHOICE, log 2). `aonHours` counts powered hours, `hoursLoaded` that those
of the Plan chest are in it, `gains` the allowance gains given for them. -/
structure Pins where
  resetN : Bool := false
  pwrGood : Bool := true
  flWp : Bool := true
  straps : BitVec 4 := 8
  wake : Bool := false
  tickFwd : Nat := 0
  thermTrip : Bool := false
  refLost : Bool := false
  aonHours : Nat := 0
  hoursLoaded : Bool := false
  gains : Nat := 0
deriving DecidableEq, Repr

end Sys2Proof.Machine
end

