-- ==== Sys2Proof/Machine/State.lean ====
section
/-! DEFINITION. The block's state, why a step stops, and the state after a cold reset (R717). -/

namespace Sys2Proof.Machine

/-- The whole block. `pending` is the queue of rows, first in, first out; `freeCtr` counts free values taken (log 1). -/
structure State where
  pending : List Instr
  freeCtr : Nat
  tick : TickUnit
  easel : Easel
  link : HostLink
  panels : PanelUnit
  primer : Primer
  liner : Liner
  wp : WarpPix
  glaze : Glaze
  pal : Palette
  win : Window
  sw : Swatches
  chest : Chest
  mover : Mover
  fab : Fabric
  pmu : Pmu
  boot : Boot
  dbg : Debug
  pins : Pins
deriving DecidableEq, Repr

/-- Why the block stops with a fault. -/
inductive Fault where
  /-- R690: the part left DOZE or REST with VDD_CORE below its ACTIVE range, and its behaviour is unspecified until a
  cold reset. Raised by WAKE_BUMP, WAKE and WAKE_TIMER. Safe: nothing is claimed of the hardware from there on. -/
  | coreBelowActive
deriving DecidableEq, Repr

/-- Why a step has no meaning. -/
inductive Refusal where
  /-- The row is not modelled. Raised by no meaning. Safe. -/
  | notModelled (mnemonic : String)
deriving DecidableEq, Repr

/-- The block held in cold reset: every field at its Reset column (R717), every value the manual leaves open as the
assumption log names it. -/
def State.reset : State where
  pending := []
  freeCtr := 0
  tick := {}
  easel := {}
  link := {}
  panels := {}
  primer := {}
  liner := {}
  wp := {}
  glaze := {}
  pal := {}
  win := {}
  sw := {}
  chest := {}
  mover := {}
  fab := {}
  pmu := {}
  boot := {}
  dbg := {}
  pins := {}

end Sys2Proof.Machine
end

