-- ==== Sys2Proof/Machine/Ops.lean ====
section
/-! DEFINITION. The named operations that every meaning is made of: access to each unit, clamps (R497 to R500), frames of
the host link (R457) and of the fabric (R571), rings (R468), completions (R470, R492) and event records (R526). -/

namespace Sys2Proof.Machine

/-- Changes freeCtr and nothing else. -/
def State.onFreeCtr (f : Nat → Nat) (s : State) : State := { s with freeCtr := f s.freeCtr }

/-- Changes tick and nothing else. -/
def State.onTick (f : TickUnit → TickUnit) (s : State) : State := { s with tick := f s.tick }

/-- Changes easel and nothing else. -/
def State.onEasel (f : Easel → Easel) (s : State) : State := { s with easel := f s.easel }

/-- Changes link and nothing else. -/
def State.onLink (f : HostLink → HostLink) (s : State) : State := { s with link := f s.link }

/-- Changes panels and nothing else. -/
def State.onPanels (f : PanelUnit → PanelUnit) (s : State) : State := { s with panels := f s.panels }

/-- Changes primer and nothing else. -/
def State.onPrimer (f : Primer → Primer) (s : State) : State := { s with primer := f s.primer }

/-- Changes liner and nothing else. -/
def State.onLiner (f : Liner → Liner) (s : State) : State := { s with liner := f s.liner }

/-- Changes wp and nothing else. -/
def State.onWp (f : WarpPix → WarpPix) (s : State) : State := { s with wp := f s.wp }

/-- Changes glaze and nothing else. -/
def State.onGlaze (f : Glaze → Glaze) (s : State) : State := { s with glaze := f s.glaze }

/-- Changes pal and nothing else. -/
def State.onPal (f : Palette → Palette) (s : State) : State := { s with pal := f s.pal }

/-- Changes win and nothing else. -/
def State.onWin (f : Window → Window) (s : State) : State := { s with win := f s.win }

/-- Changes sw and nothing else. -/
def State.onSw (f : Swatches → Swatches) (s : State) : State := { s with sw := f s.sw }

/-- Changes chest and nothing else. -/
def State.onChest (f : Chest → Chest) (s : State) : State := { s with chest := f s.chest }

/-- Changes mover and nothing else. -/
def State.onMover (f : Mover → Mover) (s : State) : State := { s with mover := f s.mover }

/-- Changes fab and nothing else. -/
def State.onFab (f : Fabric → Fabric) (s : State) : State := { s with fab := f s.fab }

/-- Changes pmu and nothing else. -/
def State.onPmu (f : Pmu → Pmu) (s : State) : State := { s with pmu := f s.pmu }

/-- Changes boot and nothing else. -/
def State.onBoot (f : Boot → Boot) (s : State) : State := { s with boot := f s.boot }

/-- Changes dbg and nothing else. -/
def State.onDbg (f : Debug → Debug) (s : State) : State := { s with dbg := f s.dbg }

/-- Changes pins and nothing else. -/
def State.onPins (f : Pins → Pins) (s : State) : State := { s with pins := f s.pins }

/-- Applies an operation where a condition holds, and changes nothing where it does not: a row that cannot come about
in the state has no effect (log 10). -/
def onlyIf (b : Bool) (f : State → State) (s : State) : State := if b then f s else s

/-- Applies an operation for each element of a list in order. -/
def each {α : Type} (xs : List α) (f : α → State → State) (s : State) : State := xs.foldl (fun t x => f x t) s

/-- The next free bit (R25, R633): the opaque function at the counter, which then advances (log 1). -/
def State.freeBit (s : State) : Bool × State := (Config.freeBit s.freeCtr, s.onFreeCtr (· + 1))

/-- The next free word (R333) (log 1). -/
def State.freeWord (s : State) : DWord × State := (Config.freeWord s.freeCtr, s.onFreeCtr (· + 1))

-- Access to the parts of the units.

/-- A context (R502). -/
def State.ctx (s : State) (c : Nat) : Ctx := look {} s.easel.ctxs c
/-- Changes one context. -/
def State.onCtx (c : Nat) (f : Ctx → Ctx) (s : State) : State :=
  s.onEasel (fun e => { e with ctxs := modify {} c f e.ctxs })
/-- A physical panel. -/
def State.panel (s : State) (p : Nat) : Panel := look {} s.panels.panels p
/-- Changes one panel. -/
def State.onPanel (p : Nat) (f : Panel → Panel) (s : State) : State :=
  s.onPanels (fun u => { u with panels := modify {} p f u.panels })
/-- A panel group. -/
def State.group (s : State) (g : Nat) : Group := look {} s.panels.groups g
/-- Changes one panel group. -/
def State.onGroup (g : Nat) (f : Group → Group) (s : State) : State :=
  s.onPanels (fun u => { u with groups := modify {} g f u.groups })
/-- A Liner engine. -/
def State.eng (s : State) (e : Nat) : Engine := look {} s.liner.engs e
/-- Changes one Liner engine. -/
def State.onEng (e : Nat) (f : Engine → Engine) (s : State) : State :=
  s.onLiner (fun u => { u with engs := modify {} e f u.engs })
/-- A Palette bank. -/
def State.bank (s : State) (b : Nat) : Bank := look {} s.pal.banks b
/-- Changes one Palette bank. -/
def State.onBank (b : Nat) (f : Bank → Bank) (s : State) : State :=
  s.onPal (fun u => { u with banks := modify {} b f u.banks })
/-- A Mover queue. -/
def State.queue (s : State) (q : Nat) : Queue := look {} s.mover.queues q
/-- Changes one Mover queue. -/
def State.onQueue (q : Nat) (f : Queue → Queue) (s : State) : State :=
  s.onMover (fun u => { u with queues := modify {} q f u.queues })
/-- A ring (R465). -/
def State.ring (s : State) (r : Nat) : Ring := look {} s.easel.rings r
/-- Changes one ring. -/
def State.onRing (r : Nat) (f : Ring → Ring) (s : State) : State :=
  s.onEasel (fun e => { e with rings := modify {} r f e.rings })
/-- A fabric port (R569). -/
def State.port (s : State) (p : Nat) : Port := look {} s.fab.ports p
/-- Changes one fabric port. -/
def State.onPort (p : Nat) (f : Port → Port) (s : State) : State :=
  s.onFab (fun u => { u with ports := modify {} p f u.ports })
/-- An object, if it is defined (R348). -/
def State.obj (s : State) (o : Nat) : Option Obj := (s.sw.objs.find? (fun p => p.1 == o)).map (·.2)
/-- Changes one object where it is defined. -/
def State.onObj (o : Nat) (f : Obj → Obj) (s : State) : State :=
  s.onSw (fun u => { u with objs := u.objs.map (fun p => if p.1 = o then (p.1, f p.2) else p) })

/-- All 1,024 contexts that the state lists, in ascending order. -/
def State.ctxIds (s : State) : List Nat := s.easel.ctxs.map (·.1)

/-- Changes every context that the state lists. -/
def State.onEveryCtx (f : Nat → Ctx → Ctx) (s : State) : State :=
  s.onEasel (fun e => { e with ctxs := e.ctxs.map (fun p => (p.1, f p.1 p.2)) })

-- Whether the block acts at all.

/-- Every clock but AON has stopped, or the part is held in cold reset (R623, R647, R698): nothing acts. -/
def State.dead (s : State) : Bool := s.boot.held || s.pins.thermTrip || s.pins.refLost

/-- The start has ended with READY; phase 10 is the whole-stack fence and 11 an activation (R651, R667, R682). -/
def State.ready (s : State) : Bool := s.easel.running && (s.boot.phase == 8 || s.boot.phase == 10 || s.boot.phase == 11)

/-- Power state ACTIVE, HOLD, DOZE or REST in force (R625). -/
def State.power (s : State) : Nat := if s.pmu.asleep then s.pmu.mode.toNat else 0

/-- The units act: clocks run, the start has ended, the part is in ACTIVE (R627). -/
def State.up (s : State) : Bool := !s.dead && s.ready && s.power == 0

/-- The Tick unit runs: its microcode has loaded (R17), and its clock stops in DOZE and REST only (R625). -/
def State.ticking (s : State) : Bool := !s.dead && s.ready && s.tick.loaded && decide (s.power ≤ 1)

/-- The units act and the stack is not fenced whole (R616). -/
def State.serving (s : State) : Bool := s.up && !s.easel.wholeFence

/-- The host, and Easel, reach the registers that neither HOLD nor a start keeps from them (R625, R654, R707). -/
def State.reaches (s : State) : Bool := !s.dead && decide (s.power ≤ 1)

/-- Easel runs and writes registers on its own path, from a start on (R651, R712). -/
def State.easelRuns (s : State) : Bool := !s.dead && s.easel.running && s.power == 0

/-- Strapped as manager (R564). -/
def State.manager (s : State) : Bool := s.fab.strap.getLsbD 3

/-- Own stack address (R566). -/
def State.addr (s : State) : Nat := if s.manager then 16 else s.fab.selfAddr

-- Clamps (R497 to R500).

/-- A clamp of a context's command: its counter advances and its record is updated (R500, R533). -/
def State.clampIn (tick : Word) (c op loc : Nat) (s : State) : State :=
  s.onCtx c (fun x => { x with
    clampCnt := satInc x.clampCnt, clampOp := BitVec.ofNat 8 op,
    clampTick := tick, clampWhere := BitVec.ofNat 32 loc })

/-- A clamp in the tick that runs. -/
def State.clampAt (c op loc : Nat) (s : State) : State := s.clampIn s.tick.count c op loc

/-- WHERE of a command not performed for a reason other than one field's value (R500). -/
def whereWhole : Nat := 0xFFFF

-- Fields of a header and slots built from fields.

/-- Bits hi..lo of a header (R470, R490). -/
def hdrBits (h : Line) (hi lo : Nat) : Nat := bits h.toNat hi lo

/-- One slot built from (low bit, value) pairs; each value has been cut to its field. -/
def slotOf (fs : List (Nat × Nat)) : Line := BitVec.ofNat 512 (fs.foldl (fun a p => a + p.2 * 2 ^ p.1) 0)

/-- OPCODE of a header (R470). -/
def hdrOp (h : Line) : Nat := hdrBits h 7 0
/-- CTX of a header. -/
def hdrCtx (h : Line) : Nat := hdrBits h 57 48
/-- PSLOTS of a header. -/
def hdrSlots (h : Line) : Nat := hdrBits h 80 64
/-- TAG of a header. -/
def hdrTag (h : Line) : Nat := hdrBits h 127 96

-- Frames of the host link.

/-- At least one host-link module carries frames, or will again after its retrain (R457, R462). -/
def State.linkUp (s : State) : Bool :=
  s.link.hl0.st == .active || s.link.hl0.st == .retrain || s.link.hl1.st == .active || s.link.hl1.st == .retrain

/-- Bytes of a frame: header, data in whole lines, trailer (R457). -/
def TxFrame.bytes (f : TxFrame) : Nat :=
  24 + 64 * ceilDiv (match f.kind with | .mwr _ d => d.length | .crdc _ _ d => d.length | _ => 0) 64

/-- Bytes of a replay buffer (R459, R570). -/
def replayBytes : Nat := 65536

/-- The frames not yet sent go in order while an ACTIVE module's replay buffer has room for them (R457, R459); u0 and u1 are the bytes that the
buffers hold. -/
def sendFrames (a0 a1 : Bool) : Nat → Nat → List TxFrame → List TxFrame
  | _, _, [] => []
  | u0, u1, f :: fs =>
    if f.sent then f :: sendFrames a0 a1 u0 u1 fs
    else if a0 && decide (u0 + f.bytes ≤ replayBytes) then { f with sent := true, on1 := false } :: sendFrames a0 a1 (u0 + f.bytes) u1 fs
    else if a1 && decide (u1 + f.bytes ≤ replayBytes) then { f with sent := true, on1 := true } :: sendFrames a0 a1 u0 (u1 + f.bytes) fs
    else f :: fs

/-- Sends what waits for a module or for room in a replay buffer. -/
def HostLink.flush (l : HostLink) : HostLink :=
  let used (on1 : Bool) : Nat := sumN ((l.tx.filter (fun f => f.sent && f.on1 == on1)).map TxFrame.bytes)
  { l with tx := sendFrames (l.hl0.st == .active) (l.hl1.st == .active) (used false) (used true) l.tx }

/-- A frame for the host link: it takes the next sequence number, waits for an ACTIVE module and for room, and stays in the replay buffer until an
ACK covers it (R457, R459, R462). -/
def State.send (k : TxKind) (by_ : Issuer) (s : State) : State :=
  s.onLink (fun l => ({ l with
    tx := l.tx ++ [{ seq := l.seqs.txNext, kind := k, by_ := by_ }]
    seqs := { l.seqs with txNext := l.seqs.txNext + 1 } } : HostLink).flush)

/-- Sends an MRD for host memory and notes what its MRDC answers (R457). -/
def State.readHost (addr len : Nat) (by_ : Issuer) (s : State) : State :=
  let id := s.link.readId
  (s.onLink (fun l => { l with readId := id + 1, reads := l.reads ++ [{ id := id, by_ := by_ }] })).send
    (.mrd id addr len) by_

/-- Writes host memory in MWR frames of at most 4,096 bytes (R457). -/
def State.writeHost (addr : Nat) (data : List Byte) (by_ : Issuer) (s : State) : State :=
  ((pieces 4096 data).foldl (fun t p => (t.1.send (.mwr t.2 p) by_, t.2 + p.length)) (s, addr)).1

-- Rings (R468).

/-- Slots of a ring. -/
def Ring.size (r : Ring) : Nat := 2 ^ r.log2
/-- Host address of the slot that an index names. -/
def Ring.addr (r : Ring) (i : Nat) : Nat := r.base + 64 * (i % r.size)
/-- Slots between head and tail. -/
def Ring.used (r : Ring) : Nat := (r.tail + 2 * r.size - r.head) % (2 * r.size)
/-- Room of a completion ring for a packet of n slots (R472). -/
def Ring.room (r : Ring) (n : Nat) : Bool := decide (r.used + n ≤ r.size)

/-- The slots of a packet whose index passes 0 or S, where PHASE inverts (R471). -/
def Ring.advance (r : Ring) (n : Nat) : Ring :=
  let t := r.tail + n
  let flip := t / r.size - r.tail / r.size
  { r with tail := t % (2 * r.size), phase := if flip % 2 = 0 then r.phase else !r.phase }

/-- Writes one completion packet to a completion ring: payload slots and bytes 8 to 63 of the header first, bytes 0 to 7
last (R472), PHASE as the ring stands; sets HLK_EVT_STAT.CQ or the bit given (R484). -/
def State.postRing (r : Nat) (slot : Line) (payload : List Byte) (by_ : Issuer) (evt : BitVec 5) (s : State) : State :=
  let g := s.ring r
  let pl := pieces 64 payload
  let hdr := lineBytes (slot ||| (if g.phase then 1 else 0))
  let s := (pl.foldl (fun t p => (t.1.send (.mwr (g.addr t.2) (slice p 0 64)) by_, t.2 + 1)) (s, g.tail + 1)).1
  let s := s.send (.mwr (g.addr g.tail + 8) (hdr.drop 8)) by_
  let s := s.send (.mwr (g.addr g.tail) (hdr.take 8)) by_
  (s.onRing r (fun g => g.advance (1 + pl.length))).onLink (fun l => { l with evtStat := l.evtStat ||| evt })

/-- Event bits of a post to a completion ring (R484). -/
def cqBit (g : Ring) : BitVec 5 := if g.evt then 2 else 0

/-- A completion ring can take a packet of n slots now (R468, R472). -/
def State.canPost (r n : Nat) (s : State) : Bool :=
  let g := s.ring r
  g.enabled && g.dir && g.room n && s.linkUp

/-- Posts a completion now, or has it wait behind earlier ones of its ring (R472, R532). -/
def State.postOrWait (r : Nat) (slot : Line) (payload : List Byte) (s : State) : State :=
  if s.canPost r (1 + (pieces 64 payload).length) && s.easel.waiting.all (fun w => w.ring != r) then
    s.postRing r slot payload (.completion (hdrBits slot 159 150)) (cqBit (s.ring r))
  else s.onEasel (fun e => { e with waiting := e.waiting ++ [{ ring := r, slot := slot, payload := payload }] })

-- Weave frames (R571).

/-- Port towards a stack (R565): the manager's port of the chain, a worker's FAB0 towards the manager and FAB1 beyond. -/
def State.portTo (d : Nat) (s : State) : Nat :=
  if s.manager then d / 4 else if d ≠ 16 ∧ d ≠ 31 ∧ d / 4 = s.addr / 4 ∧ s.addr < d then 1 else 0

/-- Bytes of a Weave frame (R570). -/
def WFrame.bytes (f : WFrame) : Nat := 24 + 64 * ceilDiv f.data.length 64

/-- The port's replay buffer has room for a frame (R570). -/
def Port.room (x : Port) (f : WFrame) : Bool := decide (sumN (x.tx.map WFrame.bytes) + f.bytes ≤ replayBytes)

/-- Sends one Weave frame of a source stack on a port (R570, R571, R573): it goes when the port holds credit for its lines and its replay buffer
has room, and waits else. -/
def State.weaveFrom (src p dst kind vc param aux : Nat) (data : List Byte) (s : State) : State :=
  s.onPort p (fun x =>
    let f : WFrame := {
      seq := x.seqs.txNext, kind := BitVec.ofNat 8 kind, vc := vc, dst := dst, src := src,
      param := BitVec.ofNat 32 param, aux := BitVec.ofNat 8 aux, data := data }
    let need := ceilDiv data.length 64
    let have_ := x.credit.getD vc 0
    if (vc = 0 ∨ need ≤ have_) ∧ x.room f ∧ x.wait.all (fun w => w.vc ≠ vc) then
      { x with
        tx := x.tx ++ [f], seqs := { x.seqs with txNext := x.seqs.txNext + 1 }, turns := x.turns + 1,
        credit := if vc = 0 then x.credit else setAt x.credit vc (· - need) }
    else { x with wait := x.wait ++ [f] })

/-- Returns credit for lines that leave a receive buffer of a port (R289, R573). -/
def State.returnLines (p vc n : Nat) (s : State) : State := s.onPort p (fun x => { x with back := setAt x.back vc (· + n) })

/-- Sends one own Weave frame on a port. -/
def State.weaveOn (p dst kind vc param aux : Nat) (data : List Byte) (s : State) : State :=
  s.weaveFrom s.addr p dst kind vc param aux data

/-- Sends a Weave message towards a stack, data cut into frames of 4,096 bytes. -/
def State.weave (dst kind vc param aux : Nat) (data : List Byte) (s : State) : State :=
  let ps := pieces 4096 data
  if ps.isEmpty then s.weaveOn (s.portTo dst) dst kind vc param aux []
  else each ps (fun p t => t.weaveOn (t.portTo dst) dst kind vc param aux p) s

-- Completions (R471, R492).

/-- The ring or mailbox slot that a completion names in SQ (R471). -/
def Cmd.sq (c : Cmd) : Nat := match c.src with | .ring r => r | .urgent n => n | .fabric r => r

/-- The common fields of a completion slot: R471 and the body of R492. -/
def cplSlot (c : Cmd) (status psl tick detail gen blk cause : Nat) (last : Bool) (results : Nat) : Line :=
  let urg := match c.src with | .urgent _ => 1 | _ => 0
  slotOf [(1, 1), (2, urg), (8, status), (32, hdrTag c.hdr), (64, if urg = 1 then 0 else c.head % 2 ^ 17), (81, c.sq),
    (96, psl % 2 ^ 17), (128, hdrOp c.hdr), (136, if last then 1 else 0), (144, cause), (150, hdrCtx c.hdr),
    (168, blk % 2 ^ 16), (184, gen % 256), (192, detail % 2 ^ 32), (224, tick % 2 ^ 32), (256, results % 2 ^ 256)]

/-- The packets at the front of the list that are done move the head past them (R473). -/
def passPrefix : Nat → List (Nat × Nat × Bool) → Nat × List (Nat × Nat × Bool)
  | _, (_, n, true) :: r => passPrefix n r
  | h, l => (h, l)

/-- A packet taken has been fetched or dropped; the head passes packets in ring order (R473). -/
def Ring.pass (g : Ring) (seq : Nat) : Ring :=
  let r := passPrefix g.head (g.passed.map (fun p => if p.1 = seq then (p.1, p.2.1, true) else p))
  { g with head := r.1, passed := r.2 }

/-- The head of the command's submission ring may pass its packet (R473). -/
def State.passPacket (c : Cmd) (s : State) : State :=
  match c.src with
  | .ring r => s.onRing r (fun g => g.pass c.seq)
  | _ => s

/-- Opcodes that are performed under a whole-stack fence: DIAG and ATTEST (R616). -/
def underFence (op : Nat) : Bool := op == 0x90 || op == 0x91

/-- Sends a completion where its command came from: the CQ of its ring, the urgent completion slot (R478), or the
manager in CPL frames (R580). Under a whole-stack fence only those of DIAG and ATTEST leave (R616). -/
def State.deliver (c : Cmd) (slot : Line) (payload : List Byte) (s : State) : State :=
  if s.easel.wholeFence && !underFence (hdrOp c.hdr) then s
  else
    match c.src with
    | .ring r => s.postOrWait (s.ring r).cq slot payload
    | .urgent n => s.onEasel (fun e => { e with urgentPosts := e.urgentPosts ++ [(n, slot)] })
    | .fabric _ => s.weave 16 0x13 1 0 0 (lineBytes slot ++ payload)

/-- The command is in progress: it came on the urgent lane, or it is listed as taken (R529, R615). -/
def State.isLive (s : State) (c : Cmd) : Bool :=
  match c.src with
  | .urgent _ => true
  | _ => s.easel.live.any (fun l => l.cmd.seq == c.seq)

/-- While an activation settles, Easel stops taking headers once every command but RUN_SLICE, RUN_FRAME and the FW_ACTIVATE
itself has posted its last completion (R667): the phase reads SWAP. -/
def State.settled (s : State) : State :=
  onlyIf (s.boot.settle == 2 && s.boot.phase == 8 && s.easel.live.all (fun l =>
      hdrOp l.cmd.hdr == 0x30 || hdrOp l.cmd.hdr == 0x31 || (s.boot.settleCmd.map (·.seq)) == some l.cmd.seq))
    (State.onBoot (fun b => { b with phase := 11, settle := 3 })) s

/-- The command has posted its last completion (R529); a packet never fetched passes now. -/
def State.retire (c : Cmd) (s : State) : State :=
  ((s.onEasel (fun e => { e with live := e.live.filter (fun l => l.cmd.seq != c.seq) })).passPacket c).settled

/-- Easel posts the one completion of a command (R492, R496); a command dropped with the link posts none (R615). -/
def State.complete (c : Cmd) (status detail : Nat) (results : Nat) (payload : List Byte) (s : State) : State :=
  (onlyIf (s.isLive c) (fun s => s.deliver c
    (cplSlot c status (pieces 64 payload).length s.tick.count.toNat detail 0 0 0 true results) payload) s).retire c

/-- Completion of a command not performed under R498: OK, and one clamp with WHERE 0xFFFF. -/
def State.notPerformed (c : Cmd) (s : State) : State :=
  (s.clampAt (hdrCtx c.hdr) (hdrOp c.hdr) whereWhole).complete c 0 0 0 []

-- Event records (R526 to R528).

/-- Records held at most (R528). -/
def maxRecords : Nat := 64

/-- The slot of an event record (R526, R580). -/
def recordSlot (s : State) (ctx code a0 a1 : Nat) : Line :=
  slotOf [(1, 1), (128, 0xE0), (136, 1), (150, ctx), (192, code), (224, s.tick.count.toNat), (256, a0 % 2 ^ 32),
    (288, a1 % 2 ^ 32), (320, s.addr)]

/-- The stack is fenced, or this stack's Fabric unit is (R599). -/
def State.gone (d : Nat) (s : State) : Bool := s.fab.fenced || (s.manager && decide (d < 16) && s.fab.mask.getLsbD d)

/-- The ring of a record of a context (R527). -/
def State.eventRing (s : State) (ctx : Nat) : Nat :=
  if (s.ctx ctx).even then (s.ctx ctx).evq.toNat else (s.ctx 0).evq.toNat

/-- A record goes to its ring: posted at once where the ring has room and no record waits, held else, dropped and counted where 64
wait (R528). -/
def State.postRecord (r ctx : Nat) (slot : Line) (s : State) : State :=
  if s.easel.records.isEmpty && s.canPost r 1 then s.postRing r slot [] (.completion ctx) (4 ||| cqBit (s.ring r))
  else if s.easel.records.length < maxRecords then
    s.onEasel (fun e => { e with records := e.records ++ [{ ring := r, slot := slot }] })
  else s.onEasel (fun e => { e with dropped := satInc e.dropped })

/-- Raises an event record (R526, R527). A worker sends it to the manager (R580). -/
def State.raise (forCtx ctx code a0 a1 : Nat) (s : State) : State :=
  let slot := recordSlot s ctx code a0 a1
  if s.easel.wholeFence then s
  else if !s.manager then s.weave 16 0x13 1 0 1 (lineBytes slot)
  else s.postRecord (s.eventRing forCtx) ctx slot

/-- A fault's record UNIT_FENCED (R607), after the fence record in the Plan chest where its controller serves (R618). -/
def State.unitFenced (a0 a1 : Nat) (s : State) : State :=
  ((s.onChest (fun c => { c with panelRec := if c.fenced then c.panelRec else (c.panelRec.1 + 1, c.flash.seq) })).onBoot (fun b => if s.chest.fenced then b else
    { b with nv := { b.nv with fences := if (a0, a1) ∈ b.nv.fences then b.nv.fences else b.nv.fences ++ [(a0, a1)] } })).raise
    0 0 8 a0 a1

/-- Counts a non-owner access of a unit (R303). -/
def State.nonOwner (unit : Nat) (s : State) : State :=
  s.onPal (fun p => { p with nonown := modify 0 unit satInc p.nonown })

/-- Counts a dark access of a unit (R310). -/
def State.darkAccess (unit : Nat) (s : State) : State :=
  s.onPal (fun p => { p with dark := modify 0 unit satInc p.dark })

-- EVENT_N (R483).

/-- EVENT_N is asserted: an enabled bit of HLK_EVT_STAT is 1. -/
def State.eventN (s : State) : Bool := s.link.evtStat &&& s.link.evtEn != 0

end Sys2Proof.Machine
end

