-- ==== Sys2Proof/Machine/Flow.lean ====
section
/-! DEFINITION. What passes through the block: maps and routes (R137, R171), tasks and their completion blocks (R62,
R517), handovers (R58 to R66), cancels (R436, R437), context fences (R70) and unit fences (R605 to R616). -/

namespace Sys2Proof.Machine

-- Maps (R169 to R176, R511).

/-- The next MODEL_STAGE writes map B (R511): the map not in use, or map A while the context has never been bound. -/
def CtxMaps.stageB (m : CtxMaps) : Bool := if m.live then !m.useB else m.everBound
/-- The map in use, if one is. -/
def CtxMaps.cur (m : CtxMaps) : Option CMap := if m.live then (if m.useB then m.b else m.a) else none
/-- The staged map. -/
def CtxMaps.other (m : CtxMaps) : Option CMap := if m.stageB then m.b else m.a
/-- Replaces the map not in use. -/
def CtxMaps.setOther (m : CtxMaps) (v : Option CMap) : CtxMaps := if m.stageB then { m with b := v } else { m with a := v }
/-- The context's map in use, an empty one where none is. -/
def State.curMap (s : State) (c : Nat) : CMap := (s.ctx c).maps.cur.getD {}

/-- A panel layer of a map. -/
def CMap.pl (m : CMap) (l : Nat) : PLayer := m.players.getD l {}
/-- A Liner layer of a map. -/
def CMap.ll (m : CMap) (l : Nat) : LLayer := m.llayers.getD l {}
/-- Primary segments of a replica (R82, R136). -/
def CMap.replica (m : CMap) (l r : Nat) : List Seg := m.segs.filter (fun g => g.layer == l && g.replica == r && !g.twin)
/-- Segments of the twin's corresponding replica (R137, R542). -/
def CMap.twinOf (m : CMap) (l r : Nat) : List Seg :=
  let os := (m.replica l r).map (·.ord)
  m.segs.filter (fun g => g.layer == l && g.twin && os.contains g.ord)
/-- The (layer, replica) pairs of a map. -/
def CMap.replicas (m : CMap) : List (Nat × Nat) := ((m.segs.filter (!·.twin)).map (fun g => (g.layer, g.replica))).eraseDups
/-- The batch of a switch is a slice (R561): GRAIN SLICE and no panel layer. -/
def CMap.bySlice (m : CMap) : Bool := m.grainSlice && m.players.isEmpty

-- Streamed layers (R221, R544).

/-- Bits of a weight (R188). -/
def LLayer.wBits (l : LLayer) : Nat := match l.fmt.toNat with | 1 | 2 => 4 | 0 | 3 => 8 | _ => 16
/-- Fan-in of one output: a grouped convolution takes its group's share of the K inputs (R204). -/
def LLayer.fan (l : LLayer) : Nat := if l.kind.toNat = 1 then l.k / max 1 l.groups else l.k
/-- Bytes of the layer's weights (R544). -/
def LLayer.weightBytes (l : LLayer) : Nat :=
  let n := match l.kind.toNat with | 3 | 4 => 0 | 5 => l.rank * (l.k + l.m) | _ => l.fan * l.m
  ceilDiv (n * l.wBits) 8

/-- Streamed layers of a map, in pass order (R221). -/
def CMap.streamed (m : CMap) : List Nat := below m.llayers.length (fun l => (m.ll l).stream)

/-- The streamed layer whose weights a Gallery address lies in (R544). -/
def CMap.streamAtAddr (m : CMap) (obj off : Nat) : Option Nat :=
  m.streamed.find? (fun l => bits (m.ll l).waddr.toNat 63 44 == obj && decide (bits (m.ll l).waddr.toNat 43 0 ≤ off) &&
    decide (off < bits (m.ll l).waddr.toNat 43 0 + (m.ll l).weightBytes))

/-- The streamed layers of a map whose weights the blocks of a list bring (R221, R556). -/
def CMap.listLayers (m : CMap) (blocks : List (List Byte)) : List Nat :=
  blocks.filterMap (fun b =>
    let a := bits (fieldB b 0 32) 63 0
    if bits (fieldB b 0 32) 152 151 = 0 then m.streamAtAddr (a / 2 ^ 44 % 2 ^ 20) (a % 2 ^ 44) else none)

-- Panels and slots (R78, R180).

/-- The spare panel of a group: in state SPARE, with no slot taken over (R180; log 94). -/
def State.spareOf (s : State) (g : Nat) : Option Nat :=
  (List.range 17).findSome? (fun i =>
    let x := s.panel (17 * g + i)
    if x.st = .spare ∧ !x.takes then some (17 * g + i) else none)
/-- The physical panel that holds a logical slot of a group; slot 16 is the spare. -/
def State.panelAt (s : State) (g k : Nat) : Option Nat :=
  let at_ := (List.range 17).findSome? (fun i => if (s.panel (17 * g + i)).slot.toNat = k then some (17 * g + i) else none)
  if k = 16 then (s.spareOf g).orElse (fun _ => at_) else at_
/-- A panel takes part in strikes (R79, R611). -/
def State.serves (s : State) (p : Nat) : Bool := (s.panel p).st == .serving && !(s.group (p / 17)).fenced
/-- The panel of a segment serves. -/
def State.segServes (s : State) (g : Seg) : Bool :=
  !g.dropped && (match s.panelAt g.grp g.slot with | some p => s.serves p | none => false)
/-- A map names a panel. -/
def State.mapNames (s : State) (m : CMap) (p : Nat) : Bool :=
  m.segs.any (fun g => !g.dropped && s.panelAt g.grp g.slot == some p)
/-- Maps of a context that count for its panels: in use, staged and draining (R554). -/
def Ctx.bothMaps (x : Ctx) : List CMap := x.maps.a.toList ++ x.maps.b.toList ++ x.maps.old.toList
/-- The panel is in a current panel map: a map in use of some context names it (R142, R160). -/
def State.inCurrentMap (s : State) (p : Nat) : Bool :=
  s.easel.ctxs.any (fun x => match x.2.maps.cur with | some m => s.mapNames m p | none => false)
/-- Some map of some context names the panel (R552, R554). -/
def State.inAnyMap (s : State) (p : Nat) : Bool :=
  s.easel.ctxs.any (fun x => x.2.bothMaps.any (fun m => s.mapNames m p))

-- Routes (R136 to R141).

/-- Every panel that keeps the replica from its own path is fenced, or is a spare that has yet to serve in a fenced one's place (R139,
R181): the cause is FENCED, else PANEL_ROUTE. -/
def State.fbCause (s : State) (m : CMap) (l r : Nat) : Nat :=
  let bad := (m.replica l r).filter (fun g => !s.segServes g)
  let fenced (g : Seg) : Bool := (s.group g.grp).fenced ||
    (match s.panelAt g.grp g.slot with | some p => (s.panel p).st == .fenced || (s.panel p).takes | none => false)
  if s.primer.fenced || (!bad.isEmpty && bad.all (fun g => !g.dropped && fenced g)) then 7 else 4

/-- A route can be taken (R137). -/
def State.available (s : State) (m : CMap) (l r : Nat) : Route → Bool
  | .own => !(m.pl l).noTable && (m.replica l r).all s.segServes && !s.primer.fenced
  | .twin => (m.pl l).twin && !(m.twinOf l r).isEmpty && (m.twinOf l r).all s.segServes && !s.primer.fenced
  | .subst => (m.pl l).subst && !(s.eng (m.pl l).substLe).fenced && !s.primer.fenced
  | .fallback _ => true

/-- The first route that is available: own path, twin, Liner substitute, fallback (R137). -/
def State.routeOf (s : State) (m : CMap) (l r : Nat) : Route :=
  if s.available m l r .own then .own
  else if s.available m l r .twin then .twin
  else if s.available m l r .subst then .subst
  else .fallback (s.fbCause m l r)

-- Tasks (R514 to R518).

/-- Tasks of a context. -/
def State.tasksOf (s : State) (c : Nat) : List Task := s.easel.tasks.filter (fun t => t.ctx == c)
/-- The task's tick has begun: it is not work of the next tick. -/
def State.due (s : State) (t : Task) : Bool := t.tick != s.tick.count + 1
/-- Blocks of the task are left whose post has not begun. -/
def Task.unposted (t : Task) : Bool := decide (t.posted < t.blocks)
/-- The context's units hold the task's work: it is its own, or has been handed to it (R45). -/
def Task.workOf (t : Task) (c : Nat) : Bool := (t.ctx == c && t.by_.isNone) || t.by_ == some (.ctx c)
/-- In a context the task runs on the map that drains (R172, R173). -/
def Task.onOld (t : Task) (c : Nat) : Bool := if t.ctx = c then t.old else t.oldBy && t.by_ == some (.ctx c)
/-- The context's units hold work of a tick that has begun (R59). -/
def State.holds (s : State) (c : Nat) : Bool := s.easel.tasks.any (fun t => t.workOf c && s.due t && t.unposted)
/-- The task that a row names: the oldest of the context with that FRAME and SLICE or PART. -/
def State.task (s : State) (c frame part : Nat) : Option Task :=
  s.easel.tasks.find? (fun t => t.ctx == c && t.frame.toNat == frame && t.part == part)
/-- Changes the task that a command began. -/
def State.onTask (seq : Nat) (f : Task → Task) (s : State) : State :=
  s.onEasel (fun e => { e with tasks := e.tasks.map (fun t => if t.cmd.seq = seq then f t else t) })
/-- The map that a context's work now runs on: the old one while frames of it are open (R172, R173). -/
def State.workMap (s : State) (c : Nat) : CMap :=
  let m := (s.ctx c).maps
  if s.easel.tasks.any (fun t => t.workOf c && t.onOld c) then m.old.getD {} else m.cur.getD {}
/-- The map of a context that a task runs on there (R172). -/
def State.taskMap (s : State) (c : Nat) (t : Task) : CMap :=
  let m := (s.ctx c).maps
  if t.onOld c then (m.old.orElse (fun _ => m.cur)).getD {} else m.cur.getD {}

/-- The map that a unit's work for a context runs on (R172): for work handed to the context (R45) the one that the context had in use when it began
there. -/
def State.mapFor (s : State) (c : Nat) (w : Work) : CMap :=
  match s.task w.owner w.frame w.part with
  | some t => s.taskMap c t
  | none => s.curMap c

/-- The work belongs to the draining map (R172, R173). -/
def State.oldWork (s : State) (c : Nat) (w : Work) : Bool :=
  match s.task w.owner w.frame w.part with | some t => t.onOld c | none => false

-- Routes of a tick (R137 to R141).

/-- The route fixed for a replica in this tick, of the map in use or of the draining one. -/
def Ctx.route (x : Ctx) (old : Bool) (l r : Nat) : Route :=
  (((if old then x.routesOld else x.routes).find? (fun t => t.1 == l && t.2.1 == r)).map (fun t => t.2.2)).getD .own

/-- Marks layers as ROUTED in their status words (R140) and sets ROUTE_EVENT (R146). -/
def State.noteRouted (c : Nat) (ls : List Nat) (s : State) : State :=
  onlyIf (!ls.isEmpty) (fun s =>
    (s.onCtx c (fun x => { x with
      stats := ls.foldl (fun t l => modify {} l (fun w => { w with routed := true }) t) x.stats })).onPrimer
      (fun p => { p with routeEvent := true })) s

/-- The routes of a map's replicas now. -/
def State.routesOf (s : State) (m : Option CMap) : List (Nat × Nat × Route) :=
  match m with
  | some m => m.replicas.map (fun p => (p.1, p.2, s.routeOf m p.1 p.2))
  | none => []

/-- Fixes a context's routes for the tick that begins, of the map in use and of the draining one (R141, R172). -/
def State.fixRoutes (c : Nat) (s : State) : State :=
  let m := (s.ctx c).maps
  let rs := s.routesOf m.cur
  let ro := s.routesOf m.old
  (s.onCtx c (fun x => { x with routes := rs, routesOld := ro })).noteRouted c (((rs ++ ro).filter (fun t => t.2.2 != .own)).map (·.1))

/-- Removes the vectors in flight of a replica (R110). -/
def State.dropVecs (c : Nat) (old : Bool) (l r : Nat) (s : State) : State :=
  s.onPanels (fun u => { u with groups := u.groups.map (fun p =>
    (p.1, { p.2 with vecs := p.2.vecs.filter (fun v =>
      !(v.ctx == c && v.layer == l && v.replica == r && s.oldWork c v.work == old)) })) })

/-- Where a route leads that can no longer be taken: the fallback takes cause FENCED where a fence of the substitute's engine ended it
(R231). -/
def State.nextRoute (s : State) (m : CMap) (t : Nat × Nat × Route) : Route :=
  match t.2.2, s.routeOf m t.1 t.2.1 with
  | .subst, .fallback k => if (s.eng (m.pl t.1).substLe).fenced then .fallback 7 else .fallback k
  | _, r => r

/-- Within a tick a route changes where it can no longer be taken (R141); with drop the vectors in flight of the
replicas concerned are discarded (R110, R181). -/
def State.rerouteMap (drop old : Bool) (c : Nat) (s : State) : State :=
  match (if old then (s.ctx c).maps.old else (s.ctx c).maps.cur) with
  | none => s
  | some m =>
    let was := if old then (s.ctx c).routesOld else (s.ctx c).routes
    let gone := was.filter (fun t => !s.available m t.1 t.2.1 t.2.2)
    let rs := was.map (fun t => if s.available m t.1 t.2.1 t.2.2 then t else (t.1, t.2.1, s.nextRoute m t))
    let s := (s.onCtx c (fun x => if old then { x with routesOld := rs } else { x with routes := rs })).noteRouted c (gone.map (·.1))
    if drop then each gone (fun t s => s.dropVecs c old t.1 t.2.1) s else s

/-- Changes a context's routes on both maps. -/
def State.rerouteCtx (drop : Bool) (c : Nat) (s : State) : State := (s.rerouteMap drop false c).rerouteMap drop true c

/-- Changes the routes of every context after a HARD mark or a fence (R141). -/
def State.reroute (drop : Bool) (s : State) : State := each s.ctxIds (State.rerouteCtx drop) s

-- Completion blocks.

/-- The completion slot of a block (R492, R517). -/
def blockSlot (t : Task) (b : Block) (psl : Nat) : Line :=
  cplSlot t.cmd b.status.toNat psl t.tick.toNat 0 t.gen.toNat b.idx b.cause.toNat (b.idx + 1 == t.blocks)
    (t.frame.toNat + t.part % 256 * 2 ^ 32 + b.line0 % 65536 * 2 ^ 40 + b.lines % 65536 * 2 ^ 56)

/-- The old map's drain count is zero: its panels are released, EMPTY from the next edge (R174). -/
def State.drained (c : Nat) (s : State) : State :=
  (s.onCtx c (fun x => { x with maps := { x.maps with drain := 0, releasing := true } })).onPanels
    (fun u => { u with release := u.release + 1 })

/-- The drain of a context's old map counts the task's frame (R173): one of its own, but for one that a REALTIME context has passed to its fallback
(R175), and one handed to it that runs there. -/
def State.inDrain (s : State) (c : Nat) (t : Task) : Bool := t.last && t.onOld c && !(t.ctx == c && (s.ctx c).bind.realtime && t.by_.isSome)

/-- Frames that belong to a context's old map and have not completed (R173): a tick's frame, or a slice where the batch of that map is a slice (R561). -/
def State.drainCount (s : State) (c : Nat) : Nat :=
  let ts := s.easel.tasks.filter (s.inDrain c)
  if (((s.ctx c).maps.old).map CMap.bySlice).getD false then ts.length else ((ts.map (fun t => (t.ctx, t.tick))).eraseDups).length

/-- The drain count of a context follows its frames (R173); when it reaches zero the old map's panels are released (R174). -/
def State.drainTo (c : Nat) (s : State) : State :=
  if (s.ctx c).maps.old.isNone || (s.ctx c).maps.releasing then s
  else if s.drainCount c = 0 then s.drained c
  else s.onCtx c (fun x => { x with maps := { x.maps with drain := s.drainCount c } })

/-- The contexts whose drain a task may be counted in. -/
def Task.places (t : Task) : List Nat := t.ctx :: (match t.by_ with | some (.ctx d) => [d] | _ => [])

/-- The version written of each state object becomes the version read (R215 to R217). -/
def Ctx.commitState (x : Ctx) : Ctx :=
  { x with stateBuf := x.stateOk.foldl (fun t p => putRaw p.1 (look [] x.stateNew p.1) t) x.stateBuf, stateOk := [], stateNew := [] }

/-- An earlier part of a frame (R515). -/
def Task.partOf (u t : Task) : Bool := u.ctx == t.ctx && u.frameCmd && t.frameCmd && u.frame == t.frame && !u.last && t.last

/-- The earlier parts of a frame end: their commands retire. -/
def State.endParts (t : Task) (s : State) : State :=
  let ps := s.easel.tasks.filter (fun u => u.partOf t)
  each ps (fun u s => s.retire u.cmd) (s.onEasel (fun e => { e with tasks := e.tasks.filter (fun u => !u.partOf t) }))

/-- The task has posted its last block, or is dropped: its commands retire, the drain count is kept, and in a BESTEFFORT
context the state that its frame wrote becomes the state read (R217). -/
def State.endTask (t : Task) (s : State) : State :=
  let s := (s.endParts t).onEasel (fun e => { e with tasks := e.tasks.filter (fun u => u.cmd.seq != t.cmd.seq) })
  let s := s.onWp (fun w => { w with jobs := w.jobs.filter (fun j => !decide (j.work = { owner := t.ctx, frame := t.frame.toNat, part := t.part })) })
  let s := each t.places State.drainTo (s.retire t.cmd)
  onlyIf (!(s.ctx t.ctx).bind.realtime && s.easel.tasks.all (fun u => u.ctx != t.ctx || u.tick != t.tick || !u.last))
    (State.onCtx t.ctx Ctx.commitState) s

/-- Sends a block's completion; R64 counts it where a fallback made it. -/
def State.sendBlock (t : Task) (b : Block) (s : State) : State :=
  onlyIf (b.status == 1) (State.onCtx t.ctx (fun x => { x with cnt := { x.cnt with fbblk := satInc x.cnt.fbblk } }))
    (onlyIf (s.isLive t.cmd) (State.deliver t.cmd (blockSlot t b (pieces 64 b.payload).length) b.payload) s)

/-- Writes a block's completion whole; the last one ends the task. -/
def State.deliverBlock (t : Task) (b : Block) (s : State) : State :=
  let s := (s.sendBlock t b).onTask t.cmd.seq (fun u => { u with wait := u.wait.filter (fun w => w.idx != b.idx) })
  match s.easel.tasks.find? (fun u => u.cmd.seq == t.cmd.seq) with
  | some u => if !u.unposted && u.wait.isEmpty && u.last then s.endTask u else s
  | none => s

/-- Removes Mover work of a task: payload fetches and posts that have not begun (R436). -/
def MovJob.isOf (j : MovJob) (t : Task) (fetches : Bool) : Bool :=
  match j.kind with
  | .fetch c f p _ => fetches && c == t.ctx && f == t.frame && p == t.part
  | .post c f p b => c == t.ctx && f == t.frame && p == t.part && decide (t.posted ≤ b)
  | _ => false

/-- Removes the Mover jobs of a task, its payload fetch too where asked. -/
def State.dropJobs (t : Task) (fetches : Bool) (s : State) : State :=
  s.onMover (fun m => { m with queues := m.queues.map (fun q =>
    (q.1, { q.2 with jobs := q.2.jobs.filter (fun j => !j.isOf t fetches) })) })

/-- Ends a task with ABORTED (R73, R445, R518): posts that have begun run to their end, every other block is posted with
ABORTED and no payload. -/
def State.abortTask (t : Task) (s : State) : State :=
  let s := (s.dropJobs t true).onCtx t.ctx (fun x => { x with stateOk := [], stateNew := [] })
  let s := s.onWp (fun w => { w with lane := w.lane.filter (fun j => !(j.ctx == t.ctx && j.frame == t.frame && j.part == t.part)) })
  let s := each (t.wait.filter (fun b => decide (b.idx < t.posted))) (State.sendBlock t) s
  let s := each ((List.range t.blocks).filter (fun i => decide (t.posted ≤ i))) (fun i s =>
    s.sendBlock t { idx := i, line0 := 0, lines := 0, status := 2, cause := 0, payload := [] }) s
  s.endTask t

/-- What serves in a context's place, and the chain so far (R58): at most four steps, none twice, a context only while it
is bound, budgeted and not fenced (R45); a context that has itself handed over passes the work on. -/
def State.target (s : State) : Nat → Nat → List Nat → Fallback × List Nat
  | 0, _, ch => (.frameRepeat, ch)
  | f + 1, c, ch =>
    match (s.ctx c).bind.fb with
    | .ctx d =>
      if ch.contains d || 4 ≤ ch.length || !((s.ctx d).st == .bound && (s.ctx d).bindLive && !(s.ctx d).fence) then
        (.frameRepeat, ch)
      else if (s.ctx d).handed ≠ 0 then s.target f d (ch ++ [d])
      else (.ctx d, ch ++ [d])
    | p => (p, ch)

/-- The path is one of the Pixel unit's (R58). -/
def Fallback.classical : Fallback → Bool
  | .ctx _ => false
  | _ => true

/-- Sorts jobs of the classical lane by context, in a stable order. -/
def sortJobs (xs : List ClassJob) : List ClassJob :=
  xs.foldl (fun a j => a.takeWhile (fun x => decide (x.ctx ≤ j.ctx)) ++ [j] ++ a.dropWhile (fun x => decide (x.ctx ≤ j.ctx))) []

/-- Blocks that an operation hands to the lane together enter it in ascending context ID (R258). -/
def handTogether (f : State → State) (s : State) : State :=
  (f s).onWp (fun w => { w with
    lane := w.lane.filter s.wp.lane.contains ++ sortJobs (w.lane.filter (fun j => !s.wp.lane.contains j)) })

/-- Cancels the payload fetches of a task whose work passes on (R436): what has arrived is its payload, and the head may pass the
packet (R473). -/
def State.cancelFetch (t : Task) (s : State) : State :=
  onlyIf (!t.ready) (fun s =>
    ((s.onMover (fun m => { m with queues := m.queues.map (fun q => (q.1, { q.2 with out := q.2.out.map (fun y =>
      match y.kind with
      | .fetch c f p _ => if c = t.ctx ∧ f = t.frame ∧ p = t.part then { y with dropped := true } else y
      | _ => y) })) })).onTask t.cmd.seq (fun u => { u with ready := true })).passPacket t.cmd) (s.dropJobs t true)

/-- Gives a task to a path for the blocks whose post has not begun (R61, R62): its payload fetches, partial results and blocks packed
are discarded; a classical path joins the lane in the order handed (R258). -/
def State.giveTask (t : Task) (p : Fallback) (ch : List Nat) (cause : Nat) (s : State) : State :=
  let s := (each (s.easel.tasks.filter (fun u => u.partOf t)) State.cancelFetch (s.cancelFetch t)).onTask t.cmd.seq (fun u => { u with
    by_ := some p, chain := ch, handedAt := s.tick.count, oldBy := false, lowBy := [], cause := if u.cause = 0 then BitVec.ofNat 3 cause else u.cause,
    wait := u.wait.filter (fun b => decide (b.idx < u.posted)), packed := u.posted, nextBlk := u.posted,
    line := ((u.wait.find? (fun b => b.idx == u.posted)).map (·.line0)).getD u.line })
  each t.places State.drainTo (onlyIf p.classical (State.onWp (fun w => { w with
    lane := w.lane ++ [{ ctx := t.ctx, frame := t.frame, part := t.part, path := p, tick := t.tick }] })) s)

/-- The task at work of a BESTEFFORT context, its oldest that is due, ends with ABORTED (R292, R318; log 95). -/
def State.endOldest (c : Nat) (s : State) : State :=
  match (s.tasksOf c).find? (fun t => s.due t && t.unposted) with
  | some t => s.abortTask t
  | none => s

/-- Passes a task on from a context whose work it is (R45, R58). -/
def State.passOn (from_ cause : Nat) (t : Task) (s : State) : State :=
  let r := s.target 5 from_ (if t.chain.isEmpty then [t.ctx] else t.chain)
  s.giveTask t r.1 r.2 cause

-- Cancels (R436, R437).

/-- Returns a semaphore pair to the values Easel set at CTX_BIND (R437). -/
def Mover.restorePair (p : Nat) (m : Mover) : Mover :=
  { m with sems := putRaw (2 * p) (look 0 m.semInit (2 * p)) (putRaw (2 * p + 1) (look 0 m.semInit (2 * p + 1)) m.sems) }

/-- Semaphore pairs that a stream descriptor names (R421). -/
def descPairs (d : Line) : List Nat :=
  (if hdrBits d 44 44 = 1 then [hdrBits d 43 36] else []) ++ (if hdrBits d 53 53 = 1 then [hdrBits d 52 45] else [])

/-- Entries of a FUSED run that no hand-over has passed on: one for each hand-over point issued and not yet in effect, and the one under way. -/
def Run.openEntries (r : Run) : Nat :=
  ((List.range r.blk).filter (fun b => decide (r.handed ≤ b) && bits (fieldB (r.blocks.getD b []) 0 32) 171 171 == 1)).length +
    (if r.took then 1 else 0)

/-- Returns the credits of the entries that a FUSED run has not passed on (R437). -/
def State.refund (r : Run) (s : State) : State :=
  if hdrBits r.desc 55 54 = 1 ∧ hdrBits r.desc 53 53 = 1 then
    s.onCtx r.ctx (fun x => { x with credit := modify 0 (hdrBits r.desc 52 45) (· + r.openEntries) x.credit })
  else s

/-- What a run has brought to the staging areas and no engine has taken from is discarded; the pass begins anew (R437). -/
def State.dropStages (r : Run) (s : State) : State :=
  let ls := (s.curMap r.ctx).listLayers r.blocks
  onlyIf (!ls.isEmpty) (State.onLiner (fun u => { u with
    stages := u.stages.filter (fun g => !(g.ctx == r.ctx && g.taken == 0 && ls.contains g.layer)), stageNext := putRaw r.ctx 0 u.stageNext })) s

/-- Cancels a queue's current run (R437, R442): nothing more of it is issued, reads on the way are discarded on arrival,
entries that no hand-over has passed on are dropped, its pairs return to their starting values, a latched arm is lost. -/
def State.cancelQueue (q : Nat) (s : State) : State :=
  match (s.queue q).run with
  | none => s
  | some r =>
    (((s.refund r).dropStages r).onQueue q (fun x => { x with
      cancelling := true, slot := none, surplus := [], run := some { r with blk := r.blocks.length, off := 0 },
      out := x.out.map (fun y => { y with dropped := true }) })).onMover (fun m =>
        (descPairs r.desc).foldl (fun m p => m.restorePair p) { m with ports := m.ports.filter (fun p => p.1 != q) })

/-- Counts one cancel of a context (R438). -/
def State.countCancel (c : Nat) (s : State) : State :=
  s.onCtx c (fun x => { x with cnt := { x.cnt with movCancel := satInc x.cnt.movCancel } })

/-- Cancels the runs of the context's stream queues (R436). -/
def State.cancelRuns (c : Nat) (s : State) : State := each (s.ctx c).queues State.cancelQueue s

/-- Cancels everything the Mover holds for a context (R436): its runs, its jobs, and reads on the way (R71). -/
def State.cancelAll (c : Nat) (s : State) : State :=
  (s.cancelRuns c).onMover (fun m => { m with queues := m.queues.map (fun q => (q.1, { q.2 with
    jobs := q.2.jobs.filter (fun j => j.ctx != c),
    out := q.2.out.map (fun y => if y.ctx = c then
      (match y.kind with | .post _ _ _ _ => y | _ => { y with dropped := true }) else y) })) })

-- Transfers that wait for a swatch (R342, R418).

/-- Object and offset of a Gallery address (R340). -/
def galObj (a : Nat) : Nat := a / 2 ^ 44 % 2 ^ 20
/-- Offset within the object. -/
def galOff (a : Nat) : Nat := a % 2 ^ 44

/-- The Gallery address whose bytes a transfer still waits for. -/
def Xfer.wants (x : Xfer) : Option Nat :=
  match x.kind with
  | .stream src _ 0 _ _ _ _ => if x.got.isEmpty ∧ !x.dropped then some src.toNat else none
  | _ => none

/-- The transfers that wait for bytes of an object, each with its queue and its offset in the object. -/
def State.waitObj (s : State) (o : Nat) : List (Nat × Xfer × Nat) :=
  s.mover.queues.flatMap (fun q => q.2.out.filterMap (fun x => (x.wants.filter (fun a => galObj a == o)).map (fun a => (q.1, x, galOff a))))

/-- The transfers that wait for a swatch, each with its queue and its offset in the swatch. -/
def State.waitFor (s : State) (o i : Nat) : List (Nat × Xfer × Nat) :=
  ((s.waitObj o).filter (fun p => p.2.2 / 16384 == i)).map (fun p => (p.1, p.2.1, p.2.2 % 16384))

/-- The phase of an engine without a tile (R234): waiting while a tile waits. -/
def Engine.idlePhase (x : Engine) : BitVec 2 := if x.waits.isEmpty then 0 else 3

/-- Tiles no longer wait on an engine. -/
def Engine.dropWaits (x : Engine) (p : TileCand → Bool) : Engine :=
  let x := { x with waits := x.waits.filter (fun w => !p w) }
  if x.tile.isSome then x else { x with phase := x.idlePhase }

/-- Lines that loops of a context have overwritten need not be put back (R219). -/
def State.dropSaved (c : Nat) (s : State) : State := s.onPal (fun p => { p with saved := p.saved.filter (fun l => l.ctx != c) })

/-- The unit is an engine that works for Retouch of a context, or waits for nothing else of it (R228). -/
def State.retouchOn (s : State) (unit c : Nat) : Bool :=
  let x := s.eng (unit - 0x50)
  decide (0x50 ≤ unit ∧ unit < 0x60) && (match x.tile with
    | some t => t.ctx == c && t.retouch
    | none => let ws := x.waits.filter (fun w => w.ctx == c); !ws.isEmpty && ws.all (·.retouch))

/-- A Retouch step in progress is lost: it will be discarded (R228, R292, R624). -/
def State.spoilRetouch (c : Nat) (s : State) : State :=
  s.onCtx c (fun x => { x with retouch := x.retouch.map (fun r => { r with spoiled := true }) })

/-- A reader waits for no swatch any more; its claims end (R376). -/
def State.dropReaders (c : Nat) (s : State) : State :=
  s.onSw (fun w => { w with
    table := w.table.map (fun p => (p.1, { p.2 with
      claim := p.2.claim - (p.2.reads.filter (fun r => r.1 == c)).length, reads := p.2.reads.filter (fun r => r.1 != c) }))
    direct := w.direct.map (fun m => { m with readers := m.readers.filter (fun r => r.1 != c) }) })

/-- Demand promotions that a context asked for, that have not begun and that nothing else waits for, are discarded (R70). -/
def State.dropPromos (c : Nat) (s : State) : State :=
  let idle (m : Move) : Bool := m.kind == .demand && m.ctx == c && (s.waitFor m.obj m.idx).isEmpty &&
    s.sw.table.any (fun p => p.2.obj == m.obj && p.2.idx == m.idx && p.2.st == .promoting && p.2.claim == 0 && p.2.writes.isEmpty && p.2.fresh.isNone)
  let gone := s.sw.queue.filter idle
  s.onSw (fun w => { w with
    queue := w.queue.filter (fun m => !idle m)
    table := w.table.filter (fun p => !(p.2.st == .promoting && gone.any (fun m => m.obj == p.2.obj && m.idx == p.2.idx))) })

/-- Every unit that holds the context's work stops at its next boundary (R61): tiles end without results, vectors and
staged shares are discarded, waits end. -/
def State.stopUnits (c : Nat) (s : State) : State :=
  let s := s.onLiner (fun u => { u with
    engs := u.engs.map (fun p =>
      let e := p.2
      (p.1, (({ e with
        tile := e.tile.map (fun t => if t.ctx = c && !t.retouch then { t with dead := true } else t),
        attn := e.attn.filter (fun a => a.ctx != c) } : Engine).dropWaits (fun w => w.ctx == c && !w.retouch)))),
    recv := u.recv.filter (fun r => r.ctx != c), stages := u.stages.filter (fun g => g.ctx != c), stageNext := putRaw c 0 u.stageNext })
  let s := (s.onGlaze (fun g => { g with jobs := g.jobs.filter (fun j => j.ctx != c) })).onWp (fun w => { w with
    jobs := w.jobs.filter (fun j => j.ctx != c) })
  (((s.dropReaders c).dropSaved c).onPanels (fun u => { u with groups := u.groups.map (fun p =>
    (p.1, { p.2 with vecs := p.2.vecs.filter (fun v => v.ctx != c) })) }))

/-- Load phases of a context that a fence token reaches stop at their next line, and their tiles with them (R70, R231). -/
def State.stopLoads (c : Nat) (s : State) : State :=
  s.onLiner (fun u => { u with engs := u.engs.map (fun p =>
    match p.2.tile with
    | some t => if t.ctx = c ∧ !t.computing then
        (p.1, { p.2 with tile := none, phase := p.2.idlePhase })
      else p
    | none => p) })

-- Handover (R59 to R64).

/-- Tasks of ticks begun whose unposted blocks the context's units hold. -/
def State.heldTasks (s : State) (c : Nat) : List Task :=
  s.easel.tasks.filter (fun t => t.workOf c && s.due t && t.unposted)

/-- Counts a miss, once a tick (R64). -/
def State.countMiss (c : Nat) (s : State) : State :=
  s.onCtx c (fun x => if x.missed then x else { x with missed := true, cnt := { x.cnt with miss := satInc x.cnt.miss } })

/-- Passes the context's work of the tick to its fallback (R61, R62), and with it the state that the work has written (R216, R231); a miss counts
in a REALTIME context (R64). -/
def State.handWork (c cause : Nat) (s : State) : State :=
  let s := ((((onlyIf (s.ctx c).bind.realtime (State.countMiss c) s).stopUnits c).cancelRuns c).countCancel c).onCtx c
    (fun x => { x with stateOk := [], stateNew := [] })
  handTogether (fun s => each (s.heldTasks c) (fun t s => s.passOn c cause t) s) s

/-- A second handover of a context that has handed over: where it falls in the cycle of the first, the lower code stands (R63, R68). No row names its
cycle, so whether the two share one is a free value (log 97). -/
def State.lowerHanded (c cause : Nat) (s : State) : State :=
  let was := (s.ctx c).handed
  if was.toNat ≤ cause then s
  else onlyIf s.freeBit.1 (fun s =>
    (s.onCtx c (fun x => { x with handed := BitVec.ofNat 3 cause })).onEasel (fun e => { e with tasks := e.tasks.map (fun t =>
      if t.handedAt = s.tick.count ∧ t.cause = was ∧ t.chain.contains c then { t with cause := BitVec.ofNat 3 cause } else t) })) s.freeBit.2

/-- A bound context without a fence hands over once a tick (R61, R68), what it holds with `give`; the first cause stands (R63). -/
def State.handOnce (give : State → State) (c cause : Nat) (s : State) : State :=
  let x := s.ctx c
  if !(x.st == .bound && x.bindLive && !x.fence) then s
  else if x.handed ≠ 0 then s.lowerHanded c cause
  else give s

/-- The context's work of the tick passes on with a cause, and the context has handed over. -/
def State.handAll (c cause : Nat) (s : State) : State := (s.onCtx c (fun x => { x with handed := BitVec.ofNat 3 cause })).handWork c cause

/-- A REALTIME context hands its work of the tick to its fallback (R59 to R61), not where it holds no work. A BESTEFFORT context waits (R67). -/
def State.handover (c cause : Nat) (s : State) : State :=
  onlyIf (s.ctx c).bind.realtime (State.handOnce (fun s => onlyIf (s.holds c) (State.handAll c cause) s) c cause) s

/-- A replica's route is the fallback (R137): the whole context hands over, in either mode (R61, R135). -/
def State.handRoute (c cause : Nat) (s : State) : State := s.handOnce (fun s => onlyIf (s.holds c) (State.handAll c cause) s) c cause

/-- At an edge, the whole tick that begins passes to the fallback (R370, R612, R621), with the work it already has. -/
def State.handTick (c cause : Nat) (s : State) : State :=
  onlyIf (s.ctx c).bind.realtime (State.handOnce (fun s =>
    if s.holds c then s.handAll c cause else s.onCtx c (fun x => { x with handed := BitVec.ofNat 3 cause })) c cause) s

/-- Work that joins a tick which the context has handed over passes on with it (R61); a miss counts in a REALTIME context (R64). -/
def State.joinHanded (t : Task) (s : State) : State :=
  let x := s.ctx t.ctx
  if x.handed ≠ 0 ∧ s.due t then ((onlyIf x.bind.realtime (State.countMiss t.ctx) s).passOn t.ctx x.handed.toNat t) else s

/-- Work that stays on a context's own path ends here where its tokens can no longer be had: a BESTEFFORT context's open
tasks are aborted, a REALTIME context hands over (R318, R610, R611). -/
def State.offUnit (cause c : Nat) (s : State) : State :=
  let x := s.ctx c
  if x.fence then s
  else if x.bind.realtime then s.handover c cause
  else each ((s.tasksOf c).filter (fun t => s.due t && t.unposted)) State.abortTask s

-- Fences of a context (R70, R506, R615, R628).

/-- Ends a context's Retouch runs; each completion carries the steps taken up (R230, R496). -/
def State.endRetouch (status c : Nat) (s : State) : State :=
  let rs := (s.ctx c).retouch.toList ++ (s.ctx c).retouchNext
  let s := s.onLiner (fun u => { u with engs := u.engs.map (fun p => (p.1, ({ p.2 with
    tile := p.2.tile.map (fun t => if t.ctx = c && t.retouch then { t with dead := true } else t) } : Engine).dropWaits
      (fun w => w.ctx == c && w.retouch))) }) |>.dropReaders (1025 + c)
  each rs (fun r s => s.complete r.cmd status r.taken 0 []) (s.onCtx c (fun x => { x with retouch := none, retouchNext := [] }))

/-- What the Fabric unit and Glaze hold for a context's pairs is discarded; its lines of Weave credit return (R70, R289, R294). -/
def State.dropStore (c : Nat) (s : State) : State :=
  let ps := (s.ctx c).sems
  let s := each (s.glaze.inq.filter (fun r => ps.contains r.pair && !r.asked)) (fun r s => s.returnLines r.port 3 (ceilDiv r.bytes.length 64)) s
  (s.onGlaze (fun g => { g with inq := g.inq.filter (fun r => !ps.contains r.pair) })).onFab (fun f => { f with
    entries := f.entries.filter (fun e => !ps.contains e.pair) })

/-- A fence token reaches every unit (R70, R71, R73): the fence bit is set, tokens fall to zero, queued work is
discarded, blocks not yet posted carry ABORTED, and what was handed to the context passes to frame repeat (R45). -/
def State.fenceCtx (c : Nat) (s : State) : State :=
  let s := s.onCtx c (fun x => { x with fence := true, tok := {} })
  let s := ((((s.stopUnits c).stopLoads c).cancelAll c).countCancel c)
  let s := each (s.tasksOf c) State.abortTask s
  let s := (s.endRetouch 2 c).dropPromos c
  let s := s.dropStore c
  handTogether (fun s => each (s.easel.tasks.filter (fun t => t.by_ == some (.ctx c))) (fun t s => s.giveTask t .frameRepeat t.chain 0) s) s

-- Fences of units (R607 to R616).

/-- Contexts that are bound and hold a map in use. -/
def State.boundIds (s : State) : List Nat := (s.easel.ctxs.filter (fun p => p.2.st == .bound && p.2.maps.live)).map (·.1)

/-- Every bound context, whether or not its first budget has taken effect. -/
def State.allBound (s : State) : List Nat := (s.easel.ctxs.filter (fun p => p.2.st == .bound || p.2.st == .closing)).map (·.1)

/-- The stack fences itself whole (R616): every unit and context, pumps off, one record, and no other completion. -/
def State.stackFence (a0 : Nat) (s : State) : State :=
  if s.easel.wholeFence then s
  else
    let s := s.unitFenced 0xFF a0
    let s := s.onEasel (fun e => { e with wholeFence := true })
    let s := each s.allBound State.fenceCtx s
    let s := s.onPanels (fun u => { u with
      panels := u.panels.map (fun p => (p.1, if p.2.st = .programming then { p.2 with st := .fenced, req := none } else p.2)),
      groups := (List.range 32).foldl (fun t g => modify {} g (fun x => { x with fenced := true, queue := [] }) t) u.groups })
    let s := s.onLiner (fun u => { u with
      engs := (List.range 16).foldl (fun t e => modify {} e (fun x => { x with fenced := true }) t) u.engs })
    let s := (s.onWp (fun w => { w with wFenced := true, pFenced := true })).onGlaze (fun g => { g with fenced := true })
    let s := (s.onPrimer (fun p => { p with fenced := true })).onSw (fun w => { w with swFenced := true, migFenced := true })
    let s := (s.onChest (fun c => { c with fenced := true })).onMover (fun m => { m with fenced := true })
    let s := (s.onFab (fun f => { f with fenced := true })).onBoot (fun b => { b with phase := 10 })
    s.onLink (fun l => { l with evtStat := l.evtStat ||| 4 })

/-- The panel is named by draining maps only: it is about to be released. -/
def State.onlyOld (s : State) (p : Nat) : Bool :=
  s.easel.ctxs.any (fun x => match x.2.maps.old with | some m => s.mapNames m p | none => false) &&
    !s.easel.ctxs.any (fun x => (x.2.maps.a.toList ++ x.2.maps.b.toList).any (fun m => s.mapNames m p))

/-- The source record of a panel that a spare rewrite follows (R180, R182): a slot's panel with one, in a group with a spare, and not of a draining
map alone. -/
def State.rewriteSrc (s : State) (p : Nat) : Option Src :=
  let x := s.panel p
  if x.slot.toNat < 16 ∧ !s.onlyOld p ∧ (s.spareOf (p / 17)).isSome ∧ !(s.group (p / 17)).fenced then x.src else none

/-- Fences one panel (R156, R611): its replicas take other routes, and a spare rewrite is queued for its group, also where 64 requests wait there
(R159, R180; log 94). -/
def State.fencePanel (p : Nat) (s : State) : State :=
  let src := s.rewriteSrc p
  let s := (s.onPanel p (fun x => { x with st := .fenced, req := none, pendCause := 0, verified := false, finish := false })).unitFenced (0x20 + p / 17) p
  let s := match src with
    | some r => s.onGroup (p / 17) (fun g => { g with queue := g.queue ++ [({ kind := 2, panel := p, src := r, cmd := none } : Req)] })
    | none => s
  s.reroute true

/-- Fences a panel group (R608, R611). -/
def State.fenceGroup (g : Nat) (s : State) : State :=
  if (s.group g).fenced then s
  else ((s.onGroup g (fun x => { x with fenced := true, vecs := [] })).unitFenced (0x20 + g) 0xFFFF).reroute true

/-- The context's map in use runs a Liner layer on the engine, or the engine runs its work; a Retouch tile never hands over (R228). -/
def State.onEngine (s : State) (c e : Nat) : Bool :=
  (s.workMap c).llayers.any (fun l => l.eset.getLsbD e) ||
    (match (s.eng e).tile with | some t => t.ctx == c && !t.retouch && !t.subst | none => false)

/-- Fences a Liner engine (R200, R611). -/
def State.fenceEngine (e : Nat) (s : State) : State :=
  if (s.eng e).fenced then s
  else
    let cs := s.boundIds.filter (fun c => s.onEngine c e)
    let s := (s.onEng e (fun x => { x with fenced := true, tile := none, waits := [], attn := [], phase := 0 })).unitFenced (0x50 + e) 0
    let s := s.onEveryCtx (fun _ x => { x with retouch := x.retouch.map (fun r =>
      if r.eset.getLsbD e then { r with spoiled := true } else r) })
    handTogether (fun s => each cs (State.offUnit 7) (s.reroute true)) s

/-- Palette banks that a map's dispatch entries name: those that hold them (R548), and the lists and PALETTE sides of
its streams (R421 to R423). -/
def CMap.banks (m : CMap) : List Nat :=
  m.pieces.map (·.1) ++ m.streams.map (fun d => hdrBits d 7 0) ++
    m.blocks.flatMap (fun b =>
      (if bits (fieldB b 0 32) 152 151 = 2 then [bits (fieldB b 0 32) 20 13] else []) ++
      (if bits (fieldB b 0 32) 154 153 = 2 then [bits (fieldB b 0 32) 84 77] else []))

/-- Fences a Palette bank (R319, R326, R611): it is held OFF, and contexts whose dispatch entries name it hand over. A
map bank takes the Swatch Map and Migration engine with it (R376), and so the stack. -/
def State.fenceBank (b : Nat) (s : State) : State :=
  if (s.bank b).fenced then s
  else
    let s := each (s.bank b).waiting (fun r => State.darkAccess r.unit) s
    let s := s.onBank b (fun x => { x with fenced := true, busy := false, clear := false, conv := none, convWait := none, waiting := [] })
    let s := s.onPal (fun p => if (p.tester.hold.map (·.1)) = some b then { p with tester := { p.tester with hold := none } } else p)
    let s := s.unitFenced 0 b
    if s.sw.mapBanks.contains b then
      ((s.onSw (fun w => { w with swFenced := true, migFenced := true })).unitFenced 6 0).stackFence 6
    else handTogether (fun s => each (s.boundIds.filter (fun c => (s.workMap c).banks.contains b)) (State.offUnit 7) s) s

/-- Completes a FAB_BROADCAST when every named worker is complete or failed (R591). -/
def State.bcastCheck (s : State) : State :=
  match s.fab.bcast with
  | none => s
  | some b =>
    let mask (xs : List Nat) : Nat := sumN (xs.map (fun d => 2 ^ d))
    if b.waiting.isEmpty && b.accepted.all (fun d => b.done.contains d || b.failed.contains d) then
      (s.onFab (fun f => { f with bcast := none })).complete b.cmd 0
        (mask (below 16 b.done.contains) + 65536 * mask (below 16 b.failed.contains)) 0 []
    else s

/-- A named worker has failed a broadcast (R590, R591, R602). -/
def State.bcastFail (d : Nat) (s : State) : State :=
  s.onFab (fun f => { f with bcast := f.bcast.map (fun b =>
    if b.named.contains d && !b.failed.contains d && !b.done.contains d && (b.waiting.contains d || b.accepted.contains d) then
      { b with failed := b.failed ++ [d], waiting := b.waiting.filter (· != d) } else b) })

/-- The manager fences one worker (R598, R599): its commands end, clean copies lent there are dropped, channels to it count as fenced
units. -/
def State.fenceWorker1 (d : Nat) (s : State) : State :=
  let bit : Half := BitVec.ofNat 16 (2 ^ d)
  let cmds := (s.fab.routed.filter (fun p => p.1 == d)).map (·.2)
  let s := s.onFab (fun f => { f with
    joined := f.joined &&& ~~~bit, spares := f.spares &&& ~~~bit, mask := f.mask ||| bit,
    routed := f.routed.filter (fun p => p.1 != d),
    rmt := if f.rmt.outstanding ∧ f.rmt.stack.toNat = d then { f.rmt with outstanding := false, done := true, status := 2 } else f.rmt })
  let there (port pos : Nat) : Bool := port * 4 + pos == d
  let s := s.onSw (fun w => { w with
    table := w.table.filter (fun p => !(p.2.t2 && there p.2.port p.2.pos && p.2.st == .resident && !p.2.homeEnt && !p.2.dirty)),
    pool2 := w.pool2.filter (fun p => !there p.1 p.2.1) })
  let s := s.unitFenced 9 d
  let s := each cmds (fun c s =>
    if hdrOp c.hdr = 0x30 ∨ hdrOp c.hdr = 0x31 ∨ hdrOp c.hdr = 0x50 then s.complete c 2 0 0 [] else s.notPerformed c) s
  let chans := (s.fab.chans.filter (fun p => p.2.getLsbD 31 && bits p.2.toNat 12 8 == d)).map (·.1)
  let s := handTogether (fun s => each (s.boundIds.filter (fun c => (s.workMap c).streams.any (fun t =>
    hdrBits t 53 53 == 1 && chans.contains (hdrBits t 52 45)))) (State.offUnit 7) s) s
  (s.bcastFail d).bcastCheck

/-- The manager fences a worker and every joined worker beyond it on its chain (R598). -/
def State.fenceWorker (d : Nat) (s : State) : State :=
  each ((List.range 16).filter (fun x => decide (x / 4 = d / 4 ∧ d ≤ x) && s.fab.joined.getLsbD x)) State.fenceWorker1 s

/-- Fences a unit of R609 by its code of R607: 2 Mover whole, 3 Pixel unit, 4 Warp unit, 5 Glaze, 6 Swatch Map and
Migration engine, 7 Primer, 8 Chest controller, 9 Fabric unit (R611, R616). -/
def State.fenceUnit (code : Nat) (s : State) : State :=
  match code with
  | 2 => if s.mover.fenced then s else ((s.onMover (fun m => { m with fenced := true })).unitFenced 2 0xFFFF).stackFence 2
  | 3 => if s.wp.pFenced then s else ((s.onWp (fun w => { w with pFenced := true })).unitFenced 3 0).stackFence 3
  | 4 => if s.wp.wFenced then s else ((s.onWp (fun w => { w with wFenced := true })).unitFenced 4 0).stackFence 4
  | 5 => if s.glaze.fenced then s else
      let s := each (s.glaze.inq.filter (fun r => !r.asked)) (fun r s => s.returnLines r.port 3 (ceilDiv r.bytes.length 64)) s
      let s := (s.onGlaze (fun g => { g with fenced := true, jobs := [], inq := [] })).unitFenced 5 0
      let s := handTogether (fun s => each (s.boundIds.filter (fun c => (s.workMap c).glaze.any (·.1))) (State.offUnit 7) s) s
      (each (List.range 16) State.bcastFail s).bcastCheck
  | 6 => if s.sw.migFenced then s else
      ((s.onSw (fun w => { w with swFenced := true, migFenced := true })).unitFenced 6 0).stackFence 6
  | 7 => if s.primer.fenced then s else
      each (List.range 32) State.fenceGroup ((s.onPrimer (fun p => { p with fenced := true })).unitFenced 7 0)
  | 8 => if s.chest.fenced then s else (s.onChest (fun c => { c with fenced := true })).unitFenced 8 0
  | 9 => if s.fab.fenced then s else
      let s := (s.onFab (fun f => { f with fenced := true })).unitFenced 9 0
      if s.manager then each (List.range 16) (fun d s => if s.fab.joined.getLsbD d then s.fenceWorker1 d else s) s
      else s.stackFence 9
  | _ => s

/-- Fences one Mover channel (R444, R609); the ninth takes the whole Mover. -/
def State.fenceChannel (q : Nat) (s : State) : State :=
  if (s.queue q).fenced then s
  else
    let s := (s.onQueue q (fun x => { x with fenced := true })).unitFenced 2 q
    if 9 ≤ (s.mover.queues.filter (fun p => p.2.fenced)).length then s.fenceUnit 2 else s

/-- A mid-stream fault of a task (R445): the Mover's and the units' work of the task is discarded and its unposted blocks
carry ABORTED; no fallback runs. -/
def State.faultTask (t : Task) (s : State) : State :=
  (((s.stopUnits t.ctx).cancelRuns t.ctx).countCancel t.ctx).abortTask t

/-- Counts and reports a mid-stream fault (R447). -/
def State.streamFault (c cause : Nat) (s : State) : State :=
  ((s.onCtx c (fun x => { x with cnt := { x.cnt with
    movFault := satInc x.cnt.movFault, movCause := BitVec.ofNat 4 cause } })).onMover
      (fun m => { m with faultEvent := true })).raise c c 5 cause s.tick.count.toNat

end Sys2Proof.Machine
end

