-- ==== Sys2Proof/WellFormed.lean ====
section
/-! DEFINITION. Operands that the rows may carry: the ranges that the spec gives the things they name. The meanings are total; these
checks say which rows a sender or the environment can bring about. -/

namespace Sys2Proof

/-- A context ID (R502). -/
def ctxOk (c : Nat) : Bool := decide (c < 1024)
/-- A ring number (R465). -/
def ringOk (r : Nat) : Bool := decide (r < 32768)
/-- A Palette bank (R297). -/
def bankOk (b : Nat) : Bool := decide (b < 256)
/-- A line of a bank (R297). -/
def lineOk (l : Nat) : Bool := decide (l < 8192)
/-- A panel group (R78). -/
def groupOk (g : Nat) : Bool := decide (g < 32)
/-- A physical panel (R112). -/
def panelOk (p : Nat) : Bool := decide (p < 544)
/-- A Liner engine (R188). -/
def engOk (e : Nat) : Bool := decide (e < 16)
/-- A Mover queue (R415). -/
def queueOk (q : Nat) : Bool := decide (q < 64)
/-- A worker's stack address (R566). -/
def workerOk (d : Nat) : Bool := decide (d < 16)
/-- A fabric port (R569). -/
def portOk (p : Nat) : Bool := decide (p < 4)
/-- An object ID (R340). -/
def objOk (o : Nat) : Bool := decide (o < 2 ^ 20)
/-- A swatch index (R340). -/
def idxOk (i : Nat) : Bool := decide (i < 2 ^ 30)
/-- A frame number (R513). -/
def frameOk (f : Nat) : Bool := decide (f < 2 ^ 32)
/-- A command packet: whole payload slots, at most 2^17 − 1 of them (R469). -/
def Packet.wf (p : Packet) : Bool := ringOk p.ring && decide (p.payload.length % 64 = 0 ∧ p.payload.length < 64 * 2 ^ 17)
/-- A module (R7). -/
def ModId.wf : ModId → Bool
  | .hl n => decide (n < 2)
  | .fab p => portOk p
/-- A packet-layer link. -/
def LinkId.wf : LinkId → Bool
  | .host => true
  | .fab p => portOk p
/-- A stack address, the manager's or a broadcast's (R566). -/
def stackOk (d : Nat) : Bool := workerOk d || d == 16 || d == 31
/-- A received Weave frame (R571). -/
def Wrx.wf (w : Wrx) : Bool := portOk w.port && stackOk w.src && stackOk w.dst
/-- The codes of a sub-strike (R88). -/
def SubCodes.wf (c : SubCodes) : Bool := decide (c.data.length = 256 ∧ c.chk.length = 32)
/-- The codes of a panel's sub-strikes: at most eight, for 1,024 active rows at the narrowest window (R74, R90). -/
def SegStrike.wf (g : SegStrike) : Bool := decide (g.subs.length ≤ 8) && g.subs.all SubCodes.wf
/-- A byte address in Palette (R297). -/
def palOk (a : Nat) : Bool := decide (a < 2 ^ 27)
/-- A replica's share of a strike: at most 16,384 rows (R82), addresses within the Palette, counted in half bytes. -/
def StrikePart.wf (p : StrikePart) : Bool :=
  decide (p.layer < 1024 ∧ p.replica < 16 ∧ p.src.length ≤ 16384) && p.src.all (fun a => palOk (a / 2)) && palOk p.dst &&
    p.segs.all SegStrike.wf
/-- The task of a unit's work. -/
def Work.wf (w : Work) : Bool := ctxOk w.owner && frameOk w.frame && decide (w.part < 256)
/-- A context's candidate strike. -/
def StrikeCand.wf (c : StrikeCand) : Bool := ctxOk c.ctx && c.parts.all StrikePart.wf
/-- A panel's probe (R126). -/
def ProbeRead.wf (r : ProbeRead) : Bool := panelOk r.panel && r.codes.wf
/-- A line of an engine's scratch (R193). -/
def scratchOk (l : Nat) : Bool := decide (l < 32768)
/-- A place in an engine's scratch, by bytes (R193). -/
def scratchAt (a : Nat) : Bool := decide (a < 2 ^ 21)
/-- An output of a tile: its weights and activations lie in scratch, and it goes to Palette. -/
def TileCol.wf (c : TileCol) : Bool := scratchAt c.w && scratchAt c.a && palOk c.dst
/-- A query of an attention tile. -/
def AttnQuery.wf (q : AttnQuery) : Bool := scratchAt q.q && palOk q.dst
/-- A tile that may start (R194): what it loads lies in Palette and goes to scratch, its outputs go from there to Palette, and an attention tile
takes at most 64 queries against one key block of at most 64 keys (R213). -/
def TileCand.wf (k : TileCand) : Bool :=
  ctxOk k.ctx && k.work.wf && k.loads.all (fun p => decide (p.1 < 2 ^ 21) && scratchOk p.2) && k.stateLoads.all (fun p => scratchOk p.2) &&
    k.outs.all TileCol.wf && k.queries.all AttnQuery.wf && decide (k.queries.length ≤ 64 ∧ k.block.keys ≤ 64 ∧ k.out < 16) &&
    scratchAt k.block.k && scratchAt k.block.v
/-- Bits of a scratch line that flipped (R200). -/
def upsetOk : Option (Nat × Line) → Bool
  | some u => scratchOk u.1
  | none => true
/-- A request to a bank (R301): a unit and its agent, and a line of the bank. -/
def PalReq.wf (r : PalReq) : Bool := decide (r.unit < 256 ∧ r.agent < 256) && lineOk r.line && ctxOk r.ctx
/-- A port-B access of the Window (R331): one of its 2^18 words (R327). -/
def PortB.wf (b : PortB) : Bool := decide (b.word < 2 ^ 18)

/-- Reference codes of a trim extraction (R154): at each of four windows a SPAN strike for every row block and 64 ZERO strikes. -/
def refsOk (refs : List (List (Byte × Byte))) : Bool := decide (refs.map (·.length) = [72, 68, 66, 65])

/-- What a read of so many pages may find: four codewords a page (R381), at most 7 retry steps each time a page is read (R396). -/
def ReadFinding.wf (pages : Nat) (f : ReadFinding) : Bool := decide (f.bits.length ≤ 4 * pages ∧ f.retries ≤ 7 * pages)
/-- Bytes of a space of the Plan chest (R384): 16 GiB of user space, 256 MiB of system space. -/
def chestOk (sys : Bool) (addr n : Nat) : Bool := decide (addr + n ≤ if sys then 2 ^ 28 else 2 ^ 34)

/-- The row's operands lie in the ranges of the things they name. -/
def Instr.wf : Instr → Bool
  | .tick hl _ | .linkManagementRequest hl | .sidebandMessageIgnored hl _ _ | .wake hl _ _ _ => decide (hl < 2)
  | .creditWaitExpiry unit ctx _ => decide (unit < 256) && ctxOk ctx
  | .creditReturn ctx pair => ctxOk ctx && decide (pair < 256)
  | .strikeIssue group cands _ _ => groupOk group && cands.all StrikeCand.wf
  | .probeStrike group cands reads => groupOk group && cands.all StrikeCand.wf && reads.all ProbeRead.wf
  | .tileStart eng cands => engOk eng && cands.all TileCand.wf
  | .tileEnd eng _ upset => engOk eng && upsetOk upset
  | .loadPhaseComplete eng _ upset => engOk eng && upsetOk upset
  | .swwaitExpiry eng ctx _ => engOk eng && ctxOk ctx
  | .retouchStepDone ctx _ | .abortCompletion ctx => ctxOk ctx
  | .warpJob ctx work inp => ctxOk ctx && work.wf && decide (inp.plane < 3) && palOk inp.grid && palOk inp.dst
  | .payloadUnpack ctx frame slice _ _ dst acts =>
    ctxOk ctx && frameOk frame && decide (slice < 256) && dst.all palOk && palOk acts
  | .pack ctx frame slice _ _ _ _ out acts _ => ctxOk ctx && frameOk frame && decide (slice < 256 ∧ out < 16) && acts.all palOk
  | .completionPost ring | .produce ring _ | .consume ring _ | .enable ring | .disable ring => ringOk ring
  | .compressBlock lane | .expandBlock lane => decide (lane < 8)
  | .palAccess bank reqs => bankOk bank && reqs.all PalReq.wf
  | .palBankOwner writer bank _ => decide (writer < 256) && bankOk bank
  | .bankHandoverDone bank | .bankClearDone bank | .conversionDone bank | .lendBankReturn bank | .dispatchReinstallDone bank => bankOk bank
  | .swatchAccess requester ctx obj off _ _ => decide (requester < 256 ∧ off < 2 ^ 44) && ctxOk ctx && objOk obj
  | .fillDone obj idx _ _ | .writebackDone obj idx | .readTimeout obj idx | .refetchDone obj idx _ _ => objOk obj && idxOk idx
  | .chestWriteDone quad _ page failed => decide (quad < 8 ∧ page < 64) && failed.all (fun i => decide (i < 4))
  | .chestRead addr sys find => chestOk sys addr 1 && find.wf 4
  | .chestWrite addr sys data ctx => chestOk sys addr data.length && ctxOk ctx
  | .relocation set finds => decide (set < 20480) && finds.all (ReadFinding.wf 4)
  | .refreshScan find | .read find => find.wf 1
  | .blockEraseDone _ failed => failed.all (fun i => decide (i < 4))
  | .suspendedResume plane => decide (plane < 32)
  | .transferIssue queue _ | .transferRetire queue _ _ | .cancel queue | .cancelComplete queue => queueOk queue
  | .arm queue desc => queueOk queue && decide (desc < 1024)
  | .moduleActive m _ | .trainingTimeout m | .trainingRetry m | .vddqLoss m | .vddqReturn m => m.wf
  | .ack link _ _ _ | .nak link _ _ | .replayTimeout link _ => link.wf
  | .cwr _ off _ _ portB => decide (off < 2 ^ 24) && portB.all PortB.wf
  | .crd _ off _ portB => decide (off < 2 ^ 24) && portB.all PortB.wf
  | .unsupported p | .ctxOpen p | .ctxBind p | .ctxClose p | .objDefine p | .objDefineUndef p | .objWrite p _ | .objRead p _ | .objPlace p
  | .modelStage p _ | .modelSwitch p | .panelProgram p | .panelReprime p | .runSlice p _ | .runFrame p _ | .abort p _ | .tickConfig p
  | .calControlSet p | .calControlMark p | .calControlClear p | .retouch p | .fabJoin p | .fabBroadcast p _ | .powerActive p | .powerHold p
  | .powerDoze p | .powerRest p | .powerOff p | .fwStage p | .fwActivate p _ | .clamps p | .palCheck p | .winCheck p _ | .service p
  | .swatch p | .sem p | .events p | .attest p | .diagUndefinedFunc p => p.wf
  | .chestRaw p find _ => p.wf && find.wf 1
  | .programStart group _ _ => groupOk group
  | .programComplete group _ _ _ refs => groupOk group && refsOk refs
  | .enum w | .enumReply w | .cmd w | .cpl w | .rmt w | .rmtReply w | .bcastStart w | .shard w | .shardAck w | .shardNack w | .bcastEnd w
  | .entry w | .entryCredit w | .glzAck w | .glzResend w | .tierRd w | .tierWr w | .heartbeat w | .undefinedKindFrame w _ _ => w.wf
  | .tierRdc w obj idx | .tierWrack w obj idx => w.wf && objOk obj && idxOk idx
  | .bcastFail w _ => match w with | some w => w.wf | none => true
  | .enumTimeout port => portOk port
  | .bcastStartTimeout d | .fabRoute d _ | .heartbeatLoss d => workerOk d
  | .hopDownTimeout port pos => decide (port < 4 ∧ pos < 4)
  | .helperWatchdog unit _ => decide (2 ≤ unit ∧ unit ≤ 9)
  | .registerWrite _ off _ => decide (off < 2 ^ 24 ∧ off % 4 = 0)
  | .tickBumpEdge _ _ | .internalTimer | .synthesisedEdge | .registeredEdge _ _ | .sliceBoundary | .sourceLineFill _ _ | .classicalBlock _ _ _
  | .eventRecordPost | .palCommit | .testerChunk _ _ | .rawWrite | .rawRead | .winCommit | .winBusyExpiry | .moveStart
  | .xipFetch _ _ _ | .readRaw | .program _ | .erase _ | .blankCheck _
  | .chsCommit | .movSemSig _ | .movCommit | .resetNDeassert _ _ | .mrdc _ _ _ | .linkDownTimeout | .linkLossTimeout | .hlkUrgDb _
  | .hlkCommit | .tckCommit | .prmCommit | .fwSwap _ | .selfTestDone _ | .confirmWindowExpiry | .keyExpansionDone | .slotDigestDone
  | .remoteRead | .remoteWrite | .shardTimeout _ | .fabCommit | .heartbeatSend | .sensorSample _ | .refclkLoss | .coldReset _ _ | .start _
  | .recoveryGo _ | .watchdogExpiry | .easWdog _ | .wakeBump _ _ _ _ | .wakeTimer _ _ | .easelResume _ | .allowanceGain | .trimSave
  | .glzCommit | .migCommit | .flWpNChange _ | .jtagTckEdge _ _ | .trstNAssert | .poweredHour => true

end Sys2Proof
end

