-- ==== Sys2Proof/Machine/Chest.lean ====
section
/-! DEFINITION. The Plan chest (R380 to R414): units and the translation layer, bad blocks and the spare pool, relocation and
the refresh scan, execute in place, raw commands of service mode. -/

namespace Sys2Proof.Machine

/-- Bytes of a map unit (R384). -/
def unitBytes : Nat := 16384

/-- Key of a map unit: user units from 0, system units from 2^20. -/
def unitKey (sys : Bool) (addr : Nat) : Nat := (if sys then 2 ^ 20 else 0) + addr / unitBytes

/-- The four blocks of a block set: block bs of planes 4q to 4q + 3 (R387). -/
def setBlocks (q bs : Nat) : List Nat := (List.range 4).map (fun i => (4 * q + i) * 2560 + bs)

/-- A block set's number, and back. -/
def setNo (q bs : Nat) : Nat := q * 2560 + bs

/-- The block lies in the slot regions: blocks 0 to 127 of planes 0 and 1 (R386). -/
def slotBlock (b : Nat) : Bool := decide (b < 128 ∨ (2560 ≤ b ∧ b < 2560 + 128))

/-- A block's record. -/
def Flash.block (f : Flash) (b : Nat) : BlockInfo := look {} f.blocks b
/-- Changes the blocks listed. -/
def Flash.onBlocks (f : Flash) (bs : List Nat) (g : BlockInfo → BlockInfo) : Flash :=
  { f with blocks := bs.foldl (fun t b => modify {} b g t) f.blocks }

/-- Map changes written to the journal, a full checkpoint at every 65,536th record (R388). -/
def Flash.journalled (n : Nat) (f : Flash) : Flash :=
  { f with journal := f.journal + n, checkpoints := f.checkpoints + ((f.journal + n) / 65536 - f.journal / 65536) }

/-- Changes what the Plan chest keeps. -/
def State.onFlash (g : Flash → Flash) (s : State) : State := s.onChest (fun c => { c with flash := g c.flash })

/-- What a Plan chest keeps over a reset (R389, R712). -/
def Chest.kept (c : Chest) : Chest := { flash := c.flash, recs := c.recs, panelRec := c.panelRec, trimRec := c.trimRec }

-- Data (R389 to R392).

/-- The stored bytes of a unit (R386, R392): what has been written, what the part was shipped with, or zeros. -/
def Flash.unit (f : Flash) (u : Nat) : List Byte :=
  if u < 2 ^ 20 then getBytes f.user (u * unitBytes) unitBytes
  else
    let a := (u - 2 ^ 20) * unitBytes
    if f.own.any (fun p => p.1 == u - 2 ^ 20) then getBytes f.sys a unitBytes
    else if 0x04000000 ≤ a ∧ a < 0x04144000 then (List.range unitBytes).map (fun i => Config.shipped (a + i))
    else List.replicate unitBytes 0

/-- Stores the bytes of a unit. -/
def Flash.putUnit (u : Nat) (data : List Byte) (f : Flash) : Flash :=
  if u < 2 ^ 20 then { f with user := putBytes (u * unitBytes) data f.user }
  else { f with
    sys := putBytes ((u - 2 ^ 20) * unitBytes) data f.sys
    own := putRaw (u - 2 ^ 20) (f.seq + 1) f.own }

/-- The four pages of a place: page pg of each block of a set (R387). -/
def placePages (p : Nat × Nat × Nat) : List Nat := (setBlocks p.1 p.2.1).map (fun b => b * 64 + p.2.2)

/-- The pages that hold a unit keep their bytes when the unit leaves them, until their blocks are erased. -/
def Flash.retire (u : Nat) (f : Flash) : Flash :=
  match f.places.find? (fun p => p.1 == u) with
  | none => f
  | some (_, p) =>
    let d := f.unit u
    { f with
      raw := ((placePages p).zip (List.range 4)).foldl (fun t x => putRaw x.1 ((d.drop (4096 * x.2)).take 4096) t) f.raw
      places := f.places.filter (fun x => x.1 != u) }

/-- A unit's pages are programmed at a place, with the next write sequence number (R381), and its map entry is journalled. -/
def Flash.settleAt (u : Nat) (p : Nat × Nat × Nat) (f : Flash) : Flash :=
  ({ f with
    places := putRaw u p f.places
    seq := f.seq + 1
    meta_ := ((placePages p).zip (List.range 4)).foldl (fun t x => putRaw x.1 (u, x.2, f.seq + 1) t) f.meta_ } : Flash).journalled 1

/-- A byte of a record that Easel keeps in system space (R386), `b` what the unit holds besides: the later of the two writes stands. -/
def Chest.recByte (c : Chest) (a : Nat) (b : Byte) : Byte :=
  let last := look 0 c.flash.own (a / unitBytes)
  if 0x04140000 ≤ a ∧ a < 0x04180000 then
    match c.recs.find? (fun r => r.1 == (a - 0x04140000) / 64) with
    | some (_, n, l) => if n < last then b else (lineBytes l).getD (a % 64) 0
    | none => b
  else if 0x04180000 ≤ a ∧ a < 0x05180000 then (if c.panelRec.1 = 0 ∨ c.panelRec.2 < last then b else Config.recordByte c.panelRec.1 a)
  else if 0x05180000 ≤ a ∧ a < 0x05580000 then (if c.trimRec.1 = 0 ∨ c.trimRec.2 < last then b else Config.recordByte c.trimRec.1 a)
  else b

/-- The stored bytes of a unit with the records that Easel keeps. -/
def Chest.stored (c : Chest) (u : Nat) : List Byte :=
  if u < 2 ^ 20 then c.flash.unit u
  else ((List.range unitBytes).zip (c.flash.unit u)).map (fun p => c.recByte ((u - 2 ^ 20) * unitBytes + p.1) p.2)

/-- Easel writes its records in the PANEL region (R386). -/
def State.recPanels (s : State) : State := s.onChest (fun c => { c with panelRec := (c.panelRec.1 + 1, c.flash.seq) })
/-- Easel writes the trims in the TRIMS region. -/
def State.recTrims (s : State) : State := s.onChest (fun c => { c with trimRec := (c.trimRec.1 + 1, c.flash.seq) })

/-- A unit as reads see it: the last write accepted (R391). -/
def Chest.unit (c : Chest) (u : Nat) : List Byte :=
  match c.buffer.reverse.find? (fun w => w.unit == u) with
  | some w => w.data
  | none => c.stored u

/-- Bytes of a space as reads see them. -/
def Chest.bytes (c : Chest) (sys : Bool) (addr n : Nat) : List Byte :=
  let units := (List.range ((addr + n + unitBytes - 1) / unitBytes - addr / unitBytes)).map (fun i => unitKey sys addr + i)
  ((units.flatMap c.unit).drop (addr % unitBytes)).take n

/-- A unit of the range is lost (R396). -/
def Chest.lostIn (c : Chest) (sys : Bool) (addr n : Nat) : Bool :=
  (List.range ((addr + n + unitBytes - 1) / unitBytes - addr / unitBytes)).any (fun i => c.flash.lost.contains (unitKey sys addr + i))

/-- Writes are performed (R399, R611). -/
def State.chestWritable (s : State) : Bool := !s.chest.readonly_ && !s.chest.fenced

/-- The region is protected by FL_WP_N: KEYS and FUSE_SHADOW of system space (R386). -/
def protectedAddr (sys : Bool) (addr : Nat) : Bool := sys && decide (0x04000000 ≤ addr ∧ addr < 0x04140000)

/-- A program or erase refused by FL_WP_N (R400). -/
def State.wpRefuse (c : Nat) (s : State) : State :=
  (s.onChest (fun k => { k with wpRefused := satInc k.wpRefused })).onCtx c (fun x => { x with clampCnt := satInc x.clampCnt })

/-- REFRESH_T in effect (R414). -/
def Chest.refreshT (c : Chest) : Nat := clampN 1 40 c.eff.refreshT.toNat
/-- RDLIMIT in effect, in reads. -/
def Chest.rdLimit (c : Chest) : Nat := max 1 c.eff.rdlimit.toNat * 100000

/-- Queues a relocation once (R394); one asked for because a block has gone bad takes the place of another (R396). -/
def State.queueReloc (set kind : Nat) (s : State) : State :=
  s.onChest (fun c =>
    let raised := c.reloc.map (fun r => if r.1 = set ∧ kind = 2 then (set, 2) else r)
    { c with reloc := if c.reloc.any (fun r => r.1 == set) then raised else c.reloc ++ [(set, kind)] })

/-- The block set of a block. -/
def setOf (b : Nat) : Nat := setNo (b / 2560 / 4) (b % 2560)

/-- Page reads of blocks count (R394); at the limit the valid units of the block are relocated; the slots are not translated (R386). -/
def State.countPages (bs : List Nat) (s : State) : State :=
  let s := s.onFlash (fun t => t.onBlocks bs (fun b => { b with reads := b.reads + 1 }))
  each (bs.filter (fun b => !slotBlock b && decide (s.chest.rdLimit ≤ (s.chest.flash.block b).reads))) (fun b s => s.queueReloc (setOf b) 0) s

/-- The pages of a unit are read at its place, if it has one. -/
def State.countUnit (u : Nat) (s : State) : State :=
  match s.chest.flash.places.find? (fun p => p.1 == u) with
  | some (_, q, bs, _) => s.countPages (setBlocks q bs)
  | none => s

/-- A write accepted: each unit it touches is merged into the write buffer (R390, R391, R398). -/
def State.chestPut (sys : Bool) (addr : Nat) (data : List Byte) (ctx : Nat) (s : State) : State :=
  each (List.range ((addr + data.length + unitBytes - 1) / unitBytes - addr / unitBytes)) (fun i s =>
    let u := unitKey sys addr + i
    let base := (addr / unitBytes + i) * unitBytes
    let lo := max addr base
    let hi := min (addr + data.length) (base + unitBytes)
    let old := s.chest.unit u
    let new := old.take (lo - base) ++ (data.drop (lo - addr)).take (hi - lo) ++ old.drop (hi - base)
    s.onChest (fun c => { c with buffer := c.buffer ++ [{ sys := sys, unit := u, data := new, ctx := ctx, whole := hi - lo == unitBytes }] })) s

/-- The units of a range of user space read as zeros again (R392). -/
def State.chestClear (addr n : Nat) (s : State) : State :=
  let us := (List.range ((addr + n + unitBytes - 1) / unitBytes - addr / unitBytes)).map (fun i => addr / unitBytes + i)
  s.onChest (fun c => { c with
    buffer := c.buffer.filter (fun w => !us.contains w.unit)
    flash :=
      let held := us.filter (fun u => c.flash.places.any (fun p => p.1 == u))
      let f := held.foldl (fun f u => f.retire u) c.flash
      ({ f with
        user := f.user.filter (fun p => !us.contains (p.1 / unitBytes)), lost := f.lost.filter (fun u => !us.contains u),
        order := f.order.filter (fun u => !us.contains u) } : Flash).journalled held.length })

/-- Writes accepted since the buffer held n units are those of a command or an acknowledgement that waits for them (R389). -/
def State.markWrites (n mark : Nat) (s : State) : State :=
  s.onChest (fun c => { c with buffer := c.buffer.take n ++ (c.buffer.drop n).map (fun b => { b with by_ := mark }) })

/-- CHEST_WRITE (R389): a write is accepted for programming at a new place; it is not performed on a read-only Plan chest
(R399), and refused where FL_WP_N protects the region (R400). -/
def execChestWrite (addr : Nat) (sys : Bool) (data : List Byte) (ctx : Nat) (s : State) : Host.Outcome State Fault Refusal :=
  .next (onlyIf (s.up && s.chest.ready && s.chestWritable && chestOk sys addr data.length) (fun s =>
    if protectedAddr sys addr && s.pins.flWp then s.wpRefuse ctx else s.chestPut sys addr data ctx) s)

-- The spare pool (R396 to R399).

/-- The spare pool falls below a threshold (R399). -/
def State.spareCheck (s : State) : State :=
  let n := s.chest.flash.spare
  let s := if n < 2048 ∧ !s.chest.lowSpare then (s.onChest (fun c => { c with lowSpare := true })).raise 0 0 6 n 0 else s
  if n < 512 ∧ !s.chest.readonly_ then (s.onChest (fun c => { c with readonly_ := true })).raise 0 0 7 n 0 else s

/-- Blocks join the grown bad-block table, and as many leave the spare pool in their place (R396, R398). -/
def State.growBad (bs : List Nat) (s : State) : State :=
  let new := bs.filter (fun b => !(s.chest.flash.block b).bad)
  (s.onFlash (fun f => { f.onBlocks new (fun b => { b with bad := true }) with
    grown := f.grown + new.length, spare := f.spare - new.length })).spareCheck

/-- The blocks of a set by their numbers in it. -/
def someBlocks (bs : List Nat) (is : List Nat) : List Nat := is.eraseDups.filterMap (fun i => bs[i]?)

/-- WRBUSY in effect (R414). -/
def Chest.wrBusy (c : Chest) : Nat := clampN 1 32 c.eff.wrbusy.toNat
/-- A place is left for another plane to program or erase, and none of the quad erases (R403). -/
def Chest.planeRoom (c : Chest) (quad : Nat) : Bool := decide (c.busy.length < c.wrBusy) && c.busy.all (fun p => p / 4 != quad)
/-- Erase count of a block set: that of its block most often erased. -/
def Flash.setErases (f : Flash) (set : Nat) : Nat := (setBlocks (set / 2560) (set % 2560)).foldl (fun a b => max a (f.block b).erases) 0
/-- A block that may hold units: in no slot, in neither bad-block table. -/
def Flash.usable (f : Flash) (b : Nat) : Bool := !slotBlock b && !(f.block b).bad && !f.factory.contains b
/-- Every block of the set may hold units and is erased. -/
def Flash.erasedSet (f : Flash) (k : Nat) : Bool := (setBlocks (k / 2560) (k % 2560)).all (fun b => f.usable b && (f.block b).pages.isEmpty)

/-- The planes of a quad erase, as many at once as WRBUSY leaves room for (R403). -/
def Chest.beginErase (c : Chest) (quad : Nat) : Chest :=
  { c with busy := c.busy ++ ((List.range 4).map (fun i => 4 * quad + i)).take (c.wrBusy - c.busy.length) }

/-- The erased block set with the lowest erase count (R393): blocks not listed have never been erased. -/
def Flash.freshSet (f : Flash) : Option Nat :=
  let best := ((f.blocks.map (fun p => setOf p.1)).filter f.erasedSet).foldl (fun (a : Option Nat) k =>
    match a with | none => some k | some x => some (if f.setErases k < f.setErases x then k else x)) none
  match (List.range 20480).find? (fun k => f.erasedSet k && f.setErases k == 0) with
  | some k => some k
  | none => best

/-- CHEST_WRITE_DONE (R389, R393, R398, R403): the program of the oldest unit in the write buffer ends at a place; a block set not yet
written is an erased one of the lowest erase count. Verified, the unit is durable and journalled; the blocks that failed, by plane of the
quad, join the grown table and the unit is programmed again. A unit written in part has been read (R390, R394). -/
def State.chestWriteDone (quad blockSet page : Nat) (failed : List Nat) (s : State) : State :=
  match s.chest.buffer with
    | [] => s
    | w :: rest =>
      let bs := setBlocks quad blockSet
      let legal := decide (quad < 8) && decide (blockSet < 2560) && decide (page < 64) && s.chest.planeRoom quad && bs.all (fun b =>
        s.chest.flash.usable b && !(s.chest.flash.block b).pages.contains page)
      let opened := (s.chest.flash.block (bs.headD 0)).pages.isEmpty
      let lowest := !opened || s.chest.flash.freshSet.all (fun k => decide (s.chest.flash.setErases (setNo quad blockSet) ≤ s.chest.flash.setErases k))
      onlyIf (s.up && legal && lowest) (fun s =>
        let s := s.onFlash (fun f => { f.onBlocks bs (fun b => { b with pages := b.pages ++ [page] }) with
          free := if opened then f.free - 4 else f.free })
        let s := if w.whole then s else s.countUnit w.unit
        if failed.isEmpty then
          s.onChest (fun c => { c with
            buffer := rest
            flash :=
              let f := ((c.flash.retire w.unit).putUnit w.unit w.data).settleAt w.unit (quad, blockSet, page)
              { f with
                lost := if w.whole then f.lost.filter (· != w.unit) else f.lost
                order := f.order.filter (· != w.unit) ++ [w.unit] } })
        else (s.growBad (someBlocks bs failed)).onChest (fun c => { c with
          buffer := { w with failed := true } :: rest, reloc := c.reloc ++ [(setNo quad blockSet, 2)] })) s

/-- Posts the completions of commands whose units are all durable (R389, R496). -/
def State.durable (s : State) : State :=
  let done := s.chest.waits.filter (fun w => s.chest.buffer.all (fun b => b.by_ != w.1.seq))
  each done (fun w s => (s.onChest (fun c => { c with waits := c.waits.filter (fun x => x.1.seq != w.1.seq) })).complete w.1 0 w.2 0 []) s

/-- Sends the TIER_WRACKs whose units are all durable (R389, R596). -/
def State.sendWracks (s : State) : State :=
  let done := s.chest.wracks.filter (fun w => s.chest.buffer.all (fun b => b.by_ != w.1))
  each done (fun w s => (s.onChest (fun c => { c with wracks := c.wracks.filter (fun x => x.1 != w.1) })).weave w.2.1 0x43 4 w.2.2.1 w.2.2.2 []) s

-- Reads (R391, R394, R396).

/-- Highest count of corrected bits in a codeword. -/
def maxBits (f : ReadFinding) : Nat := f.bits.foldl max 0

/-- The pages, by their numbers in the unit read, with a codeword of more than 40 error bits that no retry step corrected (R396). -/
def failPages (f : ReadFinding) : List Nat :=
  (((List.range f.bits.length).zip f.bits).filterMap (fun p => if 40 < p.2 then some (p.1 / 4) else none)).eraseDups

/-- Counts what a read found (R414), a page taking up to 7 retry steps (R396). -/
def State.countRead (f : ReadFinding) (s : State) : State :=
  s.onChest (fun c => { c with
    corr := c.corr + BitVec.ofNat 32 (f.bits.filter (fun b => decide (0 < b ∧ b ≤ 40))).length
    retries := c.retries + BitVec.ofNat 32 (min f.retries (7 * ceilDiv f.bits.length 4)) })

/-- An uncorrectable read (R396). -/
def State.uncorrectable (s : State) : State := s.onChest (fun c => { c with uncorr := satInc c.uncorr, uncorrEvent := true })

/-- Erases that a read of a quad suspends (R404). -/
def Chest.suspendQuad (c : Chest) (q : Nat) : Chest :=
  { c with suspended := c.suspended ++ (c.busy.filter (fun p => p / 4 == q && !c.suspended.contains p)) }

/-- A read of a unit in a block set fails (R396): the unit is lost, the failing blocks join the grown table, and the set's other units are
relocated. -/
def State.loseUnit (u quad bs : Nat) (blocks : List Nat) (s : State) : State :=
  (((s.uncorrectable).onFlash (fun t => if t.lost.contains u then t else ({ t with lost := t.lost ++ [u] } : Flash).journalled 1)).growBad
    blocks).queueReloc (setNo quad bs) 2

/-- A unit is read at a place: its page reads count (R394), corrected bits, an uncorrectable codeword (R396); more than REFRESH_T corrected bits
queue a relocation (R394). -/
def State.readAt (u q bs : Nat) (f : ReadFinding) (s : State) : State :=
  let s := (s.countRead f).countPages (setBlocks q bs)
  if !(failPages f).isEmpty then s.loseUnit u q bs (someBlocks (setBlocks q bs) (failPages f))
  else if s.chest.refreshT < maxBits f then s.queueReloc (setNo q bs) 1
  else s

/-- One read of a unit by a requester: a lost one is uncorrectable at once (R396), one never written needs no page (R392). -/
def State.readUnit (u : Nat) (f : ReadFinding) (s : State) : State :=
  if s.chest.flash.lost.contains u then s.uncorrectable
  else match s.chest.flash.places.find? (fun p => p.1 == u) with
    | none => s
    | some (_, q, bs, _) => (s.onChest (fun c => c.suspendQuad q)).readAt u q bs f

/-- CHEST_READ (R391): the controller reads one map unit; a unit never written, or still in the write buffer, needs no page. -/
def execChestRead (addr : Nat) (sys : Bool) (find : ReadFinding) (s : State) : Host.Outcome State Fault Refusal :=
  .next (onlyIf (s.up && s.chest.ready && !s.chest.fenced && chestOk sys addr 1)
    (fun s => if s.chest.buffer.any (fun w => w.unit == unitKey sys addr) then s else s.readUnit (unitKey sys addr) find) s)

-- Relocation and scans (R393 to R395).

/-- Units placed in a block set, in page order. -/
def Flash.unitsIn (f : Flash) (set : Nat) : List Nat := (f.places.filter (fun p => setNo p.2.1 p.2.2.1 == set)).map (·.1)

/-- A wear-levelling move is due: erase counts in use differ by more than 500 (R393). -/
def Flash.wearDue (f : Flash) (set : Nat) : Bool :=
  let es := (f.blocks.filter (fun p => !p.2.pages.isEmpty && !p.2.bad)).map (·.2.erases)
  match es.max?, es.min?, f.order with
  | some a, some b, u :: _ => decide (b + 500 < a) && (f.unitsIn set).contains u
  | _, _, _ => false

/-- The erased block set with the highest erase count (R393), or a fresh one. -/
def Flash.wornSet (f : Flash) : Option Nat :=
  match ((f.blocks.map (fun p => setOf p.1)).filter f.erasedSet).foldl (fun (a : Option Nat) k =>
    match a with | none => some k | some x => some (if f.setErases x < f.setErases k then k else x)) none with
  | some k => some k
  | none => f.freshSet

/-- Places units on the first pages of a block set (R393, R395). -/
def Flash.moveTo (f : Flash) (us : List Nat) (set : Nat) : Flash :=
  let f := ((List.range us.length).zip us).foldl (fun (f : Flash) p => (f.retire p.2).settleAt p.2 (set / 2560, set % 2560, p.1)) f
  f.onBlocks (setBlocks (set / 2560) (set % 2560)) (fun b => { b with pages := List.range us.length })

/-- A block set that has been written and holds no valid unit any more. -/
def Flash.stale (f : Flash) (set : Nat) : Bool :=
  (f.unitsIn set).isEmpty && (setBlocks (set / 2560) (set % 2560)).all (fun b => f.usable b && !(f.block b).pages.isEmpty)

/-- The reads of a relocation (R395): one finding for each unit of the set that is not lost, in page order. -/
def State.relocReads (us : List Nat) (set : Nat) (finds : List ReadFinding) (s : State) : State :=
  each ((List.range us.length).zip us) (fun p s => s.readAt p.2 (set / 2560) (set % 2560) (finds.getD p.1 { bits := [], retries := 0 })) s

/-- The valid units of a queued block set are read and move to an erased one; those whose read fails are lost, and their blocks join the
grown table (R396, R412); the old set is erased unless it has gone bad. -/
def State.relocate (set kind : Nat) (finds : List ReadFinding) (s : State) : State :=
  let f := s.chest.flash
  let us := (f.unitsIn set).filter (fun u => !f.lost.contains u)
  match f.freshSet with
  | none => s
  | some k => onlyIf (decide (kind = 2) || s.chest.planeRoom (set / 2560)) (fun s =>
    let s := s.relocReads us set finds
    let bad := s.chest.reloc.any (fun r => r == (set, 2))
    let s := s.onFlash (fun f =>
      let f := f.moveTo (us.filter (fun u => !f.lost.contains u)) k
      { (f.unitsIn set).foldl (fun f u => f.retire u) f with free := f.free - 4 })
    s.onChest (fun c =>
      let c := { c with
        reloc := c.reloc.filter (fun r => r.1 != set)
        relDisturb := if kind = 0 then satInc c.relDisturb else c.relDisturb
        relRefresh := if kind = 1 then satInc c.relRefresh else c.relRefresh }
      if bad then c else c.beginErase (set / 2560))) s

/-- Without a queued move: a wear-levelling move of the unit unwritten longest to the erased set most often erased (R393), or the translation
layer's erase of a set that holds no valid unit any more (R721). -/
def State.levelWear (set : Nat) (finds : List ReadFinding) (s : State) : State :=
  let f := s.chest.flash
  match f.order, f.wearDue set, f.wornSet with
  | u :: rest, true, some k =>
    let s := s.relocReads [u] set finds
    if s.chest.flash.lost.contains u then s
    else s.onFlash (fun f => { f.moveTo [u] k with order := rest ++ [u], free := f.free - 4 })
  | _, _, _ => onlyIf (f.stale set && s.chest.planeRoom (set / 2560)) (State.onChest (fun c => c.beginErase (set / 2560))) s

/-- RELOCATION (R395, R403). -/
def execRelocation (blockSet : Nat) (finds : List ReadFinding) (s : State) : Host.Outcome State Fault Refusal :=
  .next (onlyIf (s.up && s.chest.ready && !s.chest.fenced) (fun s =>
    match s.chest.reloc.find? (fun r => r.1 == blockSet) with
    | some r => s.relocate blockSet r.2 finds
    | none => s.levelWear blockSet finds) s)

/-- What the pages of these blocks held is gone. -/
def Flash.wipe (bs : List Nat) (f : Flash) : Flash :=
  { f with raw := f.raw.filter (fun p => !bs.contains (p.1 / 64)), meta_ := f.meta_.filter (fun p => !bs.contains (p.1 / 64)) }

/-- BLOCK_ERASE_DONE (R398, R721): the erase of a block set ends; a block that fails verify joins the grown table. -/
def execBlockEraseDone (blockSet : Nat) (failed : List Nat) (s : State) : Host.Outcome State Fault Refusal :=
  let q := blockSet / 2560
  let bs := setBlocks q (blockSet % 2560)
  .next (onlyIf (s.up && decide (blockSet < 20480) && s.chest.busy.any (fun p => p / 4 == q) && !s.chest.suspended.any (fun p => p / 4 == q) &&
      (s.chest.flash.unitsIn blockSet).isEmpty && bs.all (fun b => !slotBlock b)) (fun s =>
    let s := s.onChest (fun c => { c with busy := c.busy.filter (fun p => p / 4 != q) })
    let s := s.onFlash (fun f => (f.wipe bs).onBlocks bs (fun b => { b with erases := b.erases + 1, reads := 0, pages := [] }))
    if failed.isEmpty then s.onFlash (fun f => { f with free := f.free + 4 }) else s.growBad (someBlocks bs failed)) s)

/-- The unit whose quarter a page holds. -/
def Flash.unitAt (f : Flash) (b page : Nat) : Option (Nat × Nat) :=
  (f.places.find? (fun p => (setBlocks p.2.1 p.2.2.1).contains b && p.2.2.2 == page)).map (fun p => (p.1, b / 2560 % 4))

/-- A page's read fails (R396): its unit is lost; a page that holds none costs its block, which the slots, not translated, keep. -/
def State.losePage (b page : Nat) (s : State) : State :=
  match s.chest.flash.unitAt b page with
  | some (u, _) => s.loseUnit u (b / 2560 / 4) (b % 2560) [b]
  | none => if slotBlock b then s.uncorrectable else (s.uncorrectable.growBad [b]).queueReloc (setOf b) 2

/-- Every programmed page (R394): those of the blocks, and those of the factory's image in slot A that have not been erased. -/
def Flash.programmed (f : Flash) : List Nat :=
  f.blocks.flatMap (fun p => p.2.pages.map (fun g => p.1 * 64 + g)) ++
    (below 128 (fun b => !f.erasedA.contains b && !f.factory.contains b)).flatMap (fun b => (List.range 64).map (fun g => b * 64 + g))

/-- REFRESH_SCAN (R394): the next programmed page in turn is read, in ACTIVE or HOLD (R383, R626). -/
def execRefreshScan (find : ReadFinding) (s : State) : Host.Outcome State Fault Refusal :=
  .next (onlyIf (!s.dead && s.ready && decide (s.power ≤ 1) && s.chest.ready && !s.chest.fenced) (fun s =>
    match nextAfter s.chest.scan s.chest.flash.programmed with
    | none => s
    | some n =>
      let b := n / 64
      let s := ((s.onChest (fun c => { c with scan := n })).countRead find).countPages [b]
      if !(failPages find).isEmpty then s.losePage b (n % 64)
      else if s.chest.refreshT < maxBits find ∧ !slotBlock b ∧ !(s.chest.flash.block b).rawUsed then s.queueReloc (setOf b) 1
      else s) s)

/-- Place of a slot page in its slot: factory-bad blocks are skipped (R386). -/
def Flash.slotOff (f : Flash) (b page : Nat) : Nat :=
  (below (b % 2560) (fun k => !f.factory.contains (b / 2560 * 2560 + k))).length * 262144 + page * 4096

/-- The block that holds a place of a slot; true for slot B. -/
def Flash.slotBlk (f : Flash) (second : Bool) (a : Nat) : Nat :=
  let base := if second then 2560 else 0
  base + (below 128 (fun k => !f.factory.contains (base + k))).getD (a / 262144) 0

-- Execute in place (R404 to R407).

/-- XIP_FETCH (R405 to R407): a fetch from the slot regions, numbered from 0 for SLOT_A and from 32 MiB for SLOT_B; `busy` a
program in flight on the slot's plane, `lat` the latency in ns. Any other fetch is dark. -/
def execXipFetch (addr lat : Nat) (busy : Bool) (s : State) : Host.Outcome State Fault Refusal :=
  .next (onlyIf (s.up && s.chest.ready && !s.chest.fenced) (fun s =>
    if s.chest.eff.xipEn && decide (addr < 2 ^ 26) then
      let plane := addr / 2 ^ 25
      let stops := (busy || s.chest.busy.contains plane) && !s.chest.suspended.contains plane
      (s.countPages [s.chest.flash.slotBlk (decide (plane = 1)) (addr % 2 ^ 25)]).onChest (fun c => { c with
        maxlat := if c.maxlat.toNat < lat / 10 then satNat 16 (lat / 10) else c.maxlat
        suspends := if stops then satInc c.suspends else c.suspends
        suspended := if stops then c.suspended ++ [plane] else c.suspended })
    else (s.darkAccess 1)) s)

/-- SUSPENDED_RESUME (R404, R406): no fetch or read waits on the plane. -/
def execSuspendedResume (plane : Nat) (s : State) : Host.Outcome State Fault Refusal :=
  .next (onlyIf (s.up && s.chest.suspended.contains plane)
    (State.onChest (fun c => { c with suspended := c.suspended.filter (· != plane) })) s)

-- Service mode (R408 to R411, R722).

/-- The block that the raw address names; a block above 2,559 reads as 2,559 (R414). -/
def Chest.rawBlk (c : Chest) : Nat := c.rawPlane.toNat * 2560 + min 2559 c.rawBlock.toNat
/-- Number of the raw page. -/
def Chest.rawPg (c : Chest) : Nat := c.rawBlk * 64 + c.rawPage.toNat

/-- A byte of a slot: the factory's image in blocks of slot A never erased, what has been programmed, or what an erased page reads. -/
def Flash.slotByte (f : Flash) (second : Bool) (a : Nat) : Byte :=
  let b := f.slotBlk second a
  if !second && !f.erasedA.contains b then Config.factoryImage a
  else if (f.block b).pages.contains (a % 262144 / 4096) then look 0 (if second then f.slotB else f.slotA) a
  else Config.erasedByte (b * 64 + a % 262144 / 4096) (a % 4096)

/-- n bytes of a slot. -/
def Flash.slotBytes (f : Flash) (second : Bool) (a n : Nat) : List Byte := (List.range n).map (fun i => f.slotByte second (a + i))

/-- Bytes programmed into a slot: whole pages, what is not given reading zero. -/
def Flash.slotProgram (f : Flash) (second : Bool) (a : Nat) (data : List Byte) : Flash :=
  let f := (List.range (ceilDiv data.length 4096)).foldl (fun (f : Flash) k =>
    f.onBlocks [f.slotBlk second (a + 4096 * k)] (fun x => { x with pages := x.pages ++ [(a + 4096 * k) % 262144 / 4096] })) f
  if second then { f with slotB := putBytes a data f.slotB } else { f with slotA := putBytes a data f.slotA }

/-- The 4,096 data bytes of a page. -/
def Flash.page (f : Flash) (b page : Nat) : List Byte :=
  match f.unitAt b page with
  | some (u, k) => ((f.unit u).drop (4096 * k)).take 4096
  | none =>
    if slotBlock b then f.slotBytes (decide (2560 ≤ b)) (f.slotOff b page) 4096
    else match f.raw.find? (fun p => p.1 == b * 64 + page) with
      | some p => slice p.2 0 4096
      | none => (List.range 4096).map (Config.erasedByte (b * 64 + page))

/-- Bytes into the raw buffer from byte 0 (R722). -/
def Chest.fillRaw (c : Chest) (bs : List Byte) : Chest := { c with rawBuf := putBytes 0 bs c.rawBuf }

/-- The end of a raw command. -/
def Chest.rawEnd (c : Chest) (status maxbits : Nat) (blank : Bool) : Chest :=
  { c with rawDone := true, rawStatus := BitVec.ofNat 3 status, rawMax := BitVec.ofNat 6 maxbits, rawBlank := blank }

/-- A raw command is taken: service mode is in effect (R414). -/
def State.rawChest (s : State) : Bool := s.up && s.chest.ready && !s.chest.fenced && s.chest.eff.service

/-- READ (R409); where it fails on a unit's page, R396 applies to the unit. -/
def State.chestRaw1 (f : ReadFinding) (s : State) : State :=
  let b := s.chest.rawBlk
  let s := (s.countRead f).countPages [b]
  if !(failPages f).isEmpty then (s.losePage b s.chest.rawPage.toNat).onChest (fun c => c.rawEnd 3 63 false)
  else s.onChest (fun c => (c.fillRaw (c.flash.page c.rawBlk c.rawPage.toNat)).rawEnd 0 (maxBits f) false)

/-- A page that has been programmed; pages of the factory's image count as programmed. -/
def Flash.written (f : Flash) (b page : Nat) : Bool :=
  (f.block b).pages.contains page || (decide (b < 128) && !f.erasedA.contains b)

/-- The 80 bytes of metadata and parity of a codeword with this data (R381). -/
def Flash.extra (f : Flash) (b page k : Nat) (data : List Byte) : List Byte :=
  if f.written b page then
    let m := look (0, 0, 0) f.meta_ (b * 64 + page)
    let meta_ := (List.range 10).map (Config.metaByte m.1 m.2.1 m.2.2)
    meta_ ++ (List.range 70).map (Config.parityByte (data ++ meta_))
  else (List.range 80).map (fun i => Config.erasedByte (b * 64 + page) (4096 + 80 * k + i))

/-- The four codewords of a page, each its data, then metadata and parity (R381). -/
def Flash.codewords (f : Flash) (b page : Nat) : List Byte :=
  let d := f.page b page
  (List.range 4).flatMap (fun k => (d.drop (1024 * k)).take 1024 ++ f.extra b page k ((d.drop (1024 * k)).take 1024))

/-- READ_RAW (R409, R722). -/
def State.chestRaw2 (s : State) : State :=
  (s.countPages [s.chest.rawBlk]).onChest (fun c => (c.fillRaw (c.flash.codewords c.rawBlk c.rawPage.toNat)).rawEnd 0 0 false)

/-- A raw PROGRAM or ERASE may be aimed at the block (R409, R410): a spare-pool block, which holds no unit and is not bad, or a
block of the slot regions. -/
def Chest.rawAllowed (c : Chest) : Bool :=
  let b := c.rawBlk
  !c.flash.factory.contains b && (slotBlock b || (!(c.flash.block b).bad &&
    c.flash.places.all (fun p => !(setBlocks p.2.1 p.2.2.1).contains b)))

/-- FL_WP_N refuses the raw command (R400). -/
def State.rawProtected (s : State) : Bool := slotBlock s.chest.rawBlk && s.pins.flWp

/-- The raw page is not erased; pages of the factory's image count as written. -/
def Chest.rawWritten (c : Chest) : Bool := c.flash.written c.rawBlk c.rawPage.toNat

/-- PROGRAM (R409, R410): a page that verify fails puts its block into the grown table. -/
def State.chestRaw3 (ctx : Nat) (verified : Bool) (s : State) : State :=
  let c := s.chest
  if s.rawProtected then (s.wpRefuse ctx).onChest (fun c => c.rawEnd 2 0 false)
  else if !c.rawAllowed then s.onChest (fun c => c.rawEnd 2 0 false)
  else if c.rawWritten then s.onChest (fun c => c.rawEnd 1 0 false)
  else
    let b := c.rawBlk
    let data := getBytes c.rawBuf 0 4096
    let s := s.onFlash (fun f =>
      let f := f.onBlocks [b] (fun x => { x with pages := x.pages ++ [c.rawPage.toNat], rawUsed := x.rawUsed || !slotBlock b })
      if slotBlock b then
        (if b < 2560 then { f with slotA := putBytes (f.slotOff b c.rawPage.toNat) data f.slotA }
         else { f with slotB := putBytes (f.slotOff b c.rawPage.toNat) data f.slotB })
      else { f with raw := putRaw c.rawPg data f.raw })
    if verified then s.onChest (fun c => c.rawEnd 0 0 false)
    else (s.growBad [b]).onChest (fun c => c.rawEnd 4 0 false)

/-- A block erased: one cycle counted, no page programmed. -/
def Flash.eraseBlock (f : Flash) (b : Nat) : Flash :=
  let f := (f.wipe [b]).onBlocks [b] (fun x => { x with erases := x.erases + 1, reads := 0, pages := [], rawUsed := false })
  let inSlot (p : Nat × Byte) : Bool := decide (f.slotOff b 0 ≤ p.1 ∧ p.1 < f.slotOff b 0 + 262144)
  { f with
    erasedA := if b < 128 ∧ !f.erasedA.contains b then f.erasedA ++ [b] else f.erasedA
    slotA := if b < 128 then f.slotA.filter (fun p => !inSlot p) else f.slotA
    slotB := if slotBlock b && decide (2560 ≤ b) then f.slotB.filter (fun p => !inSlot p) else f.slotB }

/-- ERASE (R409, R410). -/
def State.chestRaw4 (ctx : Nat) (verified : Bool) (s : State) : State :=
  if s.rawProtected then (s.wpRefuse ctx).onChest (fun c => c.rawEnd 2 0 false)
  else if !s.chest.rawAllowed then s.onChest (fun c => c.rawEnd 2 0 false)
  else
    let b := s.chest.rawBlk
    let s := s.onFlash (fun f => f.eraseBlock b)
    if verified then s.onChest (fun c => c.rawEnd 0 0 false)
    else (s.growBad [b]).onChest (fun c => c.rawEnd 4 0 false)

/-- BLANK_CHECK (R409): erased when no codeword reads more than 8 programmed bits. -/
def State.chestRaw5 (bits : List Nat) (s : State) : State := (s.countPages [s.chest.rawBlk]).onChest (fun c => c.rawEnd 0 0 (bits.all (fun b => decide (b ≤ 8))))

/-- READ. -/
def execRead (find : ReadFinding) (s : State) : Host.Outcome State Fault Refusal := .next (onlyIf s.rawChest (State.chestRaw1 find) s)
/-- READ_RAW. -/
def execReadRaw (s : State) : Host.Outcome State Fault Refusal := .next (onlyIf s.rawChest State.chestRaw2 s)
/-- PROGRAM; the issuing context is that of the DIAG command, context 0 where a register write gave it. -/
def execProgram (verified : Bool) (s : State) : Host.Outcome State Fault Refusal := .next (onlyIf s.rawChest (State.chestRaw3 0 verified) s)
/-- ERASE. -/
def execErase (verified : Bool) (s : State) : Host.Outcome State Fault Refusal := .next (onlyIf s.rawChest (State.chestRaw4 0 verified) s)
/-- BLANK_CHECK. -/
def execBlankCheck (programmedBits : List Nat) (s : State) : Host.Outcome State Fault Refusal :=
  .next (onlyIf s.rawChest (State.chestRaw5 programmedBits) s)

/-- CHS_CFG takes effect at once (R414); when service mode ends, the spare-pool blocks that raw commands programmed are
erased (R411). -/
def State.chsCommit (s : State) : State :=
  let ends := s.chest.eff.service && !s.chest.shadow.service
  let s := s.onChest (fun c => { c with eff := c.shadow })
  if ends then s.onFlash (fun f => (f.blocks.filter (fun p => p.2.rawUsed)).foldl (fun f p => f.eraseBlock p.1) f) else s

/-- CHS_COMMIT (R713). -/
def execChsCommit (s : State) : Host.Outcome State Fault Refusal := .next (onlyIf s.easelRuns State.chsCommit s)

end Sys2Proof.Machine
end

