-- ==== Sys2Proof/Machine/Codes.lean ====
section
/-! DEFINITION. Check codes: the CRC-32 of R313 and the double-error-correcting code of R314, with the poison bit of R315. -/

namespace Sys2Proof.Machine

/-- One byte into the reflected CRC-32 register, bit by bit (R313). -/
def crcByte (r : Nat) (b : Byte) : Nat :=
  (List.range 8).foldl (fun r _ => if r % 2 = 1 then (r / 2) ^^^ 0xEDB88320 else r / 2) (r ^^^ b.toNat)

/-- CRC-32 of bytes (R313). -/
def crc32 (bs : List Byte) : Nat := bs.foldl crcByte 0xFFFFFFFF ^^^ 0xFFFFFFFF

/-- Word w of a line. -/
def lineWord (l : Line) (w : Nat) : Nat := bits l.toNat (64 * w + 63) (64 * w)

/-- Check bits of word w. -/
def checkWord (c : BitVec 128) (w : Nat) : Nat := bits c.toNat (16 * w + 15) (16 * w)

/-- Check bits of a line in service mode (R313). -/
def serviceCheck (l : Line) : BitVec 128 :=
  let c := crc32 (lineBytes l)
  BitVec.ofNat 128 (sumN ((List.range 4).map (fun w => bits c (8 * w + 7) (8 * w) * 2 ^ (16 * w))))

/-- g(x) of R314: (x⁷ + x³ + 1)(x⁷ + x³ + x² + x + 1), bit i the coefficient of xⁱ. -/
def bchG : Nat := 0x4377

/-- x times a remainder, modulo g. -/
def bchStep (r : Nat) : Nat := let y := 2 * r; if y.testBit 14 then y ^^^ bchG else y

/-- xⁱ modulo g. -/
def bchPow : Nat → Nat
  | 0 => 1
  | i + 1 => bchStep (bchPow i)

/-- The n low bits of d as a polynomial, times x¹⁴, modulo g. -/
def bchRem (d : Nat) : Nat → Nat
  | 0 => 0
  | n + 1 =>
    let i := n
    bchRem d i ^^^ (if d.testBit i then bchPow (i + 14) else 0)

/-- Parity of n low bits. -/
def parity (x : Nat) : Nat → Nat
  | 0 => 0
  | n + 1 => (parity x n + (if x.testBit n then 1 else 0)) % 2

/-- Check bits of a word in careful mode (R314). -/
def carefulWord (d : Nat) : Nat :=
  let r := bchRem d 64
  r + 2 ^ 14 * ((parity d 64 + parity r 14) % 2)

/-- Check bits of a line in careful mode. -/
def carefulCheck (l : Line) : BitVec 128 :=
  BitVec.ofNat 128 (sumN ((List.range 8).map (fun w => carefulWord (lineWord l w) * 2 ^ (16 * w))))

/-- Syndrome of a stored word (R314, R339). -/
def syndrome (d c : Nat) : Nat := bchRem d 64 ^^^ (c % 2 ^ 14)

/-- What the decoder finds in a word: 0 CLEAN, 1 CORR1, 2 CORR2, 3 UNCORR, 5 POISON, with the word it delivers (R314, R339).
Positions 0 to 13 are check bits, 14 to 77 data bits. -/
def decodeWord (d c : Nat) : Nat × Nat :=
  let s := syndrome d c
  let p := (parity d 64 + parity c 15) % 2
  let fix (d i : Nat) : Nat := if 14 ≤ i then d ^^^ 2 ^ (i - 14) else d
  if c.testBit 15 then (5, d)
  else if s = 0 then (if p = 0 then (0, d) else (1, d))
  else
    let one := (List.range 78).find? (fun i => bchPow i == s)
    if p = 1 then (match one with | some i => (1, fix d i) | none => (3, d))
    else match one with
      | some i => (2, fix d i)
      | none =>
        match (List.range 78).findSome? (fun i =>
            ((List.range i).find? (fun j => (bchPow i ^^^ bchPow j) == s)).map (fun j => (i, j))) with
        | some (i, j) => (2, fix (fix d i) j)
        | none => (3, d)

end Sys2Proof.Machine
end

