-- ==== Sys2Proof/Machine/Image.lean ====
section
/-! DEFINITION. Firmware images in the two slots (R658 to R661): their header, their sections, and what a load of a section checks. -/

namespace Sys2Proof.Machine

-- The image header and the section table.

/-- Bits hi..lo of the image header of a slot. -/
def Flash.imgBits (f : Flash) (second : Bool) (hi lo : Nat) : Nat := bits (natOf (f.slotBytes second 0 64)) hi lo

/-- The header carries the image MAGIC. -/
def Flash.hasImage (f : Flash) (second : Bool) : Bool := f.imgBits second 31 0 == 0x51F1A5E7
/-- IMGLEN. -/
def Flash.imgLen (f : Flash) (second : Bool) : Nat := f.imgBits second 107 83
/-- VERSION. -/
def Flash.version (f : Flash) (second : Bool) : Word := BitVec.ofNat 32 (f.imgBits second 223 192)

/-- An entry of the section table (R659): TYPE, UNIT, OFFSET, LEN. -/
def Flash.section_ (f : Flash) (second : Bool) (k : Nat) : Nat × Nat × Nat × Nat :=
  let e := natOf (f.slotBytes second (3456 + 16 * k) 16)
  (bits e 7 0, bits e 15 8, bits e 63 32, bits e 95 64)

/-- The entries in use. -/
def Flash.sections (f : Flash) (second : Bool) : List (Nat × Nat × Nat × Nat) :=
  (List.range (min 40 (f.imgBits second 185 180))).map (f.section_ second)

/-- UNIT codes that have a MICROCODE section each (R659), ascending. -/
def microUnits : List Nat := [0x02, 0x03, 0x04, 0x05, 0x06, 0x07, 0x08, 0x09, 0x0C, 0x0D, 0x0E, 0x20, 0x40]

/-- The greatest length of a section by TYPE (R659). -/
def sectionMax (type : Nat) : Nat := match type with | 1 => 524288 | 2 => 262144 | 3 => 131072 | _ => 2 ^ 32

/-- NSEC and every section lie within IMGLEN and obey R659. -/
def Flash.sectionsOk (f : Flash) (second : Bool) : Bool :=
  let n := f.imgBits second 185 180
  let ss := f.sections second
  decide (1 ≤ n ∧ n ≤ 40) && ss.all (fun e => decide (e.2.2.1 + e.2.2.2 ≤ f.imgLen second ∧ e.2.2.2 ≤ sectionMax e.1)) &&
    microUnits.all (fun u => (ss.filter (fun e => e.1 == 3 && e.2.1 == u)).length == 1) &&
    decide (sumN ((ss.filter (fun e => decide (1 ≤ e.1 ∧ e.1 ≤ 3))).map (fun e => e.2.2.2)) ≤ 2097152)

/-- D of R660. -/
def Flash.imageDigest (f : Flash) (second : Bool) : Line :=
  if f.hasImage second then
    Config.shake256 (f.slotBytes second 0 1920 ++ f.slotBytes second 3456 (f.imgLen second - 3456))
  else 0

/-- A load of the sections of these types agrees with their CRC-32 (R661); the bytes are those of the slot. -/
def Flash.loads (f : Flash) (second : Bool) (types : List Nat) : Bool :=
  (List.range (min 40 (f.imgBits second 185 180))).all (fun k =>
    let e := f.section_ second k
    !types.contains e.1 || fieldB (f.slotBytes second (3456 + 16 * k) 16) 12 4 == crc32 (f.slotBytes second e.2.2.1 e.2.2.2))

end Sys2Proof.Machine
end

