-- ==== Sys2Proof/Machine/Palette.lean ====
section
/-! DEFINITION. The Palette (R297 to R326): accesses, handovers, bank power, conversions, the tester, raw test access. -/

namespace Sys2Proof.Machine

-- Stored lines (R312 to R316).

/-- A mode whose lines carry careful codes (R312). -/
def careful (mode : BitVec 2) : Bool := mode.getLsbD 0

/-- A line with valid check bits. -/
def validLine (car : Bool) (l : Line) : PLine := { data := l, check := if car then carefulCheck l else serviceCheck l }

/-- A line written with its poison bits set (R299, R315). -/
def poisonedLine (car : Bool) (l : Line) : PLine :=
  let v := validLine car l
  { v with check := v.check ||| 0x80008000800080008000800080008000 }

/-- What a line reads as: data delivered, whether the status is CHECK, words corrected (R316). -/
def PLine.read (p : PLine) (car : Bool) : Line × Bool × Nat :=
  if car then
    let ws := (List.range 8).map (fun w => decodeWord (lineWord p.data w) (checkWord p.check w))
    let bad := ws.any (fun w => w.1 == 3 || w.1 == 5)
    let l : Line := BitVec.ofNat 512 (sumN (((List.range 8).zip ws).map (fun p => p.2.2 * 2 ^ (64 * p.1))))
    if bad then (p.data, true, 0) else (l, false, (ws.filter (fun w => w.1 == 1 || w.1 == 2)).length)
  else
    let poison := (List.range 8).any (fun w => (checkWord p.check w).testBit 15)
    let mask : BitVec 128 := 0x00FF00FF00FF00FF
    (p.data, poison || (p.check &&& mask != serviceCheck p.data), 0)

/-- The line a bank stores; an unlisted line is zeros with valid check bits (R309). -/
def Bank.line (b : Bank) (l : Nat) : PLine := look (validLine (careful b.ctl.mode) 0) b.lines l

/-- Stores a line. -/
def Bank.store (b : Bank) (l : Nat) (p : PLine) : Bank := { b with lines := put (validLine (careful b.ctl.mode) 0) l p b.lines }

/-- The bank is ON; a fenced bank is held OFF (R308, R611). -/
def Bank.on (b : Bank) : Bool := !b.fenced && b.ctl.state.getLsbD 1

-- Owners (R300 to R305).

/-- The owner codes (R300); any other is taken as 0x00. -/
def ownerCode (x : Nat) : Nat := if x ≤ 9 ∨ (0x20 ≤ x ∧ x ≤ 0x40) then x else 0

/-- A unit, by its counter code, is the bank's owner; engines are 0x50 to 0x5F (R300, R339). -/
def Bank.ownedBy (b : Bank) (unit : Nat) : Bool :=
  if b.owner = 0x40 then decide (0x50 ≤ unit ∧ unit < 0x60) && b.set.getLsbD (unit - 0x50) else b.owner.toNat == unit

-- The tester's hold (R325).

/-- The bank is pinned now (R322). -/
def State.pinned (s : State) (b : Nat) : Bool := (s.bank b).ctl.pin || ((s.bank b).ctl.urg && s.pal.urgent)

/-- The tester holds the bank. -/
def State.borrowed (s : State) (b : Nat) : Bool := (s.pal.tester.hold.map (·.1)) == some b

/-- The tester yields a bank it holds: the shadow lines are written back and the chunk counts as not done (R324, R325). -/
def State.testerYield (b : Nat) (s : State) : State :=
  match s.pal.tester.hold with
  | some (h, first, saved) =>
    if h = b then
      (s.onBank b (fun k => ((List.range saved.length).zip saved).foldl (fun k p => k.store (first + p.1) p.2) k)).onPal
        (fun p => { p with tester := { p.tester with hold := none, yields := satInc p.tester.yields } })
    else s
  | none => s

/-- The tester yields where its bank has become pinned, RUN is 0, or EXCL_URG keeps it off the bank (R325). -/
def State.testerCheck (s : State) : State :=
  match s.pal.tester.hold with
  | some (b, _, _) =>
    if s.pinned b || !s.pal.tester.run || (s.pal.tester.exclUrg && (s.bank b).ctl.urg) then s.testerYield b else s
  | none => s

-- Accesses (R302).

/-- What a unit received: the line, and 0 OK, 1 NOT_OWNER, 2 DARK, 3 CHECK, 4 UNMAPPED, 5 that its access waits. -/
def State.respond (l : Line) (status : BitVec 3) (s : State) : State := s.onPal (fun p => { p with last := l, lastStat := status })

/-- A line with the enabled bytes of another. -/
def mergeLine (old new : Line) (en : BitVec 64) : Line :=
  lineOf ((List.range 64).map (fun i => if en.getLsbD i then (lineBytes new).getD i 0 else (lineBytes old).getD i 0))

/-- Marks the swatch whose clean copy holds a line as read again from its home (R317). -/
def State.refetchLine (b line : Nat) (s : State) : State :=
  match s.sw.table.find? (fun p =>
      p.2.bank == b && !p.2.t2 && !p.2.homeEnt && p.2.place && !p.2.dirty && p.2.st == .resident &&
      (line / 256 == p.2.slot || line == 7936 + p.2.slot)) with
  | some p => s.onSw (fun w => { w with
      table := modify p.2 p.1 (fun e => { e with restore := true }) w.table
      queue := if p.2.restore then w.queue else w.queue ++ [{ kind := .refetch, obj := p.2.obj, idx := p.2.idx }] })
  | none => s

/-- Bytes from one row of a plane to the next: every row starts on a 64-byte line (R236). -/
def planeStride (w : Nat) : Nat := 64 * ceilDiv (2 * w) 64

/-- A stored plane has samples in a Palette line, bank × 8,192 + line. -/
def PlaneRef.covers (r : PlaneRef) (g : Nat) : Bool := decide (r.addr / 64 ≤ g ∧ g < r.addr / 64 + r.h * (planeStride r.w / 64))

/-- Pictures with samples in a line are unpacked again from the payload that arrived for them (R317, log 95). -/
def State.rebuildPictures (g : Nat) (s : State) : State :=
  s.onEasel (fun e => { e with tasks := e.tasks.map (fun u => if u.planes.any (·.covers g) then { u with unpacked := false } else u) })

/-- A producer declines a recompute (R318); what a Retouch step lacks ends the step and hands nothing over (R228). -/
def State.decline (unit c : Nat) (s : State) : State :=
  if s.retouchOn unit c then s.spoilRetouch c
  else if (s.ctx c).bind.realtime then s.handover c 2 else s.endOldest c

/-- The entries of a dispatch bank are to be reinstalled elsewhere; the contexts concerned hand over (R621). -/
def State.beginReinstall (b : Nat) (s : State) : State :=
  handTogether (each (s.boundIds.filter (fun c => (s.workMap c).pieces.any (fun p => p.1 == b))) (State.offUnit 7))
    (s.onEasel (fun e => if e.reinstall.contains b then e else { e with reinstall := e.reinstall ++ [b] }))

/-- A context that no number names: accesses that no context's work makes. -/
def noCtx : Nat := 1024

/-- A read returned CHECK twice (R317, R318, R621): a map bank takes the Swatch Map with it, a dispatch bank is reinstalled; else the line is to
be replaced: from its home, from the payload, or by the unit that produced it, which does its work for the entries again and so writes the
line; or its producer declines. A fence on the context holds (R337). -/
def State.checkLine (b line : Nat) (declines : Bool) (unit c : Nat) (s : State) : State :=
  if s.sw.mapBanks.contains b then s.fenceUnit 6
  else if s.easel.dispatch.contains b then s.beginReinstall b
  else
    if (s.ctx c).fence then s
    else if declines then s.decline unit c
    else ((s.onBank b (fun k => if k.lost.contains line then k else { k with lost := k.lost ++ [line] })).refetchLine b line).rebuildPictures
      (8192 * b + line)

/-- A CHECK on a line that has been replaced since it failed in this tick fences its bank (R319). -/
def State.checkAgain (b line : Nat) (s : State) : State := onlyIf ((s.bank b).bad.contains line) (State.fenceBank b) s

/-- A line written whole replaces one that failed (R319). -/
def Bank.replace (k : Bank) (line : Nat) : Bank :=
  if k.lost.contains line then
    { k with lost := k.lost.filter (· != line), bad := if k.bad.contains line then k.bad else k.bad ++ [line] }
  else k

/-- The scrub write-back of a line read (R316): where its stored words can be corrected, the corrected line replaces it. -/
def State.scrub (b line : Nat) (s : State) : State :=
  let r := ((s.bank b).line line).read (careful (s.bank b).ctl.mode)
  onlyIf (!r.2.1 && decide (0 < r.2.2)) (State.onBank b (fun k => k.store line (validLine true r.1))) s

/-- An access that the Palette serves (R299, R316); the write-back of a corrected word follows later (R304). -/
def State.serveLine (b : Nat) (q : PalReq) (s : State) : State :=
  let k := s.bank b
  let car := careful k.ctl.mode
  let p := k.line q.line
  match q.op with
  | .write data en =>
    if en = BitVec.allOnes 64 then (s.onBank b (fun k => (k.store q.line (validLine car data)).replace q.line)).respond 0 0
    else
      let r := p.read car
      let l := mergeLine r.1 data en
      ((s.onBank b (fun k =>
        let k := k.store q.line (if r.2.1 then poisonedLine car l else validLine car l)
        { k with corr := satAdd k.corr r.2.2, check := if r.2.1 then satInc k.check else k.check })).respond 0 0)
  | .read =>
    let seen : PLine := { data := p.data ^^^ q.noise.extractLsb' 0 512, check := p.check ^^^ q.noise.extractLsb' 512 128 }
    let r := seen.read car
    if !r.2.1 then (s.onBank b (fun k => { k with corr := satAdd k.corr r.2.2 })).respond r.1 0
    else
      let s := (s.onBank b (fun k => { k with check := satInc k.check })).checkAgain b q.line
      let r2 := p.read car
      if !r2.2.1 then (s.onBank b (fun k => { k with corr := satAdd k.corr r2.2.2 })).respond r2.1 0
      else ((s.onBank b (fun k => { k with check := satInc k.check })).respond r2.1 3).checkLine b q.line q.declines q.unit q.ctx

/-- A handover, a ramp or a clear holds the bank's accesses up (R302, R306, R309). -/
def Bank.holdsUp (k : Bank) : Bool := k.busy || k.clear

/-- A line access of a unit, checked in the order of R302. `upset` flips stored bits beforehand. -/
def State.access (b : Nat) (q : PalReq) (s : State) : State :=
  let k := s.bank b
  if !k.on then (s.darkAccess q.unit).respond (BitVec.allOnes 512) 2
  else if !k.ownedBy q.unit then (s.nonOwner q.unit).respond 0 1
  else if k.holdsUp then (s.onBank b (fun k => { k with waiting := k.waiting ++ [q] })).respond 0 5
  else
    let s := if q.upset = 0 then s else s.onBank b (fun k =>
      let p := k.line q.line
      k.store q.line { data := p.data ^^^ q.upset.extractLsb' 0 512, check := p.check ^^^ q.upset.extractLsb' 512 128 })
    (s.testerYield b).serveLine b q

/-- The order in which a bank serves the requests of one PAL cycle (R304): the owner itself, of an engine set the lower-numbered engine first
(R199), then the Mover's requests for it, then the Migration engine's. -/
def reqRank (r : PalReq) : Nat := if r.agent = 0 then r.unit else if r.agent = 2 then 256 else 512

/-- Requests in the order served; requests of one rank keep their order. -/
def servedOrder (rs : List PalReq) : List PalReq :=
  rs.foldl (fun a r => a.takeWhile (fun x => decide (reqRank x ≤ reqRank r)) ++ [r] ++ a.dropWhile (fun x => decide (reqRank x ≤ reqRank r))) []

/-- Serves one request and notes what its unit received (R303, R310, R316); one that waits receives nothing yet. -/
def State.serveReq (b : Nat) (r : PalReq) (s : State) : State :=
  let s := s.access b r
  onlyIf (s.pal.lastStat != 5) (State.onPal (fun p => { p with answers := p.answers ++ [(r.unit, r.line, p.last, p.lastStat)] })) s

/-- Serves requests of one PAL cycle in the order of R304; the scrub write-backs of lines read come last, so that a full-line write of the
cycle stands (R337). -/
def State.serveAll (b : Nat) (rs : List PalReq) (s : State) : State :=
  let rs := servedOrder rs
  each (rs.filter (fun r => r.op == .read && (s.bank b).on && (s.bank b).ownedBy r.unit && !(s.bank b).holdsUp)) (fun r => State.scrub b r.line)
    (each rs (State.serveReq b) (s.onPal (fun p => { p with answers := [] })))

/-- PAL_ACCESS (R302): the requests that reach a bank in one PAL cycle, each of a unit made by itself or through an agent (R301). Requests to a
bank whose handover, ramp or clear is in progress wait (R302, R306, R309). -/
def execPalAccess (bank : Nat) (reqs : List PalReq) (s : State) : Host.Outcome State Fault Refusal :=
  .next (onlyIf (s.up && decide (bank < 256)) (State.serveAll bank
    (reqs.filter (fun r => decide (r.line < 8192 ∧ (r.agent = 0 ∨ r.agent = 2 ∨ r.agent = 6))))) s)

/-- Accesses that have waited are served in the order made, once nothing holds them up (R306, R309). -/
def State.serveWaiting (b : Nat) (s : State) : State :=
  let k := s.bank b
  if k.waiting.isEmpty || (k.on && k.holdsUp) then s
  else
    let s := each k.waiting (State.serveReq b) ((s.onBank b (fun k => { k with waiting := [] })).onPal (fun p => { p with answers := [] }))
    each (k.waiting.filter (fun r => r.op == .read && (s.bank b).ownedBy r.unit && (s.bank b).on)) (fun r => State.scrub b r.line) s

-- Spans of lines, as units read and write them.

/-- An access of a unit to one line, whose bank and line stand in one number, bank × 8,192 + line. -/
def State.touch (unit c g : Nat) (op : LineOp) (s : State) : State :=
  let b := g / 8192 % 256
  let s := s.access b { unit := unit, agent := 0, line := g % 8192, op := op, upset := 0, noise := 0, declines := false, ctx := c }
  if op = .read ∧ (s.bank b).on ∧ (s.bank b).ownedBy unit ∧ !(s.bank b).holdsUp then s.scrub b (g % 8192) else s

/-- A unit would wait for an access to the line (R302). -/
def State.lineHeld (s : State) (unit g : Nat) : Bool :=
  let k := s.bank (g / 8192 % 256)
  k.on && k.ownedBy unit && k.holdsUp

/-- Reads lines for a unit with the statuses of R302; the flag tells that a line failed twice and is to be replaced (R317), or has to wait (R306,
R309), so that the reader lacks its input. -/
def State.readEach (unit c : Nat) (gs : List Nat) (s : State) : List Byte × Bool × State :=
  gs.foldl (fun (a : List Byte × Bool × State) g =>
    if a.2.2.lineHeld unit g then (a.1 ++ List.replicate 64 0, true, a.2.2)
    else
      let s := a.2.2.touch unit c g .read
      (a.1 ++ lineBytes s.pal.last, a.2.1 || s.pal.lastStat == 3, s)) ([], false, s)

/-- Reads n lines of a bank for a unit, wrapping in the bank. -/
def State.readLines (unit c bank line n : Nat) (s : State) : List Byte × Bool × State :=
  s.readEach unit c ((List.range n).map (fun i => 8192 * bank + (line + i) % 8192))

/-- Writes lines of a bank for a unit, wrapping in the bank. -/
def State.writeLines (unit c bank line : Nat) (data : List Byte) (s : State) : State :=
  ((pieces 64 data).foldl (fun (a : State × Nat) p =>
    (a.1.touch unit c (8192 * bank + a.2 % 8192) (.write (lineOf p) (BitVec.allOnes 64)), a.2 + 1)) (s, line)).1

/-- Reads n bytes from a Palette byte address for a unit. -/
def State.readSpan (unit c addr n : Nat) (s : State) : List Byte × Bool × State :=
  let r := s.readEach unit c ((List.range (ceilDiv (addr % 64 + n) 64)).map (addr / 64 + ·))
  (slice r.1 (addr % 64) n, r.2)

/-- Byte enables of bytes lo to hi − 1 of a line. -/
def lineMask (lo hi : Nat) : BitVec 64 := BitVec.ofNat 64 (2 ^ hi - 2 ^ lo)

/-- Writes bytes at a Palette byte address for a unit, each line with the enables of the bytes it takes (R299). -/
def State.writeSpan (unit c addr : Nat) (data : List Byte) (s : State) : State :=
  let at_ := addr % 64
  let whole := List.replicate at_ 0 ++ data
  ((pieces 64 whole).foldl (fun (a : State × Nat) p =>
    let lo := if a.2 = 0 then at_ else 0
    (a.1.touch unit c (addr / 64 + a.2) (.write (lineOf p) (lineMask lo p.length)), a.2 + 1)) (s, 0)).1

-- Handovers (R305 to R307).

/-- Hands a bank to a new owner (R306, R337); the tester yields. -/
def State.handBank (b owner set : Nat) (s : State) : State :=
  (s.testerYield b).onBank b (fun k => { k with
    owner := BitVec.ofNat 8 (ownerCode owner), set := BitVec.ofNat 16 set, busy := true })

/-- PAL_BANK_OWNER (R306): a write by Easel or by the current owner starts a handover; any other write, and one while BUSY
is 1, is ignored and counted (R305, R307). -/
def execPalBankOwner (writer bank : Nat) (value : Word) (s : State) : Host.Outcome State Fault Refusal :=
  .next (onlyIf (s.up && decide (bank < 256)) (fun s =>
    let k := s.bank bank
    if (writer == 1 || k.ownedBy writer) && !k.busy then s.handBank bank (bits value.toNat 7 0) (bits value.toNat 31 16)
    else s.nonOwner writer) s)

/-- A conversion that waited for PAL begins (R320). -/
def Bank.beginConv (k : Bank) : Bank :=
  match k.convWait with
  | some m => if k.owner = 0 ∧ !k.busy ∧ k.on ∧ !k.clear ∧ k.conv.isNone then { k with conv := some m, convWait := none } else k
  | none => k

/-- BANK_HANDOVER_DONE (R306): the old owner's accesses have drained; a conversion holds the handover (R337). -/
def execBankHandoverDone (bank : Nat) (s : State) : Host.Outcome State Fault Refusal :=
  .next (onlyIf (s.up && (s.bank bank).busy && (s.bank bank).conv.isNone)
    (fun s => (s.onBank bank (fun k => ({ k with busy := false } : Bank).beginConv)).serveWaiting bank) s)

-- PAL_COMMIT (R308 to R312, R320).

/-- A bank takes its shadow values (R311, R320): from OFF to ON it clears, to OFF its contents are lost, a change of base
mode waits for its conversion. A fenced bank stays OFF. -/
def Bank.commit (k : Bank) : Bank :=
  if k.fenced then k
  else
    let n := k.shadow
    let was := k.ctl.state
    let off (x : BitVec 2) : Bool := x == 0
    let up (x : BitVec 2) : Bool := x.getLsbD 1
    let m := if off was || off n.state || careful n.mode == careful k.ctl.mode then n.mode else k.ctl.mode
    let k := { k with
      ctl := { n with mode := m }
      convWait := if m = n.mode then none else some n.mode
      conv := if off n.state || m = n.mode then none else k.conv.map (fun _ => n.mode)
      clear := if off was && up n.state then true else if off n.state then false else k.clear
      lines := if off was || off n.state then [] else k.lines }
    (if k.conv.isSome then { k with convWait := none } else k).beginConv

/-- PAL_COMMIT (R311): every bank takes its shadow values at once; the tester yields what has become pinned (R325), and
loses a bank that went OFF. -/
def State.palCommit (s : State) : State :=
  let s := s.onPal (fun p => { p with banks := p.banks.map (fun b => (b.1, b.2.commit)) })
  let s := each ((s.pal.banks.filter (fun p => !p.2.waiting.isEmpty)).map (·.1)) State.serveWaiting s.testerCheck
  match s.pal.tester.hold with
  | some (b, _, _) => if (s.bank b).on then s else s.onPal (fun p => { p with tester := { p.tester with hold := none } })
  | none => s

/-- PAL_COMMIT as its own row. -/
def execPalCommit (s : State) : Host.Outcome State Fault Refusal := .next (onlyIf s.easelRuns State.palCommit s)

/-- BANK_CLEAR_DONE (R309): the ramp and the clear are over and the bank serves. -/
def execBankClearDone (bank : Nat) (s : State) : Host.Outcome State Fault Refusal :=
  .next (onlyIf (s.up && (s.bank bank).clear) 
    (fun s => (s.onBank bank (fun k => ({ k with clear := false } : Bank).beginConv)).serveWaiting bank) s)

/-- Every line of a bank read, with the counts of R316, and rewritten with check bits of a mode; a line that fails its check is poisoned (R320). -/
def Bank.convert (k : Bank) (m : BitVec 2) : Bank :=
  let d := validLine (careful m) 0
  let one (p : PLine) : PLine :=
    let r := p.read (careful k.ctl.mode)
    if r.2.1 then poisonedLine (careful m) r.1 else validLine (careful m) r.1
  { k with
    ctl := { k.ctl with mode := m }, conv := none
    corr := k.lines.foldl (fun n p => satAdd n (p.2.read (careful k.ctl.mode)).2.2) k.corr
    check := k.lines.foldl (fun n p => if (p.2.read (careful k.ctl.mode)).2.1 then satInc n else n) k.check
    lines := (k.lines.map (fun p => (p.1, one p.2))).filter (fun p => decide (p.2 ≠ d)) }

/-- CONVERSION_DONE (R320): it is an access of PAL to the bank, for which the tester yields (R325). -/
def execConversionDone (bank : Nat) (s : State) : Host.Outcome State Fault Refusal :=
  .next (match (s.bank bank).conv with
    | some m => onlyIf s.up (fun s => (s.testerYield bank).onBank bank (fun k => k.convert m)) s
    | none => s)

-- The background tester (R322 to R326).

/-- The tester may borrow the bank (R323); `recent` are the banks accessed within IDLE cycles. -/
def State.mayBorrow (s : State) (recent : List Nat) (b : Nat) : Bool :=
  let k := s.bank b
  k.on && !k.ctl.mode.getLsbD 1 && !s.pinned b && k.conv.isNone && !k.clear && k.ctl.testEn && !recent.contains b &&
    !(s.pal.tester.exclUrg && k.ctl.urg)

/-- A chunk ends: its lines are restored as they were, the next chunk follows, after the last one the next bank (R324). -/
def State.chunkDone (b first : Nat) (saved : List PLine) (s : State) : State :=
  let s := s.onBank b (fun k =>
    { (((List.range saved.length).zip saved).foldl (fun k p => k.store (first + p.1) p.2) k) with chunk := (k.chunk + 1) % 128 })
  s.onPal (fun p => { p with tester := { p.tester with
    hold := none, turn := if (first / 64 + 1) % 128 = 0 then (b + 1) % 256 else b } })

/-- TESTER_CHUNK (R324): with no chunk in progress, the tester borrows the next bank it may and copies 64 lines to its
shadow; with one in progress, the March operations end, and a failing cell is recorded and fences the bank (R326). -/
def execTesterChunk (recent : List Nat) (fail : Option MarchFail) (s : State) : Host.Outcome State Fault Refusal :=
  .next (onlyIf (s.serving && s.pal.tester.run) (fun s =>
    match s.pal.tester.hold with
    | some (b, first, saved) =>
      let s := s.chunkDone b first saved
      match fail with
      | none => s
      | some f => (s.onPal (fun p => { p with tester := { p.tester with
          fail := true, bank := BitVec.ofNat 8 b, line := BitVec.ofNat 13 f.line } })).fenceBank b
    | none =>
      let t := s.pal.tester.turn
      match ((List.range 256).map (fun i => (t + i) % 256)).find? (s.mayBorrow recent) with
      | none => s
      | some b =>
        let first := 64 * (s.bank b).chunk
        s.onPal (fun p => { p with tester := { p.tester with
          turn := b, hold := some (b, first, (List.range 64).map (fun i => (s.bank b).line (first + i))) } })) s)

-- Raw test access (R321).

/-- A raw command may reach the bank. -/
def State.rawOk (s : State) : Bool :=
  let k := s.bank s.pal.test.bank.toNat
  k.on && k.ctl.mode.getLsbD 1 && decide (k.owner.toNat ≤ 1) && !k.busy && !k.clear

/-- The line and the word in it that the raw test address names. -/
def PalTest.place (t : PalTest) : Nat × Nat := (t.word.toNat / 8, t.word.toNat % 8)

/-- A line with one word and its check bits replaced. -/
def PLine.setWord (p : PLine) (w d c : Nat) : PLine :=
  { data := BitVec.ofNat 512 (p.data.toNat - lineWord p.data w * 2 ^ (64 * w) + d % 2 ^ 64 * 2 ^ (64 * w))
    check := BitVec.ofNat 128 (p.check.toNat - checkWord p.check w * 2 ^ (16 * w) + c % 2 ^ 16 * 2 ^ (16 * w)) }

/-- A raw write (R321): the word's 64 data bits and 16 check bits exactly as given. -/
def State.rawWrite (s : State) : State :=
  let t := s.pal.test
  let s := s.onPal (fun p => { p with test := { p.test with done := false } })
  if s.rawOk then
    ((s.testerYield t.bank.toNat).onBank t.bank.toNat (fun k => k.store t.place.1
      ((k.line t.place.1).setWord t.place.2 (t.lo.toNat + 2 ^ 32 * t.hi.toNat) t.check.toNat))).onPal
      (fun p => { p with test := { p.test with done := true } })
  else s

/-- A raw read (R321): the stored bits, the word as the checker delivers it, and its finding; in TEST_SERVICE the finding
covers the line. -/
def State.rawRead (s : State) : State :=
  let t := s.pal.test
  let s := s.onPal (fun p => { p with test := { p.test with done := false } })
  if s.rawOk then
    let s := s.testerYield t.bank.toNat
    let k := s.bank t.bank.toNat
    let p := k.line t.place.1
    let d := lineWord p.data t.place.2
    let c := checkWord p.check t.place.2
    let car := careful k.ctl.mode
    let r := if car then decodeWord d c
      else
        let poison := (List.range 8).any (fun w => (checkWord p.check w).testBit 15)
        (if poison then 5 else if (p.read false).2.1 then 4 else 0, d)
    s.onPal (fun u => { u with test := { u.test with
      done := true, lo := BitVec.ofNat 32 d, hi := BitVec.ofNat 32 (d / 2 ^ 32), check := BitVec.ofNat 16 c,
      find := BitVec.ofNat 3 r.1, syn := if car then BitVec.ofNat 14 (syndrome d c) else 0,
      corrLo := BitVec.ofNat 32 r.2, corrHi := BitVec.ofNat 32 (r.2 / 2 ^ 32) } })
  else s

/-- RAW_WRITE (R321). -/
def execRawWrite (s : State) : Host.Outcome State Fault Refusal := .next (onlyIf s.up State.rawWrite s)

/-- RAW_READ (R321). -/
def execRawRead (s : State) : Host.Outcome State Fault Refusal := .next (onlyIf s.up State.rawRead s)

end Sys2Proof.Machine
end

