-- ==== Sys2Proof/Machine/Swatch.lean ====
section
/-! DEFINITION. The Swatch Map and the Migration engine (R340 to R376): tags, slots, entries, victims, evictions, accesses, moves, poison. -/

namespace Sys2Proof.Machine

-- Tags (R343, R344).

/-- A tag that the Migration engine builds (R343, R344). -/
def makeTag (obj idx fmt gen : Nat) (data : List Byte) : List Byte :=
  let body := bytesOf 60 (0x5A7C + obj % 2 ^ 20 * 2 ^ 16 + idx % 2 ^ 30 * 2 ^ 36 + 16384 * 2 ^ 66 + fmt % 16 * 2 ^ 84 +
    gen % 256 * 2 ^ 88 + crc32 (slice data 0 16384) * 2 ^ 96)
  body ++ bytesOf 4 (crc32 body)

/-- A tag that no swatch passes verification with: what is written with data that could not be read (log 108). -/
def noTag : List Byte := List.replicate 64 0

/-- A swatch passes verification (R344). -/
def tagOk (obj idx : Nat) (data tag : List Byte) : Bool :=
  let t := natOf tag
  tag.length == 64 && bits t 15 0 == 0x5A7C && bits t 35 16 == obj && bits t 65 36 == idx &&
    bits t 511 480 == crc32 (tag.take 60) && bits t 127 96 == crc32 (slice data 0 16384)

/-- FMT of a tag; 4 to 15 treated as 0 (R343). -/
def tagFmt (tag : List Byte) : Nat := let f := bits (natOf tag) 87 84; if 3 < f then 0 else f
/-- GEN of a tag. -/
def tagGen (tag : List Byte) : Nat := bits (natOf tag) 95 88

-- Places.

/-- The set of a swatch (R354). -/
def swatchSet (o i : Nat) : Nat := (i % 65536) ^^^ (o % 65536) ^^^ (bits o 19 16 * 4096)

/-- Keys of an entry that waits for its way begin here. -/
def waitKey : Nat := 2 ^ 18

/-- Entries of a swatch. -/
def Swatches.entriesOf (w : Swatches) (o i : Nat) : List (Nat × Entry) := w.table.filter (fun p => p.2.obj == o && p.2.idx == i)
/-- The entry of a swatch's copy, or one without a home. -/
def Swatches.copy (w : Swatches) (o i : Nat) : Option (Nat × Entry) := (w.entriesOf o i).find? (fun p => !p.2.homeEnt)
/-- The home entry of a swatch. -/
def Swatches.homeEntry (w : Swatches) (o i : Nat) : Option (Nat × Entry) := (w.entriesOf o i).find? (fun p => p.2.homeEnt)
/-- Changes an entry. -/
def State.onEntry (k : Nat) (f : Entry → Entry) (s : State) : State :=
  s.onSw (fun w => { w with table := w.table.map (fun p => if p.1 = k then (p.1, f p.2) else p) })
/-- The entry under a key. -/
def Swatches.entry (w : Swatches) (k : Nat) : Option Entry := (w.table.find? (fun p => p.1 == k)).map (·.2)
/-- Removes an entry; its slot and its way are free. -/
def State.dropEntry (k : Nat) (s : State) : State := s.onSw (fun w => { w with table := eraseKey k w.table })

/-- A slot's place as one number: T1 by bank and slot; T2 by port, position, bank and slot. -/
def Entry.loc (e : Entry) : Nat :=
  if e.t2 then ((e.port * 4 + e.pos) * 256 + e.bank) * 32 + e.slot else e.bank * 32 + e.slot

/-- The slots of a tier in ascending order, but for those of banks that Easel takes back (R356, R595). -/
def Swatches.slots (w : Swatches) (t2 : Bool) : List Nat :=
  let bs := if t2 then w.pool2.map (fun p => (p.1 * 4 + p.2.1) * 256 + p.2.2) else w.pool.filter (fun b => !w.leaving.contains b)
  ((bs.mergeSort (· ≤ ·)).flatMap (fun b => (List.range 31).map (fun i => b * 32 + i)))

/-- The entry that holds a slot. -/
def Swatches.holder (w : Swatches) (t2 : Bool) (l : Nat) : Option (Nat × Entry) :=
  w.table.find? (fun p => p.2.t2 == t2 && p.2.loc == l && p.2.place)

/-- The slots of a tier that no entry holds, in ascending order. -/
def Swatches.emptySlots (w : Swatches) (t2 : Bool) : List Nat := (w.slots t2).filter (fun l => (w.holder t2 l).isNone)

/-- The lowest slot that no entry holds or is to have. -/
def Swatches.freeSlot (w : Swatches) (t2 : Bool) : Option Nat :=
  (w.emptySlots t2).find? (fun l => w.table.all (fun p => !(p.2.t2 == t2 && p.2.loc == l && p.2.st == .promoting)))

/-- Home of an object, by the map. -/
def Swatches.homeIn (w : Swatches) (o : Nat) : Nat := ((w.objs.find? (fun p => p.1 == o)).map (fun p => p.2.home.toNat)).getD 0

/-- Slots of a tier promised to home moves in progress (R350). -/
def Swatches.promised (w : Swatches) (t2 : Bool) : Nat :=
  sumN ((w.placing.filter (fun p => w.homeIn p.obj == (if t2 then 2 else 1))).map (fun p => p.left.length))

/-- Free slots of a tier that no home move has been promised. -/
def Swatches.freeSlots (w : Swatches) (t2 : Bool) : Nat :=
  ((w.emptySlots t2).filter (fun l => w.table.all (fun p => !(p.2.t2 == t2 && p.2.loc == l && p.2.st == .promoting)))).length - w.promised t2

/-- The lowest free slot that a copy may take. -/
def Swatches.copySlot (w : Swatches) (t2 : Bool) : Option Nat := if w.freeSlots t2 = 0 then none else w.freeSlot t2

/-- Puts a slot into an entry. -/
def Entry.setLoc (e : Entry) (l : Nat) : Entry :=
  { e with slot := l % 32, bank := l / 32 % 256, port := l / 32 / 256 / 4, pos := l / 32 / 256 % 4 }

/-- Home and BASE of a swatch: the old ones until it has moved (R350). -/
def State.homeOf (s : State) (o i : Nat) : Nat × Nat :=
  match s.sw.placing.find? (fun p => p.obj == o && p.left.contains i), s.obj o with
  | some p, _ => (p.oldHome.toNat, p.oldBase.toNat)
  | none, some b => (b.home.toNat, b.base.toNat)
  | none, none => (0, 0)

/-- Size of an object in swatches. -/
def State.objSize (s : State) (o : Nat) : Nat := ((s.obj o).map (·.size)).getD 0

/-- Addresses of a swatch's data and of its tag in a tier with BASE (R342). -/
def swatchAddr (base size i : Nat) : Nat × Nat := (base + 16384 * i, base + 16384 * size + 64 * i)

/-- The copy tier that a promotion seeks: the lowest-numbered one that R346 allows; true for T2. -/
def Obj.copyTier (b : Obj) : Option Bool :=
  if b.allow.getLsbD 0 && decide (1 < b.home.toNat) then some false
  else if b.allow.getLsbD 1 && decide (2 < b.home.toNat) then some true
  else none
/-- A copy in the tier may stand (R346, R352). -/
def Obj.allows (b : Obj) (t2 : Bool) : Bool :=
  if t2 then b.allow.getLsbD 1 && decide (2 < b.home.toNat) else b.allow.getLsbD 0 && decide (1 < b.home.toNat)

-- Readers.

/-- A reader as it is noted: the context, or, for a Retouch step, whose context hands nothing over (R228), a number beyond all contexts. -/
def State.readerOf (s : State) (unit c : Nat) : Nat := if s.retouchOn unit c then noCtx + 1 + c else c

/-- A reader for a REALTIME context. -/
def State.realReader (s : State) (c : Nat) : Bool := (s.ctx c).st == .bound && (s.ctx c).bind.realtime

/-- What a reader asked for cannot be had: it receives CHECK, and declines (R318, R375). -/
def State.failReader (r : Nat × Nat) (s : State) : State :=
  let s := s.respond 0 3
  if noCtx < r.1 then s.spoilRetouch (r.1 - noCtx - 1) else if r.1 = noCtx then s else s.decline 0 r.1

/-- A reader of a POISONED swatch (R369): a REALTIME context hands over, a BESTEFFORT one waits. -/
def State.poisonReader (s : State) (c : Nat) : State := if s.realReader c then s.handover c 5 else s

/-- Readers receive their lines of a swatch. -/
def State.giveLines (rs : List (Nat × Nat)) (data : List Byte) (s : State) : State :=
  each rs (fun r s => s.respond (lineOf (slice data (64 * r.2) 64)) 0) s

/-- Data with lines replaced. -/
def patch (data : List Byte) (ws : List (Nat × Line)) : List Byte :=
  ws.foldl (fun d w => d.take (64 * w.1) ++ lineBytes w.2 ++ d.drop (64 * w.1 + 64)) data

-- Transfers of the Mover that wait for a swatch (R342, R418).

/-- Changes one outstanding transfer. -/
def State.onXfer (q id : Nat) (f : Xfer → Xfer) (s : State) : State :=
  s.onQueue q (fun x => { x with out := x.out.map (fun y => if y.id = id then f y else y) })

/-- Bytes that have arrived, in order. -/
def Xfer.data (x : Xfer) : List Byte := x.got.foldl (fun d p => slice d 0 p.1 ++ p.2 ++ d.drop (p.1 + p.2.length)) []
/-- All bytes have arrived. -/
def Xfer.whole (x : Xfer) : Bool := decide (x.len ≤ sumN (x.got.map (fun p => p.2.length)))

/-- The write of a stream to host memory leaves once its bytes are there (R418). -/
def State.hostOut (q id : Nat) (s : State) : State :=
  match (s.queue q).out.find? (fun x => x.id == id) with
  | some x => match x.kind with
    | .stream _ dst _ 1 _ _ _ =>
      if x.whole && !x.dropped && x.upto.isNone then
        let s := s.writeHost dst.toNat (x.data.take x.len) (.mover q id 0)
        s.onXfer q id (fun y => { y with upto := some (s.link.seqs.txNext - 1) })
      else s
    | _ => s
  | none => s

/-- Bytes arrive for a transfer. -/
def State.xferGot (q id off : Nat) (data : List Byte) (s : State) : State :=
  (s.onXfer q id (fun x => { x with got := x.got ++ [(off, data)] })).hostOut q id

/-- Bytes of a swatch reach the transfers that wait for them. -/
def State.tierArrived (o i : Nat) (data : List Byte) (s : State) : State :=
  each (s.waitFor o i) (fun p s => s.xferGot p.1 p.2.1.id 0 (slice data p.2.2 p.2.1.len)) s

/-- A swatch that transfers wait for cannot be read: they receive CHECK, and their source declines (R318, R375). -/
def State.tierFailed (o i : Nat) (s : State) : State :=
  each (s.waitFor o i) (fun p s => (s.xferGot p.1 p.2.1.id 0 (slice [] 0 p.2.1.len)).decline 2 p.2.1.ctx) s

-- Slots (R356).

/-- The lines of a slot: its data, and last its tag. -/
def slotLines (bank slot : Nat) : List Nat := (List.range 256).map (fun i => 8192 * bank + (256 * slot + i)) ++ [8192 * bank + (7936 + slot)]

/-- What a bank will hold once a handover or clear is over and the accesses that wait for it are served (R306, R309; log 109). -/
def State.ahead (bank : Nat) (s : State) : State :=
  if (s.bank bank).holdsUp then (s.onBank bank (fun k => { k with busy := false, clear := false })).serveWaiting bank else s

/-- The Migration engine reads a slot of an own pool bank: data, tag, whether a line could not be read; and the state with the checks counted. -/
def State.readSlot (bank slot : Nat) (s : State) : (List Byte × List Byte × Bool) × State :=
  let r := (s.ahead bank).readEach 6 noCtx (slotLines bank slot)
  ((r.1.take 16384, r.1.drop 16384, r.2.1), if (s.bank bank).holdsUp then s else r.2.2)

/-- The Migration engine writes data and tag of a slot. -/
def State.slotPut (bank slot : Nat) (data tag : List Byte) (s : State) : State :=
  (s.writeLines 6 noCtx bank (256 * slot) (slice data 0 16384)).writeLines 6 noCtx bank (7936 + slot) (slice tag 0 64)

/-- Stack address of a neighbour's slot (R355, R566). -/
def Entry.stack (e : Entry) : Nat := e.port * 4 + e.pos
/-- PARAM of a frame about a line of a lent slot, line 256 being its tag (log 12). -/
def Entry.tierLine (e : Entry) (l : Nat) : Nat := (e.bank * 32 + e.slot) % 8192 * 512 + l

/-- Writes a swatch to the slot of an entry: an own bank, or a neighbour's (R595). -/
def State.entryPut (e : Entry) (data tag : List Byte) (s : State) : State :=
  if e.t2 then s.weave e.stack 0x42 4 (e.tierLine 0) 0 (data ++ tag) else s.slotPut e.bank e.slot data tag

/-- The tag of a swatch that moves (R344): with FMT and GEN of the tag that came with it; data that could not be read get none that verifies. -/
def tagMoved (o i : Nat) (data tag : List Byte) (lacks : Bool) : List Byte :=
  if lacks then noTag else makeTag o i (tagFmt tag) (tagGen tag) data
/-- The tag of a swatch that a unit has written: FMT 0 and the next GEN (R343, R344). -/
def tagWritten (o i : Nat) (data tag : List Byte) (lacks : Bool) : List Byte :=
  if lacks then noTag else makeTag o i 0 (tagGen tag + 1) data

/-- A slot that a unit has written gets its new tag. -/
def State.retag (e : Entry) (s : State) : State :=
  let r := s.readSlot e.bank e.slot
  r.2.writeLines 6 noCtx e.bank (7936 + e.slot) (tagWritten e.obj e.idx r.1.1 r.1.2.1 r.1.2.2)

/-- Asks a neighbour for a whole slot, once for all who wait for it (R596). -/
def State.askWhole (k : Nat) (s : State) : State :=
  match s.sw.entry k with
  | some e => if e.whole then s else (s.onEntry k (fun x => { x with whole := true })).weave e.stack 0x40 4 (e.tierLine 0) 0 []
  | none => s

/-- Writes a swatch with its tag to its home tier (R342, R347, R384, R596). -/
def State.writeHome (o i ctx : Nat) (data tag : List Byte) (s : State) : State :=
  let h := s.homeOf o i
  let a := swatchAddr h.2 (s.objSize o) i
  match h.1 with
  | 3 => (s.writeHost a.1 data (.gallery o i)).writeHost a.2 tag (.gallery o i)
  | 4 => if s.chestWritable then (s.chestPut false a.1 data ctx).chestPut false a.2 tag ctx else s
  | 5 => (s.weave (h.2 / 2 ^ 59) 0x42 4 (a.1 / 64 % 2 ^ 32) 1 data).weave (h.2 / 2 ^ 59) 0x42 4 (a.2 / 64 % 2 ^ 32) 1 tag
  | _ => match s.sw.homeEntry o i with | some p => s.entryPut p.2 data tag | none => s

/-- Issues the reads of a swatch and its tag from a tier with BASE; T1 and T4 need no frames. -/
def State.readTier (o i home base : Nat) (s : State) : State :=
  let a := swatchAddr base (s.objSize o) i
  match home with
  | 3 => (each (List.range 4) (fun k s => s.readHost (a.1 + 4096 * k) 4096 (.gallery o i)) s).readHost a.2 64 (.gallery o i)
  | 5 => (s.weave (base / 2 ^ 59) 0x40 4 (a.1 / 64 % 2 ^ 32) 1 []).weave (base / 2 ^ 59) 0x40 4 (a.2 / 64 % 2 ^ 32) 3 []
  | 2 => match s.sw.homeEntry o i with | some p => s.askWhole p.1 | none => s
  | _ => s

/-- What a read of a swatch in a tier brings: own tiers answer from the state, others with what arrived. Answers data, tag, and
whether the read was correctable. -/
def State.tierData (o i home base : Nat) (good : Bool) (data : List Byte) (s : State) : (List Byte × List Byte × Bool) × State :=
  let a := swatchAddr base (s.objSize o) i
  match home with
  | 4 => ((s.chest.bytes false a.1 16384, s.chest.bytes false a.2 64,
      good && !s.chest.lostIn false a.1 16384 && !s.chest.lostIn false a.2 64 && !s.chest.fenced), s)
  | 1 => match s.sw.homeEntry o i with
    | some p => let r := s.readSlot p.2.bank p.2.slot; ((r.1.1, r.1.2.1, !r.1.2.2), r.2)
    | none => (([], [], false), s)
  | _ => ((slice data 0 16384, slice data 16384 64, good), s)

-- Victims and evictions (R358 to R362).

/-- The object has PIN. -/
def State.pinnedObj (s : State) (o : Nat) : Bool := match s.obj o with | some b => b.pin | none => false

/-- Reads and writes in progress of a swatch with an entry (R355, R361): those noted in it, and the Mover's. -/
def State.claimOf (s : State) (e : Entry) : Nat := e.claim + (s.waitFor e.obj e.idx).length

/-- A swatch that may be evicted (R362). -/
def State.victimOk (s : State) (e : Entry) : Bool :=
  e.st == .resident && !e.homeEnt && e.place && !e.wb && !e.ppin && s.claimOf e == 0 && !s.pinnedObj e.obj

/-- The preference class of a victim (R362). -/
def State.victimClass (s : State) (e : Entry) : Nat :=
  match s.obj e.obj with
  | some b => if b.ref = 0 then 1 else match b.dclass.toNat with | 2 => 2 | 1 => 3 | _ => 4
  | none => 1

/-- One pass of the search over slots: the table with USE cleared, a candidate of class 1, the best candidate. -/
def State.victimPass (s : State) (t2 : Bool) : List Nat → SMap Entry → Option (Nat × Nat) →
    SMap Entry × Option Nat × Option (Nat × Nat)
  | [], t, best => (t, none, best)
  | l :: ls, t, best =>
    match t.find? (fun p => p.2.t2 == t2 && p.2.loc == l && p.2.place) with
    | none => s.victimPass t2 ls t best
    | some (k, e) =>
      let ok := s.victimOk e && !e.use
      if ok && s.victimClass e == 1 then (t, some k, best)
      else
        let best := if ok then (match best with
          | none => some (s.victimClass e, k)
          | some b => if s.victimClass e < b.1 then some (s.victimClass e, k) else some b) else best
        s.victimPass t2 ls (t.map (fun p => if p.1 = k then (p.1, { p.2 with use := false }) else p)) best

/-- The victim of a tier (R362): the key found, and the state with USE cleared. -/
def State.victim (t2 : Bool) (s : State) : Option Nat × State :=
  let ls := s.sw.slots t2
  let last := if t2 then s.sw.last2 else s.sw.last1
  let order := ls.filter (fun l => decide (last < l)) ++ ls.filter (fun l => decide (l ≤ last))
  let a := s.victimPass t2 order s.sw.table none
  let s := s.onSw (fun w => { w with table := a.1 })
  match a.2.1, a.2.2 with
  | some k, _ => (some k, s)
  | none, some b => (some b.2, s)
  | none, none =>
    let b := s.victimPass t2 order s.sw.table none
    let s := s.onSw (fun w => { w with table := b.1 })
    match b.2.1, b.2.2 with
    | some k, _ => (some k, s)
    | none, some c => (some c.2, s)
    | none, none => (none, s)

/-- Notes the slot of the last victim. -/
def State.noteVictim (e : Entry) (s : State) : State :=
  s.onSw (fun w => if e.t2 then { w with last2 := e.loc } else { w with last1 := e.loc })

/-- Counts a completed eviction. -/
def State.countEvict (s : State) : State := s.onSw (fun w => { w with evicts := w.evicts + 1 })

/-- A MAXFLIGHT place is free (R359, R379). -/
def Swatches.mayFly (w : Swatches) : Bool := decide (w.flight.length < clampN 1 64 w.maxflight.toNat)

/-- Queues a move. -/
def State.queueMove (m : Move) (s : State) : State := s.onSw (fun w => { w with queue := w.queue ++ [m] })

/-- The write-back of a copy begins (R360): it is a move in flight; a slot of a neighbour is read first. -/
def State.beginWb (k : Nat) (e : Entry) (s : State) : State :=
  let s := (s.onEntry k (fun x => { x with wb := true, wbRead := x.t2, rewrite := false })).onSw (fun w => { w with
    flight := w.flight ++ [{ kind := .evict, obj := e.obj, idx := e.idx }] })
  if e.t2 then s.askWhole k
  else
    let r := s.readSlot e.bank e.slot
    r.2.writeHome e.obj e.idx 0 r.1.1 (tagMoved e.obj e.idx r.1.1 r.1.2.1 r.1.2.2)

/-- Evicts an entry (R358, R360): after the invalidation a clean copy is gone at once; a DIRTY one is EVICTING until its write-back ends, which begins
when a MAXFLIGHT place is free (R359). -/
def State.evict (k : Nat) (s : State) : State :=
  match s.sw.entry k with
  | none => s
  | some e =>
    if e.dirty then
      let s := s.onEntry k (fun x => { x with st := .evicting, holders := [] })
      if s.sw.mayFly then s.beginWb k e else s.queueMove { kind := .evict, obj := e.obj, idx := e.idx }
    else (s.dropEntry k).countEvict

-- Ways and slots (R354, R356, R363, R364).

/-- Keys of a set's four ways. -/
def wayKeys (set : Nat) : List Nat := (List.range 4).map (fun w => 4 * set + w)

/-- The lowest free way of a set. -/
def Swatches.freeWay (w : Swatches) (set : Nat) : Option Nat := (wayKeys set).find? (fun k => w.table.all (fun p => p.1 != k))

/-- A key for an entry that waits for its way. -/
def Swatches.waitingKey (w : Swatches) (set : Nat) : Nat :=
  let k := waitKey + 4 * set
  ((List.range (w.table.length + 1)).map (fun i => k + i * 2 ^ 19)).find? (fun k => w.table.all (fun p => p.1 != k)) |>.getD k

/-- The key of a new entry of a set: a free way, or one that waits. -/
def Swatches.newKey (w : Swatches) (set : Nat) : Nat := (w.freeWay set).getD (w.waitingKey set)

/-- The copy to be evicted for the home entries of a set that wait (R354): none where as many entries of the set leave as wait; one with PIN only where
there is no other (log 110). -/
def State.wayVictim (s : State) (set : Nat) : Option Nat :=
  let here := s.sw.table.filter (fun p => swatchSet p.2.obj p.2.idx == set)
  let waits := here.filter (fun p => decide (waitKey ≤ p.1) && p.2.homeEnt)
  let inWays := here.filter (fun p => (wayKeys set).contains p.1)
  let ok := inWays.filter (fun p => !p.2.homeEnt && p.2.st == .resident && s.claimOf p.2 == 0 && !p.2.wb)
  if waits.length ≤ (inWays.filter (fun p => p.2.st == .evicting)).length then none
  else ((ok.find? (fun p => !s.pinnedObj p.2.obj)).orElse (fun _ => ok.head?)).map (·.1)

/-- Entries that wait take the ways that have become free; a home entry has a RESIDENT copy evicted for it (R354). -/
def State.settleWays (s : State) : State :=
  each ((s.sw.table.filter (fun p => decide (waitKey ≤ p.1))).map (·.1)) (fun k s =>
    match s.sw.entry k with
    | none => s
    | some e =>
      let set := swatchSet e.obj e.idx
      let s := if (s.sw.freeWay set).isNone && e.homeEnt then (match s.wayVictim set with | some v => s.evict v | none => s) else s
      match s.sw.freeWay set with
      | some f => s.onSw (fun w => { w with table := putRaw f ((w.entry k).getD e) (eraseKey k w.table) })
      | none => s) s

/-- The slot that a promotion waits for is its own once no entry holds it. -/
def State.placeIn (k : Nat) (s : State) : State :=
  match s.sw.entry k with
  | some e => if (s.sw.holder e.t2 e.loc).isNone then s.onEntry k (fun x => { x with place := true }) else s
  | none => s

/-- A promotion takes another slot, a free one or a victim's; where there is none, it goes on waiting (R364). -/
def State.reslot (k : Nat) (e : Entry) (s : State) : State :=
  match s.sw.copySlot e.t2 with
  | some l => (s.onEntry k (fun x => x.setLoc l)).placeIn k
  | none =>
    let v := s.victim e.t2
    match v.1.bind (fun j => (v.2.sw.entry j).map (fun x => (j, x))) with
    | some (j, x) => (((v.2.noteVictim x).onEntry k (fun y => y.setLoc x.loc)).evict j).placeIn k
    | none => v.2

/-- Promotions that wait for a slot: one that has been left is theirs, one whose holder stays after all is given up for another (R364). -/
def State.settleSlots (s : State) : State :=
  each ((s.sw.table.filter (fun p => p.2.st == .promoting && !p.2.place)).map (·.1)) (fun k s =>
    match s.sw.entry k with
    | none => s
    | some e => match s.sw.holder e.t2 e.loc with
      | some h => if h.2.st = SwState.evicting then s else s.reslot k e
      | none => if (s.sw.slots e.t2).contains e.loc then s.placeIn k else s.reslot k e) s

/-- Home or POISONED entries of a set, but for the home entries of an object that moves (R350, R354). -/
def Swatches.fixedIn (w : Swatches) (o set : Nat) : Nat :=
  (w.table.filter (fun p => swatchSet p.2.obj p.2.idx == set && (p.2.homeEnt && p.2.obj != o || p.2.st == .poisoned))).length +
    sumN ((w.placing.filter (fun p => decide (w.homeIn p.obj ≤ 2))).map (fun p => (p.left.filter (fun i => swatchSet p.obj i == set)).length))

/-- Swatches, counted from index 0, whose home entries fit: no set beyond 4 home or POISONED entries, and a free slot for
each (R354, R508). -/
def Swatches.homeFit (w : Swatches) (o : Nat) : Nat → Nat → Nat → List Nat → Nat
  | 0, i, _, _ => i
  | n + 1, i, free, used =>
    let set := swatchSet o i
    if i < free ∧ w.fixedIn o set + (used.filter (· == set)).length < 4 then w.homeFit o n (i + 1) free (used ++ [set]) else i

/-- Makes the home entry of a swatch in a free slot (R354). -/
def State.takeHome (o i : Nat) (t2 : Bool) (s : State) : State :=
  match s.sw.freeSlot t2 with
  | none => s
  | some l =>
    let e := ({ obj := o, idx := i, st := .resident, t2 := t2, homeEnt := true } : Entry).setLoc l
    (s.onSw (fun w => { w with table := putRaw (w.newKey (swatchSet o i)) e w.table })).settleWays

/-- Counts a promotion without a slot (R363). -/
def State.noSlot (s : State) : State := s.onSw (fun w => { w with noslot := satInc w.noslot })

/-- A promotion's entry (R363): a slot, free or a victim's, and a way, free or a victim's; nothing is evicted unless both are
found. -/
def State.newEntry (o i : Nat) (t2 ppin : Bool) (s : State) : Option Nat × State :=
  let set := swatchSet o i
  let v := match s.sw.copySlot t2 with | some _ => (none, s) | none => s.victim t2
  let s := v.2
  if (s.sw.copySlot t2).isNone && v.1.isNone then (none, s.noSlot)
  else
    let e : Entry := { obj := o, idx := i, st := .promoting, t2 := t2, ppin := ppin, use := ppin, place := false }
    let ways := (s.sw.table.filter (fun p => (wayKeys set).contains p.1 && s.victimOk p.2))
    let wayV := ways.foldl (fun (a : Option (Nat × Entry)) p => match a with
      | none => some p
      | some b => if s.victimClass p.2 < s.victimClass b.2 then some p else some b) none
    let full := (s.sw.freeWay set).isNone
    if full && wayV.isNone then (none, s.noSlot)
    else
      let sameTier := match wayV with | some p => full && p.2.t2 == t2 | none => false
      -- the slot
      let (e, s) := if sameTier then (match wayV with | some p => (e.setLoc p.2.loc, s.noteVictim p.2) | none => (e, s))
        else match s.sw.copySlot t2 with
          | some l => (e.setLoc l, s)
          | none => match v.1.bind s.sw.entry with
            | some x => (e.setLoc x.loc, (s.noteVictim x).evict (v.1.getD 0))
            | none => (e, s)
      -- the way
      let s := if full then (match wayV with | some p => s.evict p.1 | none => s) else s
      let k := s.sw.newKey set
      (some k, (s.onSw (fun w => { w with table := putRaw k e w.table })).placeIn k)

-- Copies that are to go (R352, R356, R597).

/-- A copy is to leave its slot: its tier is no longer allowed, or its bank is taken back. -/
def State.unwelcome (s : State) (e : Entry) : Bool :=
  !((s.obj e.obj).map (·.allows e.t2)).getD true ||
    (if e.t2 then !s.sw.pool2.contains (e.port, e.pos, e.bank) else s.sw.leaving.contains e.bank)

/-- The evictions of such copies are queued, each once. -/
def State.sendAway (s : State) : State :=
  each ((s.sw.table.filter (fun p => !p.2.homeEnt && p.2.st == .resident && s.unwelcome p.2)).map (·.2)) (fun e s =>
    if s.sw.queue.any (fun m => m.kind == .evict && m.obj == e.obj && m.idx == e.idx) then s
    else s.queueMove { kind := .evict, obj := e.obj, idx := e.idx }) s

-- Banks (R300, R306, R356, R652).

/-- Free banks: owned by PAL, not fenced, at rest; careful-only banks serve as pinned banks only (R300, R620). -/
def State.freeBanks (s : State) (pin : Bool) : List Nat :=
  (List.range 256).filter (fun b =>
    let k := s.bank b
    k.owner == 0 && !k.busy && !k.fenced && (pin || !s.boot.nv.careful.contains b))

/-- Easel brings a bank of PAL up and hands it to an owner (R306, R308): ON, a pinned or handler bank in CAREFUL, another in SERVICE (R652), by a
commit and a handover; a bank that runs in the other base mode is converted first (R320). -/
def State.takeBank (owner : Nat) (pin urg : Bool) (b : Nat) (s : State) : State :=
  (s.onBank b (fun k => ({ k with
    shadow := { urg := urg, pin := pin, testEn := true, state := 2, mode := if pin || urg then 1 else 0 } } : Bank).commit)).handBank b owner 0

/-- Easel takes the lowest free banks for an owner (R300). -/
def State.takeBanks (n owner : Nat) (pin urg : Bool) (s : State) : List Nat × State :=
  let bs := (s.freeBanks (pin || urg)).take n
  (bs, each bs (State.takeBank owner pin urg) s)

/-- Easel gives banks back: owned by PAL and OFF (R652). -/
def State.giveBanks (bs : List Nat) (s : State) : State :=
  each bs (fun b s => (each (s.bank b).waiting (fun r => State.darkAccess r.unit) (s.testerYield b)).onBank b (fun k => if k.fenced then k else
    let c : BankCtl := { testEn := true, state := 0, mode := 0 }
    { k with owner := 0, set := 0, busy := false, shadow := c, ctl := c, lines := [], clear := false, convWait := none, conv := none
             waiting := [] })) s

/-- Pool banks whose slots have all been left go back to PAL (R356, R376). -/
def State.settlePool (s : State) : State :=
  let bs := s.sw.leaving.filter (fun b => s.sw.table.all (fun p => p.2.t2 || p.2.bank != b || !p.2.place))
  if bs.isEmpty then s
  else (s.onSw (fun w => { w with
    pool := w.pool.filter (fun b => !bs.contains b), leaving := w.leaving.filter (fun b => !bs.contains b) })).giveBanks bs

-- Waiting commands (R350, R351, R354).

/-- A swatch is no longer waited for by a PIN (R351). -/
def State.pinDone (o i : Nat) (s : State) : State :=
  s.onSw (fun w => { w with placing := w.placing.map (fun p => if p.obj = o then { p with pinLeft := p.pinLeft.filter (· != i) } else p) })

/-- An access or a promotion displaces the eviction of a copy (R360, R364): the copy is RESIDENT, a write-back under way completes, one not begun is given
up, and the promotion that wanted the slot looks for another. -/
def State.raceWon (k : Nat) (s : State) : State :=
  match s.sw.entry k with
  | none => s
  | some e =>
    let s := (s.onSw (fun w => { w with
      races := satInc w.races
      queue := if e.wb then w.queue else w.queue.filter (fun m => !(m.kind == .evict && m.obj == e.obj && m.idx == e.idx)) })).onEntry k
      (fun x => { x with st := .resident })
    s.settleSlots.sendAway

/-- Queues a placement promotion of a swatch without a copy (R351), one that leaves included (R364); false where no slot was found. -/
def State.placePromote (o i : Nat) (kind : MoveKind) (s : State) : Bool × State :=
  match s.obj o, s.sw.copy o i with
  | some _, some (k, e) => (true, if e.st = .evicting then s.raceWon k else s)
  | some b, none => match b.copyTier with
    | some t2 =>
      let r := s.newEntry o i t2 (kind == .prefetch)
      match r.1 with
      | some _ => (true, r.2.queueMove { kind := kind, obj := o, idx := i, cls := b.dclass.toNat })
      | none => (false, r.2)
    | none => (true, s)
  | none, _ => (true, s)

/-- The promotions that PIN asks for, in ascending index (R351); a clamp counts where slots ran out. -/
def State.startPins (p : Placing) (s : State) : State :=
  let r := (List.range (s.objSize p.obj)).foldl (fun (a : Bool × List Nat × State) i =>
    let had := (a.2.2.sw.copy p.obj i).isSome
    let r := a.2.2.placePromote p.obj i .placement
    (a.1 && r.1, if !had && (r.2.sw.copy p.obj i).isSome then a.2.1 ++ [i] else a.2.1, r.2)) (true, [], s)
  let s := r.2.2.onSw (fun w => { w with placing := w.placing.map (fun q =>
    if q.cmd.seq = p.cmd.seq then { q with pins := false, pinLeft := r.2.1 } else q) })
  if r.1 then s else s.clampAt (hdrCtx p.cmd.hdr) (hdrOp p.cmd.hdr) whereWhole

/-- Swatches of an object with a RESIDENT copy or home slot (R379). -/
def Swatches.resident (w : Swatches) (o : Nat) : Nat :=
  (((w.table.filter (fun p => p.2.obj == o && p.2.st == .resident)).map (·.2.idx)).eraseDups).length

/-- What a T4 home of the object holds is durable: no unit of it waits in the Plan chest's write buffer (R389). -/
def State.homeDurable (s : State) (o : Nat) : Bool :=
  match s.obj o with
  | some b => b.home != 4 || s.chest.buffer.all (fun w => w.sys ||
      decide (w.unit < b.base.toNat / unitBytes ∨ (b.base.toNat + 16448 * b.size + unitBytes - 1) / unitBytes ≤ w.unit))
  | none => true

/-- Posts the completions of commands that have nothing left to wait for; DETAIL by R496. -/
def State.placingCheck (s : State) : State :=
  let s := each (s.sw.placing.filter (fun p => p.left.isEmpty && p.pins)) State.startPins s
  let done := s.sw.placing.filter (fun p => p.left.isEmpty && !p.pins && p.pinLeft.isEmpty && s.homeDurable p.obj &&
    s.sw.table.all (fun e => !(decide (waitKey ≤ e.1) && e.2.obj == p.obj && e.2.homeEnt)))
  each done (fun p s => (s.onSw (fun w => { w with placing := w.placing.filter (fun q => q.cmd.seq != p.cmd.seq) })).complete p.cmd 0
    (if hdrOp p.cmd.hdr = 0x10 then p.obj else s.sw.resident p.obj) 0 []) s

/-- What follows once an entry has left its way or slot: entries that wait for a way, promotions that wait for a slot, banks that go back, commands. -/
def State.settle (s : State) : State := s.settleWays.settleSlots.settleWays.settlePool.placingCheck

/-- Easel hands the Migration engine pool banks, or takes some back, in response to CTX_BIND, OBJ_PLACE and POWER (R356); banks with home slots stay. -/
def State.fitPool (s : State) : State :=
  let want := Config.poolWant s.freeCtr
  let s := s.onFreeCtr (· + 1)
  let held := s.sw.pool.filter (fun b => !s.sw.leaving.contains b)
  let more := s.takeBanks (want - held.length) 6 false false
  let s := more.2.onSw (fun w => { w with pool := w.pool ++ more.1 })
  let go := ((held.filter (fun b => s.sw.table.all (fun p => p.2.t2 || p.2.bank != b || !p.2.homeEnt))).reverse).take (held.length - want)
  (s.onSw (fun w => { w with leaving := w.leaving ++ go })).sendAway.settle

-- Home moves (R350).

/-- A move of the swatch of one of the kinds is in flight. -/
def Swatches.inFlight (w : Swatches) (o i : Nat) (ks : List MoveKind) : Option Move :=
  w.flight.find? (fun m => m.obj == o && m.idx == i && ks.contains m.kind)

/-- Ends the flight of the moves of a swatch of the kinds given. -/
def State.endFlight (o i : Nat) (ks : List MoveKind) (s : State) : State :=
  s.onSw (fun w => { w with flight := w.flight.filter (fun m => !(m.obj == o && m.idx == i && ks.contains m.kind)) })

/-- The swatch has still to move to a new home. -/
def State.moving (s : State) (o i : Nat) : Bool := s.sw.placing.any (fun p => p.obj == o && p.left.contains i)

/-- A swatch has moved (R350): it is written with its tag to the new home; the old home slot is free; a copy that may stay is clean, any other goes. -/
def State.moved (o i : Nat) (data tag : List Byte) (s : State) : State :=
  match s.obj o with
  | none => s
  | some b =>
    let s := match s.sw.homeEntry o i with | some p => (s.dropEntry p.1).giveLines p.2.reads data | none => s
    let s := (s.endFlight o i [.homeMove]).onSw (fun w => { w with
      placing := w.placing.map (fun p => if p.obj = o then { p with left := p.left.filter (· != i) } else p) })
    let s := match s.sw.copy o i with
      | some (k, e) => if e.st != SwState.resident then s
          else if b.allows e.t2 then s.onEntry k (fun x => { x with dirty := false }) else s.dropEntry k
      | none => s
    let s := if b.home.toNat ≤ 2 then s.takeHome o i (b.home == 2) else s
    (s.writeHome o i 0 data tag).settle

-- Poison (R368, R369, R371 to R373).

/-- The swatch is POISONED. -/
def State.poisoned (s : State) (o i : Nat) : Bool :=
  match s.sw.copy o i with | some (_, e) => e.st == .poisoned | none => false

/-- Who waits for a swatch in its entries or for a read of its home. -/
def Swatches.readersOf (w : Swatches) (o i : Nat) : List (Nat × Nat) :=
  (w.entriesOf o i).flatMap (·.2.reads) ++ (w.direct.filter (fun m => m.obj == o && m.idx == i)).flatMap (·.readers)

/-- The entry of a swatch becomes POISONED (R358, R368); it is made where there is none, and holds no slot then. Its BESTEFFORT readers wait in it
(R369). -/
def State.poisonEntry (o i : Nat) (f : Entry → Entry) (s : State) : State :=
  let stay := (s.sw.readersOf o i).filter (fun r => !s.realReader r.1)
  let g (e : Entry) : Entry := f { e with
    st := .poisoned, claim := stay.length, writes := [], reads := stay, fresh := none, dirty := false, restore := false, tries := 0, asked := false
    holders := [], whole := false }
  let s := match s.sw.homeEntry o i with | some p => s.onEntry p.1 (fun e => { e with reads := [], claim := 0 }) | none => s
  let s := match s.sw.copy o i with
    | some (k, _) => s.onEntry k g
    | none => s.onSw (fun w => { w with table := putRaw (w.newKey (swatchSet o i)) (g { obj := o, idx := i, st := .poisoned, place := false }) w.table })
  (s.onSw (fun w => { w with direct := w.direct.filter (fun m => !(m.obj == o && m.idx == i)) })).pinDone o i

/-- A swatch is poisoned (R368); its REALTIME readers hand over at once (R369). -/
def State.poison (o i : Nat) (home : Bool) (s : State) : State :=
  let cs := ((s.sw.readersOf o i).map (·.1) ++ (s.waitFor o i).map (fun p => p.2.1.ctx)).eraseDups
  let s := s.poisonEntry o i (fun e => { e with homeFail := home })
  let s := s.onObj o (fun b => { (if b.pois then b else { b with pois := true, applied := false, fetched := 0 }) with bad := i :: b.bad })
  cs.foldl State.poisonReader ((s.onSw (fun w => { w with poisons := satInc w.poisons, poisonEvent := true })).raise 0 0 2 o i)

/-- A POISONED swatch has verified (R371, R373): it is RESIDENT in its copy slot, in another where its own is not allowed to it, or its entry goes; who
waits for it is served, and a home move that it kept waiting ends. -/
def State.verified (k : Nat) (e : Entry) (data tag : List Byte) (s : State) : State :=
  let s := (s.onSw (fun w => { w with refetches := satInc w.refetches })).onObj e.obj (fun b => { b with fetched := b.fetched + 1 })
  let s := if s.moving e.obj e.idx then s.moved e.obj e.idx data tag else s
  let s := ((s.giveLines e.reads data).onEntry k (fun x => { x with reads := [], claim := 0, asked := false, tries := 0 })).tierArrived e.obj e.idx data
  if e.place && ((s.obj e.obj).map (·.allows e.t2)).getD false then (s.onEntry k (fun x => { x with st := .resident })).entryPut e data tag
  else match (s.obj e.obj).bind Obj.copyTier with
    | none => (s.dropEntry k).settle
    | some t2 =>
      let e2 : Entry := { e with t2 := t2, place := false }
      let s := (s.onEntry k (fun x => { x with st := .promoting, t2 := t2, place := false, fresh := some (data, tag) })).reslot k e2
      match s.sw.entry k with
      | some x => if x.place then (s.onEntry k (fun y => { y with st := .resident, fresh := none })).entryPut x data tag
          else s.queueMove { kind := .placement, obj := e.obj, idx := e.idx }
      | none => s

-- Accesses (R342, R347, R357, R360 to R366, R369).

/-- Counts an unmapped access or a dropped write. -/
def State.unmapped (s : State) : State := s.onSw (fun w => { w with unmapped := satInc w.unmapped })

/-- A lookup in a swatch buffer (R357). -/
def State.countLook (hit : Bool) (s : State) : State :=
  s.onSw (fun w => { w with hits := w.hits + (if hit then 1 else 0), misses := w.misses + (if hit then 0 else 1) })

/-- A late read that is not waited on (R365): a REALTIME reader of a STRICT object. -/
def State.mustNotWait (s : State) (c : Nat) (b : Obj) : Bool := b.dclass == 0 && s.realReader c

/-- The class of a promotion that a read or write queues (R365): LAZY counts as FRAME for a REALTIME reader. -/
def State.demandClass (s : State) (c : Nat) (b : Obj) : Nat := if s.realReader c then min 1 b.dclass.toNat else b.dclass.toNat

/-- The byte tokens of a demand promotion from T3 on behalf of a context (R366). -/
def State.promoCost (s : State) (o i c : Nat) : Nat :=
  if (s.homeOf o i).1 = 3 ∧ (s.ctx c).st = .bound ∧ (s.ctx c).bindLive then 16448 else 0

/-- Where a reader or writer finds a swatch (R360): it is unmapped; not to be had now, the context having handed over or waiting for tokens; in the slot
of the entry; in an entry that it has to wait for; or in its home tier, beyond the slots. -/
inductive Found where
  | unmapped
  | gone
  | slot (k : Nat)
  | wait (k : Nat)
  | home
deriving DecidableEq, Repr

/-- Served from the home tier (R347, R360): its home slot, or a read of the tier; a late read that is not waited on hands over (R365). -/
def State.fromHome (o i r : Nat) (read : Bool) (b : Obj) (s : State) : Found × State :=
  if read && s.mustNotWait r b && (decide (2 < b.home.toNat) || b.home == 2 && b.copyTier == some false) then (.gone, s.handover r 6)
  else match s.sw.homeEntry o i with
    | some p => (.slot p.1, s.onEntry p.1 (fun e => { e with ppin := true, use := true }))
    | none => (.home, s)

/-- The Swatch Map looks a swatch up for a unit (R357, R360 to R366): `hit` that the unit's swatch buffer holds the translation, which it can only where
it has looked the swatch up since the last invalidation (R358). -/
def State.lookup (unit r o i : Nat) (read hit : Bool) (s : State) : Found × State :=
  match s.obj o with
  | none => (.unmapped, s)
  | some b =>
    if b.size ≤ i then (.unmapped, s)
    else match s.sw.copy o i with
      | some (k, e) =>
        let s := (s.countLook (hit && e.holders.contains unit)).onEntry k (fun x => { x with
          ppin := true, use := true, holders := if x.holders.contains unit then x.holders else unit :: x.holders })
        match e.st with
        | .poisoned => if s.realReader r then (.gone, s.handover r 5) else (.wait k, s)
        | .evicting => (.slot k, s.raceWon k)
        | .resident => (.slot k, s)
        | .promoting => if read && s.mustNotWait r b then (.gone, s.handover r 6) else (.wait k, s)
      | none =>
        let s := s.countLook false
        match b.copyTier with
        | none => s.fromHome o i r read b
        | some t2 =>
          let cost := s.promoCost o i r
          let x := s.newEntry o i t2 true
          match x.1 with
          | none => x.2.fromHome o i r read b
          | some k =>
            if (s.ctx r).tok.bytes < cost then (.gone, if (s.ctx r).bind.realtime then s.handover r 1 else s)
            else
              let s := (x.2.queueMove { kind := .demand, obj := o, idx := i, cls := s.demandClass r b, ctx := r }).onCtx r
                (fun y => { y with tok := { y.tok with bytes := y.tok.bytes - cost } })
              let s := s.onEntry k (fun y => { y with holders := [unit] })
              if read && s.mustNotWait r b then (.gone, s.handover r 6) else (.wait k, s)

/-- A reader waits in an entry and holds its claim (R361). -/
def State.readLater (k : Nat) (r : Nat × Nat) (s : State) : State :=
  s.onEntry k (fun e => { e with claim := e.claim + 1, reads := e.reads ++ [r] })
/-- A line written waits in an entry and holds its claim (R361). -/
def State.writeLater (k n : Nat) (d : Line) (s : State) : State :=
  s.onEntry k (fun e => { e with claim := e.claim + 1, writes := e.writes ++ [(n % 256, d)] })

/-- A swatch is read from its home tier for readers that no move serves; one read serves all that wait for it (R376). -/
def State.readDirect (o i : Nat) (rs : List (Nat × Nat)) (s : State) : State :=
  if s.sw.direct.any (fun m => m.obj == o && m.idx == i) then
    s.onSw (fun w => { w with direct := w.direct.map (fun m => if m.obj = o ∧ m.idx = i then { m with readers := m.readers ++ rs } else m) })
  else
    let s := s.onSw (fun w => { w with direct := w.direct ++ [{ kind := .demand, obj := o, idx := i, readers := rs }] })
    if (s.sw.inFlight o i [.homeMove]).isSome then s else let h := s.homeOf o i; s.readTier o i h.1 h.2

/-- Serves a line from the slot of an entry; a write makes a copy DIRTY and has its tag built anew (R344, R347). A read in another stack claims the swatch
until its line comes (R361); a write there waits for a read of the whole slot, which its tag needs. -/
def State.serveEntry (k r off : Nat) (op : SwOp) (s : State) : State :=
  match s.sw.entry k with
  | none => s
  | some e =>
    let l := off % 16384 / 64
    match op with
    | .read =>
      if !e.t2 then s.touch 6 r (8192 * e.bank + (256 * e.slot + l)) .read
      else if s.gone e.stack then
        (if ((s.obj e.obj).map (·.ro)).getD false then (s.poison e.obj e.idx e.homeEnt).poisonReader r else s.failReader (r, l))
      else
        let s := s.readLater k (r, l)
        if e.writes.isEmpty then s.weave e.stack 0x40 4 (e.tierLine l) 2 [] else s
    | .write n d =>
      let s := if e.homeEnt then s else s.onEntry k (fun x => { x with dirty := true, rewrite := x.wb })
      if e.t2 then (s.writeLater k n d).askWhole k
      else (s.touch 6 r (8192 * e.bank + (256 * e.slot + n % 256)) (.write d (BitVec.allOnes 64))).retag e

/-- A unit or agent reads a line, or writes one, on behalf of a context (R342, R347, R360 to R366). -/
def State.swatchAccess (unit ctx obj off : Nat) (op : SwOp) (hit : Bool) (s : State) : State :=
  let i := off / 16384
  let r := s.readerOf unit ctx
  if op != .read && ((s.obj obj).map (fun b => b.ro && decide (i < b.size))).getD false then s.unmapped
  else
    let f := s.lookup unit r obj i (op == .read) hit
    match f.1, op with
    | .unmapped, .read => f.2.unmapped.respond 0 4
    | .unmapped, .write _ _ => f.2.unmapped
    | .gone, _ => f.2
    | .slot k, _ => f.2.serveEntry k r off op
    | .wait k, .read => f.2.readLater k (r, off % 16384 / 64)
    | .wait k, .write n d => f.2.writeLater k n d
    | .home, .read => f.2.readDirect obj i [(r, off % 16384 / 64)]
    | .home, .write n d => (f.2.onSw (fun w => { w with homeWr := w.homeWr ++ [(obj, i, n % 256, d)] })).readDirect obj i []

/-- SWATCH_ACCESS (R363). -/
def execSwatchAccess (requester ctx obj off : Nat) (op : SwOp) (bufHit : Bool) (s : State) : Host.Outcome State Fault Refusal :=
  .next (onlyIf (s.serving && s.sw.swReady && !s.sw.swFenced && decide (requester < 0x60))
    (State.swatchAccess requester ctx obj off op bufHit) s)

-- Moves start (R359).

/-- The step and class of a move in the order of R359. -/
def Move.rank (m : Move) : Nat :=
  match m.kind with
  | .refetch => 0
  | .demand => 10 + m.cls
  | .placement | .prefetch | .homeMove => 20 + m.cls
  | .evict => 30

/-- The kinds of move that fill. -/
def fillKinds : List MoveKind := [.demand, .placement, .prefetch]

/-- The source of a refetch (R371, R373): MASTER twice, then the home; the home twice where MASTER is 0. -/
def State.refetchHost (s : State) (o : Nat) (e : Entry) : Bool :=
  match s.obj o with | some b => !e.restore && b.master != 0 && decide (e.tries < 2) | none => false

/-- A queued move can start now: a fill when it has its slot, an eviction when no claim holds the copy (R352), a home move when the copy does not leave. -/
def State.startable (s : State) (m : Move) : Bool :=
  match s.sw.copy m.obj m.idx, m.kind with
  | some (_, e), .evict => e.st != .resident || (s.claimOf e == 0 && !e.ppin)
  | some (_, e), .demand | some (_, e), .placement | some (_, e), .prefetch => e.place || e.st != .promoting
  | some (_, e), .homeMove => e.st != .evicting
  | _, _ => true

/-- Removes the first move equal to one. -/
def dropMove (m : Move) : List Move → List Move
  | [] => []
  | x :: xs => if x = m then xs else x :: dropMove m xs

/-- A fill has ended well (R360): RESIDENT, readers served, waiting writes applied, over what an OBJ_WRITE has stored meanwhile (R347). -/
def State.fillGood (o i : Nat) (data tag : List Byte) (s : State) : State :=
  match s.sw.copy o i with
  | some (k, e) =>
    if e.st = .promoting then
      let now := e.fresh.getD (data, tag)
      let d := patch now.1 e.writes
      let s := (s.entryPut e d (if e.writes.isEmpty then now.2 else tagWritten o i d now.2 false)).onEntry k (fun x => { x with
        st := .resident, claim := 0, writes := [], reads := [], fresh := none, dirty := !e.writes.isEmpty })
      (((s.giveLines e.reads d).onSw (fun w => { w with promotes := w.promotes + 1 })).tierArrived o i d |>.pinDone o i).sendAway
    else s
  | none => s

/-- Starts a move (R359): its reads are issued; an eviction writes back or is done. -/
def State.startMove (m : Move) (s : State) : State :=
  let s := s.onSw (fun w => { w with queue := dropMove m w.queue })
  let h := s.homeOf m.obj m.idx
  let go (s : State) : State := s.onSw (fun w => { w with flight := w.flight ++ [m] })
  match m.kind, s.sw.copy m.obj m.idx with
  | .evict, some (k, e) =>
    if e.st = .evicting then (if e.wb then s else s.beginWb k e)
    else if e.st = .resident ∧ s.unwelcome e then (s.evict k).settle
    else s
  | .refetch, some (_, e) => match s.obj m.obj with
    | some b => if s.refetchHost m.obj e then (go s).readTier m.obj m.idx 3 b.master.toNat else (go s).readTier m.obj m.idx h.1 h.2
    | none => s
  | .homeMove, c =>
    if !s.moving m.obj m.idx then s
    else match c with
      | some (k, e) => if e.st = .resident then (if e.t2 then (go s).askWhole k else go s) else (go s).readTier m.obj m.idx h.1 h.2
      | none => (go s).readTier m.obj m.idx h.1 h.2
  | .demand, some (_, e) | .placement, some (_, e) | .prefetch, some (_, e) =>
    if e.st != .promoting then s
    else match e.fresh with
      | some f => s.fillGood m.obj m.idx f.1 f.2
      | none => (go s).readTier m.obj m.idx h.1 h.2
  | _, none => s

/-- MOVE_START (R359): with a MAXFLIGHT place free, the queued move of the first step and class that can start. -/
def execMoveStart (s : State) : Host.Outcome State Fault Refusal :=
  .next (onlyIf (s.up && s.sw.migReady && !s.sw.migFenced && s.sw.mayFly) (fun s =>
    match (s.sw.queue.filter s.startable).foldl (fun (a : Option Move) m => match a with
      | none => some m
      | some b => if m.rank < b.rank then some m else some b) none with
    | none => s
    | some m => s.startMove m) s)

-- Reads of home tiers return (R344, R350, R360, R367, R368, R375).

/-- The swatch has a RESIDENT copy. -/
def State.hasCopy (s : State) (o i : Nat) : Bool := match s.sw.copy o i with | some (_, e) => e.st == .resident | none => false

/-- The home tier of a swatch is being read for its move to a new home. -/
def State.homeMoves (s : State) (o i : Nat) : Bool := (s.sw.inFlight o i [.homeMove]).isSome && !s.hasCopy o i

/-- The reads under way of the home tier of a swatch, a refetch's apart. -/
def State.homeReads (s : State) (o i : Nat) : List Move :=
  s.sw.flight.filter (fun m => m.obj == o && m.idx == i && (fillKinds.contains m.kind || m.kind == .homeMove && !s.hasCopy o i)) ++
    s.sw.direct.filter (fun m => m.obj == o && m.idx == i)

/-- Those reads have ended, and nothing that comes of them later is taken. -/
def State.endReads (o i : Nat) (s : State) : State :=
  let here (m : Move) : Bool := m.obj == o && m.idx == i
  s.onSw (fun w => { w with
    flight := w.flight.filter (fun m => !(here m && (fillKinds.contains m.kind || m.kind == .homeMove && !s.hasCopy o i)))
    direct := w.direct.filter (fun m => !here m), parts := w.parts.filter (fun p => !(p.obj == o && p.idx == i))
    late := w.late.filter (fun p => !(p.1 == o && p.2.1 == i)) })

/-- A read of the home tier has verified: a move ends, a fill ends, writes that waited go back, readers and transfers are served. -/
def State.homeGood (o i : Nat) (data tag : List Byte) (s : State) : State :=
  let ws := (s.sw.homeWr.filter (fun w => w.1 == o && w.2.1 == i)).map (fun w => (w.2.2.1, w.2.2.2))
  let d := patch data ws
  let t := if ws.isEmpty then tagMoved o i data tag false else tagWritten o i d tag false
  let fills := (s.sw.inFlight o i fillKinds).isSome
  let rs := (s.sw.direct.filter (fun m => m.obj == o && m.idx == i)).flatMap (·.readers)
  let moves := s.homeMoves o i
  let s := (s.endReads o i).onSw (fun w => { w with homeWr := w.homeWr.filter (fun x => !(x.1 == o && x.2.1 == i)) })
  let s := if moves then s.moved o i d t else if ws.isEmpty then s else s.writeHome o i 0 d t
  let s := if fills then s.fillGood o i d t else s
  ((s.giveLines rs d).tierArrived o i d).placingCheck

/-- A promotion whose swatch cannot be read ends without a copy (R375): its readers receive CHECK, its writes wait for the next read of the home. -/
def State.fillFailed (o i : Nat) (s : State) : State :=
  match s.sw.copy o i with
  | some (k, e) =>
    if e.st != .promoting then s
    else match e.fresh with
      | some f => s.fillGood o i f.1 f.2
      | none => each e.reads State.failReader (((s.dropEntry k).pinDone o i).onSw (fun w => { w with
          homeWr := w.homeWr ++ e.writes.map (fun x => (o, i, x.1, x.2)) }))
  | none => s

/-- A read of the home tier has failed (R368, R375). RO = 1 poisons the swatch. RO = 0 reads once more (R317), then every reader receives CHECK and
declines (R318); a swatch that was to move goes with no valid tag (log 108). -/
def State.homeBad (o i : Nat) (data : List Byte) (last : Bool) (s : State) : State :=
  let moves := s.homeMoves o i
  match s.obj o with
  | none => s.endReads o i
  | some b =>
    if b.ro then
      (if s.poisoned o i then (let s := s.endReads o i; if moves then s.moved o i data noTag else s)
       else (s.poison o i true).endReads o i).placingCheck
    else if !last && (s.homeReads o i).all (fun m => m.tries == 0) then
      let h := s.homeOf o i
      let up (m : Move) : Move := if m.obj = o ∧ m.idx = i then { m with tries := 1, again := false } else m
      (s.onSw (fun w => { w with
        flight := w.flight.map up, direct := w.direct.map up, parts := w.parts.filter (fun p => !(p.obj == o && p.idx == i)) })).readTier o i h.1 h.2
    else
      let fills := (s.sw.inFlight o i fillKinds).isSome
      let rs := (s.sw.direct.filter (fun m => m.obj == o && m.idx == i)).flatMap (·.readers)
      let s := s.endReads o i
      let s := if moves then s.moved o i data noTag else s
      let s := if fills then s.fillFailed o i else s
      ((each rs State.failReader s).tierFailed o i).settle

/-- Host memory has still to answer a read of the swatch (R457). -/
def State.hostOwes (s : State) (o i : Nat) : Bool := s.link.reads.any (fun r => r.by_ == .gallery o i)

/-- What arrives of the home tier of a swatch: a fill, a read for its readers, or a home move (R350, R360). -/
def State.homeCame (o i : Nat) (good : Bool) (data : List Byte) (s : State) : State :=
  let h := s.homeOf o i
  if (s.homeReads o i).isEmpty || h.1 == 3 && s.hostOwes o i then s
  else
    let d := s.tierData o i h.1 h.2 good data
    if h.1 = 1 then d.2.moved o i d.1.1 (tagMoved o i d.1.1 d.1.2.1 (!d.1.2.2))
    else if d.1.2.2 && tagOk o i d.1.1 d.1.2.1 then d.2.homeGood o i d.1.1 d.1.2.1
    else d.2.homeBad o i d.1.1 false

/-- FILL_DONE (R350, R360): a home move from an own slot ends, or a read of the home tier has come. -/
def State.fillDone (o i : Nat) (good : Bool) (data : List Byte) (s : State) : State :=
  let s := match s.sw.inFlight o i [.homeMove], s.sw.copy o i with
    | some _, some (_, e) =>
      if e.st = SwState.resident ∧ !e.t2 then
        let r := s.readSlot e.bank e.slot
        r.2.moved o i r.1.1 (tagMoved o i r.1.1 r.1.2.1 r.1.2.2)
      else s
    | _, _ => s
  s.homeCame o i good data

/-- A clean copy that has been read again from its home after a CHECK is written anew, or, written to since, in the lines that failed (R317). -/
def State.restored (k : Nat) (e : Entry) (data tag : List Byte) (s : State) : State :=
  let d := patch data e.writes
  let lines := ((s.bank e.bank).lost).filter (fun l => l / 256 == e.slot && decide (l < 7936))
  let s := if !e.dirty then s.entryPut e d (if e.writes.isEmpty then tag else tagWritten e.obj e.idx d tag false)
    else (each lines (fun l s => s.writeLines 6 noCtx e.bank l (slice data (64 * (l % 256)) 64)) s).retag e
  ((s.onEntry k (fun x => { x with
    restore := false, claim := 0, writes := [], reads := [], dirty := x.dirty || !e.writes.isEmpty })).giveLines e.reads d).tierArrived e.obj e.idx d

/-- A copy that cannot be restored goes, where nothing in it is newer than the home; who waits for it receives CHECK (R318, R375). -/
def State.notRestored (k : Nat) (e : Entry) (s : State) : State :=
  let s := (each e.reads State.failReader (s.onEntry k (fun x => { x with restore := false, claim := 0, writes := [], reads := [] }))).tierFailed e.obj e.idx
  if e.dirty then s
  else ((s.dropEntry k).onSw (fun w => { w with homeWr := w.homeWr ++ e.writes.map (fun x => (e.obj, e.idx, x.1, x.2)) })).settle

/-- A refetch's read returns (R371, R373): verified, or made again, or stuck; a home move that waited for it then ends. -/
def State.refetchDone (o i : Nat) (good : Bool) (data : List Byte) (s : State) : State :=
  match s.sw.inFlight o i [.refetch], s.sw.copy o i, s.obj o with
  | some _, some (k, e), some b =>
    let host := s.refetchHost o e
    let h := s.homeOf o i
    if (host || h.1 == 3) && s.hostOwes o i then s
    else
      let r := if host then ((slice data 0 16384, slice data 16384 64, good), s) else s.tierData o i h.1 h.2 good data
      let d := r.1
      let ok := d.2.2 && (tagOk o i d.1 d.2.1 || !host && h.1 == 1)
      let t := tagMoved o i d.1 d.2.1 false
      let s := (r.2.endFlight o i [.refetch]).onSw (fun w => { w with
        parts := w.parts.filter (fun p => !(p.obj == o && p.idx == i)), late := w.late.filter (fun p => !(p.1 == o && p.2.1 == i)) })
      if e.restore then (if ok then s.restored k e d.1 t else if b.ro then s.poison o i true else s.notRestored k e)
      else if e.st != .poisoned then s
      else if ok then
        let s := if host && e.homeFail && !s.moving o i && (h.1 == 4 || h.1 == 5) then s.writeHome o i 0 d.1 t else s
        s.verified k e d.1 t
      else
        let most := if b.master = 0 then 2 else 3
        let s := s.onEntry k (fun x => { x with tries := x.tries + 1 })
        if e.tries + 1 < most then s.queueMove { kind := .refetch, obj := o, idx := i }
        else
          let s := (s.onSw (fun w => { w with stuck := true })).raise 0 0 4 o i
          if s.moving o i then s.moved o i d.1 noTag else s
  | some _, _, _ => s.endFlight o i [.refetch]
  | none, _, _ => s

/-- A read of a swatch beyond the stack returns: a refetch's, or its home tier's. -/
def State.tierCame (o i : Nat) (good : Bool) (data : List Byte) (s : State) : State :=
  if (s.sw.inFlight o i [.refetch]).isSome then s.refetchDone o i good data else s.fillDone o i good data

/-- Data or tag of a swatch comes from a neighbour's Plan chest (R342, R596); the two together are the swatch. Of an answer after a reissue the frame does
not tell whether it is the late first one, which is discarded (R367; log 111). -/
def State.partCame (o i : Nat) (tag good : Bool) (data : List Byte) (s : State) : State :=
  if (s.homeReads o i).isEmpty && (s.sw.inFlight o i [.refetch]).isNone then s
  else
    let f := s.freeBit
    let late := s.sw.late.contains (o, i, tag)
    let s := if late then f.2 else s
    if late && f.1 then s.onSw (fun w => { w with late := w.late.erase (o, i, tag) })
    else
      let p : TierPart := { obj := o, idx := i, tag := tag, good := good, data := data }
      match s.sw.parts.find? (fun q => q.obj == o && q.idx == i && q.tag != tag) with
      | some q =>
        let s := s.onSw (fun w => { w with parts := w.parts.filter (fun q => !(q.obj == o && q.idx == i)) })
        s.tierCame o i (good && q.good) (if tag then slice q.data 0 16384 ++ data else slice data 0 16384 ++ q.data)
      | none => s.onSw (fun w => { w with parts := w.parts.filter (fun q => !(q.obj == o && q.idx == i)) ++ [p] })

-- Reads of slots in other stacks return (R344, R347, R361, R364, R368, R596).

/-- A whole slot has come and verifies: a write-back goes on, waiting writes are applied and the swatch written back with its new tag, readers, moves and
transfers are served. -/
def State.wholeGood (k : Nat) (e : Entry) (data tag : List Byte) (s : State) : State :=
  let o := e.obj
  let i := e.idx
  let d := patch data e.writes
  let t := if e.writes.isEmpty then tag else tagWritten o i d tag false
  let s := if !e.wbRead then s
    else if e.st = SwState.evicting then s.writeHome o i 0 d (tagMoved o i d t false) else s.writeHome o i 0 data (tagMoved o i data tag false)
  let s := if e.writes.isEmpty then s else s.entryPut e d t
  let s := (s.onEntry k (fun x => { x with
    wbRead := false, writes := [], reads := [], claim := x.claim - e.writes.length - e.reads.length, tries := 0 })).giveLines e.reads d
  let s := if !e.homeEnt then (if (s.sw.inFlight o i [.homeMove]).isSome then s.moved o i d (tagMoved o i d t false) else s)
    else if (s.sw.inFlight o i [.refetch]).isSome then s.refetchDone o i true (d ++ t)
    else if (s.homeReads o i).isEmpty then s else s.homeGood o i d t
  s.tierArrived o i d

/-- A whole slot cannot be read, or does not verify (R368, R375). RO = 1 poisons the swatch. RO = 0 is read once more (R317), then a clean copy is read
again from its home; what has no other source is given up: readers receive CHECK, lines written go to the slot as they are, and what leaves it has no
valid tag (log 108). -/
def State.wholeBad (k : Nat) (e : Entry) (data : List Byte) (s : State) : State :=
  let o := e.obj
  let i := e.idx
  if ((s.obj o).map (·.ro)).getD false then
    (if !e.homeEnt then s.poison o i false
     else if (s.sw.inFlight o i [.refetch]).isSome then s.refetchDone o i false []
     else if (s.homeReads o i).isEmpty then s.poison o i true else s.homeBad o i data true)
  else if e.tries = 0 ∧ !s.gone e.stack then (s.onEntry k (fun x => { x with tries := 1 })).askWhole k
  else if !e.homeEnt && !e.dirty && !e.wb then
    (s.onEntry k (fun x => { x with tries := 0, restore := true })).queueMove { kind := .refetch, obj := o, idx := i }
  else
    let s := if e.wbRead then s.writeHome o i 0 data noTag else s
    let s := each e.writes (fun x s => s.weave e.stack 0x42 4 (e.tierLine x.1) 0 (lineBytes x.2)) s
    let s := s.onEntry k (fun x => { x with
      wbRead := false, writes := [], reads := [], claim := x.claim - e.writes.length - e.reads.length, tries := 0 })
    let s := (each e.reads State.failReader s).tierFailed o i
    if !e.homeEnt then (if (s.sw.inFlight o i [.homeMove]).isSome then s.moved o i data noTag else s)
    else if (s.homeReads o i).isEmpty then s else s.homeBad o i data true

/-- The answer to a read of a whole slot; what an OBJ_WRITE has stored since stands for it (R347). -/
def State.wholeCame (o i : Nat) (good : Bool) (data : List Byte) (s : State) : State :=
  match (s.sw.entriesOf o i).find? (fun p => p.2.t2 && p.2.whole) with
  | none => s
  | some (k, e) =>
    let now := e.fresh.getD (slice data 0 16384, slice data 16384 64)
    let s := s.onEntry k (fun x => { x with whole := false, fresh := none })
    if e.fresh.isSome || good && tagOk o i now.1 now.2 then s.wholeGood k e now.1 now.2 else s.wholeBad k e now.1

/-- A line of a lent slot has come for its reader, whose claim ends (R361); where it could not be read, the whole slot is read for it (R317), or the
swatch is poisoned (R368). -/
def State.lineCame (o i l : Nat) (good : Bool) (data : List Byte) (s : State) : State :=
  match (s.sw.entriesOf o i).find? (fun p => p.2.t2 && p.2.reads.any (fun r => r.2 == l)) with
  | none => s
  | some (k, e) =>
    if good then
      match e.reads.find? (fun r => r.2 == l) with
      | some r => (s.respond (lineOf data) 0).onEntry k (fun x => { x with claim := x.claim - 1, reads := x.reads.erase r })
      | none => s
    else if ((s.obj o).map (·.ro)).getD false then s.poison o i e.homeEnt
    else (s.onEntry k (fun x => { x with tries := 1 })).askWhole k

/-- READ_TIMEOUT (R367): a read from T3 or T5 has not returned within TMO; it is issued once more, its first answer not being wanted any more, and after
a second timeout it is uncorrectable; so is a read of a stack that is fenced (R599), at once. -/
def State.readTimeout (o i : Nat) (s : State) : State :=
  let here (m : Move) : Bool := m.obj == o && m.idx == i
  let host := match s.sw.inFlight o i [.refetch], s.sw.copy o i with | some _, some (_, e) => s.refetchHost o e | _, _ => false
  let h := s.homeOf o i
  match (s.sw.entriesOf o i).find? (fun p => p.2.t2 && s.gone p.2.stack && (p.2.whole || !p.2.reads.isEmpty)),
    (s.homeReads o i ++ s.sw.flight.filter (fun m => here m && m.kind == .refetch)).head? with
  | some p, _ => (s.onEntry p.1 (fun x => { x with whole := false, fresh := none })).wholeBad p.1 p.2 []
  | none, none => s
  | none, some m =>
    if !host && h.1 == 5 && s.gone (h.2 / 2 ^ 59) then s.tierCame o i false []
    else if !host && h.1 != 3 && h.1 != 5 then s
    else
      let s := (s.onSw (fun w => { w with timeouts := satInc w.timeouts })).onLink (fun l => { l with
        reads := l.reads.filter (fun r => r.by_ != .gallery o i) })
      if m.again then s.tierCame o i false []
      else
        let mark (x : Move) : Move := if here x then { x with again := true } else x
        let owed := [false, true].filter (fun t => !host && h.1 == 5 && !s.sw.parts.any (fun p => p.obj == o && p.idx == i && p.tag == t))
        let s := s.onSw (fun w => { w with
          flight := w.flight.map mark, direct := w.direct.map mark, parts := w.parts.filter (fun p => !(p.obj == o && p.idx == i))
          late := w.late ++ owed.map (fun t => (o, i, t)) })
        match host, s.obj o with
        | true, some b => s.readTier o i 3 b.master.toNat
        | _, _ => s.readTier o i h.1 h.2

/-- FILL_DONE (R360): data and tag arrive, 16,448 B; a swatch homed in T4 is read from the Plan chest. -/
def execFillDone (obj idx : Nat) (good : Bool) (data : List Byte) (s : State) : Host.Outcome State Fault Refusal :=
  .next (onlyIf (s.up && !s.sw.migFenced) (State.fillDone obj idx good data) s)

/-- REFETCH_DONE (R371). -/
def execRefetchDone (obj idx : Nat) (good : Bool) (data : List Byte) (s : State) : Host.Outcome State Fault Refusal :=
  .next (onlyIf (s.up && !s.sw.migFenced) (State.refetchDone obj idx good data) s)

/-- READ_TIMEOUT (R367). -/
def execReadTimeout (obj idx : Nat) (s : State) : Host.Outcome State Fault Refusal :=
  .next (onlyIf (s.up && !s.sw.migFenced) (State.readTimeout obj idx) s)

/-- WRITEBACK_DONE (R360, R364): the write-back ends; the entry goes and its slot is free, unless the eviction has been displaced. -/
def State.writebackDone (o i : Nat) (s : State) : State :=
  match (s.sw.entriesOf o i).find? (fun p => p.2.wb && !p.2.wbRead) with
  | none => s
  | some (k, e) =>
    let s := (s.endFlight o i [.evict]).onSw (fun w => { w with writebacks := w.writebacks + 1 })
    if e.st = .evicting then (s.dropEntry k).countEvict.settle
    else (s.onEntry k (fun x => { x with wb := false, dirty := x.rewrite, rewrite := false, fresh := none })).sendAway.settle

-- At the edge (R361, R370 to R372).

/-- PPIN is cleared where CLAIM is 0 (R361); copies that are to go may go then. -/
def State.ppinClear (s : State) : State :=
  (s.onSw (fun w => { w with table := w.table.map (fun p => (p.1, if s.claimOf p.2 = 0 then { p.2 with ppin := false } else p.2)) })).sendAway

/-- OBJ_UNPOISON (R372): objects whose last POISONED swatch has verified. -/
def State.unpoison (s : State) : State :=
  each ((s.sw.objs.filter (fun p => p.2.pois && s.sw.table.all (fun e => !(e.2.obj == p.1 && e.2.st == .poisoned)))).map (fun p => (p.1, p.2.fetched)))
    (fun p s => (((s.onObj p.1 (fun b => { b with pois := false, applied := false, bad := [] })).onSw
      (fun w => { w with unpoisonEvent := true })).raise 0 0 3 p.1 p.2)) s

/-- The refetches of poisoned objects begin (R371). -/
def State.beginRefetch (s : State) : State :=
  each (s.sw.table.filter (fun p => p.2.st == .poisoned && !p.2.asked && ((s.obj p.2.obj).map (·.pois)) == some true)) (fun p s =>
    ((s.onEntry p.1 (fun e => { e with asked := true })).onObj p.2.obj (fun b => { b with applied := true })).queueMove
      { kind := .refetch, obj := p.2.obj, idx := p.2.idx }) s

/-- POISON_HANDOVER (R370): contexts whose map in use names an object with POISON hand their whole tick over. -/
def State.poisonHandover (s : State) : State :=
  let s := s.onSw (fun w => { w with objs := w.objs.map (fun p => (p.1, { p.2 with applied := p.2.pois })) })
  let s := each (s.boundIds.filter (fun c => (s.curMap c).objects.any (fun o => ((s.obj o).map (·.pois)) == some true)))
    (State.handTick · 5) s
  s.beginRefetch

-- Objects (R508).

/-- Removes an object's entries, reads and moves, without write-back (R508); what a transfer still waits for reads as unmapped (R342). -/
def State.dropObj (o : Nat) (s : State) : State :=
  let s := each (s.waitObj o) (fun p s => s.unmapped.xferGot p.1 p.2.1.id 0 (slice [] 0 p.2.1.len)) s
  (s.onSw (fun w => { w with
    table := w.table.filter (fun p => p.2.obj != o), queue := w.queue.filter (fun m => m.obj != o)
    flight := w.flight.filter (fun m => m.obj != o), direct := w.direct.filter (fun m => m.obj != o)
    homeWr := w.homeWr.filter (fun x => x.1 != o), parts := w.parts.filter (fun p => p.obj != o)
    late := w.late.filter (fun p => p.1 != o) })).settle

/-- MIG_CFG takes effect (R378). -/
def State.migCommit (s : State) : State := s.onSw (fun w => { w with tmo := w.shTmo, maxflight := w.shMax })

/-- MIG_COMMIT (R378). -/
def execMigCommit (s : State) : Host.Outcome State Fault Refusal := .next (onlyIf s.reaches State.migCommit s)

end Sys2Proof.Machine
end

