-- ==== Sys2Proof/Machine/Float.lean ====
section
/-! DEFINITION. Floating point, exact: formats of R102, R188 and R191, rounding to nearest with ties to even. -/

namespace Sys2Proof.Machine

/-- A value of any format: not a number, an infinity, or (−1)^neg × m × 2^e. -/
inductive FVal where
  | nan
  | inf (neg : Bool)
  | fin (neg : Bool) (m : Nat) (e : Int)
deriving DecidableEq, Repr

/-- A binary format: exponent bits, fraction bits, bias, whether its top exponent holds infinities, canonical NaN and the
largest finite code (R191). -/
structure FFmt where
  eb : Nat
  fb : Nat
  bias : Nat
  ieee : Bool
  nan : Nat
  top : Nat
deriving DecidableEq, Repr

/-- FP32. -/
def fp32 : FFmt := { eb := 8, fb := 23, bias := 127, ieee := true, nan := 0x7FC00000, top := 0x7F7FFFFF }
/-- FP16. -/
def fp16 : FFmt := { eb := 5, fb := 10, bias := 15, ieee := true, nan := 0x7E00, top := 0x7BFF }
/-- BF16. -/
def bf16 : FFmt := { eb := 8, fb := 7, bias := 127, ieee := true, nan := 0x7FC0, top := 0x7F7F }
/-- FP8 E4M3: no infinities, one NaN. -/
def e4m3 : FFmt := { eb := 4, fb := 3, bias := 7, ieee := false, nan := 0x7F, top := 0x7E }
/-- FP8 E5M2. -/
def e5m2 : FFmt := { eb := 5, fb := 2, bias := 15, ieee := true, nan := 0x7E, top := 0x7B }

/-- The value of a code; subnormals are kept (R189). -/
def FFmt.val (f : FFmt) (x : Nat) : FVal :=
  let neg := bit x (f.eb + f.fb)
  let e := bits x (f.eb + f.fb - 1) f.fb
  let m := x % 2 ^ f.fb
  let top := 2 ^ f.eb - 1
  if e = top ∧ f.ieee then (if m = 0 then .inf neg else .nan)
  else if e = top ∧ m = 2 ^ f.fb - 1 then .nan
  else if e = 0 then .fin neg m (1 - (f.bias : Int) - f.fb)
  else .fin neg (m + 2 ^ f.fb) ((e : Int) - f.bias - f.fb)

/-- An integer as a value. -/
def FVal.ofInt (x : Int) : FVal := .fin (decide (x < 0)) x.natAbs 0

/-- The exact product. -/
def FVal.mul : FVal → FVal → FVal
  | .fin a m e, .fin b n d => .fin (a != b) (m * n) (e + d)
  | .inf a, .fin b n _ => if n = 0 then .nan else .inf (a != b)
  | .fin b n _, .inf a => if n = 0 then .nan else .inf (a != b)
  | .inf a, .inf b => .inf (a != b)
  | _, _ => .nan

/-- m × 2^k with sign, k ≥ 0. -/
def scaled (neg : Bool) (m : Nat) (k : Int) : Int := (if neg then -1 else 1) * ((m * 2 ^ k.toNat : Nat) : Int)

/-- The exact sum. -/
def FVal.add : FVal → FVal → FVal
  | .fin a m e, .fin b n d =>
    let q := min e d
    let x := scaled a m (e - q) + scaled b n (d - q)
    if x = 0 then .fin (a && b && m == 0 && n == 0) 0 0 else .fin (decide (x < 0)) x.natAbs q
  | .inf a, .inf b => if a = b then .inf a else .nan
  | .inf a, .fin _ _ _ => .inf a
  | .fin _ _ _, .inf a => .inf a
  | _, _ => .nan

/-- m shifted right by d places, to nearest with ties to even. -/
def rneShift (m d : Nat) : Nat :=
  let q := m >>> d
  let r := m % 2 ^ d
  let h := 2 ^ (d - 1)
  if d = 0 ∨ r < h then q else if h < r ∨ q % 2 = 1 then q + 1 else q

/-- The code of a value in a format, rounded once to nearest, ties to even; `sat` saturates infinities and overflow to
the largest finite value (R191), else they are infinities. -/
def FFmt.enc (f : FFmt) (sat : Bool) (v : FVal) : Nat :=
  let sgn (neg : Bool) : Nat := if neg then 2 ^ (f.eb + f.fb) else 0
  let inf := if sat || !f.ieee then f.top else (2 ^ f.eb - 1) * 2 ^ f.fb
  match v with
  | .nan => f.nan
  | .inf neg => sgn neg + inf
  | .fin neg m e =>
    if m = 0 then sgn neg
    else
      let qmin : Int := 1 - (f.bias : Int) - f.fb
      let q := max qmin ((Nat.log2 m : Int) + e - f.fb)
      let r := if q ≤ e then m * 2 ^ (e - q).toNat else rneShift m (q - e).toNat
      let c := (q - qmin).toNat * 2 ^ f.fb + r
      sgn neg + (if f.top < c then inf else c)

/-- One addition rounded to FP32 (R189). -/
def addF32 (x : Word) (v : FVal) : Word := BitVec.ofNat 32 (fp32.enc false ((fp32.val x.toNat).add v))

/-- x × y + z rounded once to FP32 (R102). -/
def fma32 (x y z : FVal) : Word := BitVec.ofNat 32 (fp32.enc false ((x.mul y).add z))

/-- The quotient, exact but for a lowest bit that tells whether a remainder is left: it rounds as the exact one does. -/
def FVal.div : FVal → FVal → FVal
  | .fin a m e, .fin b n d =>
    if n = 0 then (if m = 0 then .nan else .inf (a != b))
    else .fin (a != b) (2 * (m * 2 ^ 64 / n) + (if m * 2 ^ 64 % n = 0 then 0 else 1)) (e - d - 65)
  | .inf a, .fin b _ _ => .inf (a != b)
  | .fin a _ _, .inf b => .fin (a != b) 0 0
  | _, _ => .nan

/-- A quotient rounded to FP32. -/
def divF32 (x y : Word) : Word := BitVec.ofNat 32 (fp32.enc false ((fp32.val x.toNat).div (fp32.val y.toNat)))

/-- The value with its sign turned. -/
def FVal.neg : FVal → FVal
  | .nan => .nan
  | .inf a => .inf (!a)
  | .fin a m e => .fin (!a) m e

/-- A product rounded to FP32. -/
def mulF32 (x y : FVal) : Word := BitVec.ofNat 32 (fp32.enc false (x.mul y))

/-- A difference rounded to FP32. -/
def subF32 (x y : Word) : Word := addF32 x (fp32.val y.toNat).neg

/-- The greater of two FP32 numbers; a NaN prevails. -/
def maxF32 (x y : Word) : Word :=
  match (fp32.val x.toNat), (fp32.val y.toNat) with
  | .nan, _ => x
  | _, .nan => y
  | a, b => match a.add b.neg with
    | .fin true m _ => if m = 0 then x else y
    | .inf true => y
    | _ => x

/-- rne() of R102: the nearest integer, ties to even; an infinity takes a bound beyond every range; NaN has none. -/
def rneInt : FVal → Option Int
  | .nan => none
  | .inf neg => some (if neg then -(2 ^ 40 : Int) else 2 ^ 40)
  | .fin neg m e => some (if 0 ≤ e then scaled neg m e
      else (if neg then -1 else 1) * ((rneShift m (-e).toNat : Nat) : Int))

/-- The output stage of R102 and R103: OUT, the table where NLT is 1, and z in FP32. -/
def outCode (out : Nat) (table : Option (List Byte)) (z : Word) : Nat :=
  let v := fp32.val z.toNat
  let int (lo hi : Int) : Option Int := (rneInt v).map (clampZ lo hi)
  let nan := (Config.nanCode out).toNat
  match out, table with
  | 4, _ => fp16.enc true v
  | 5, _ => z.toNat
  | 1, none => ((int (-128) 127).map (low 8)).getD nan
  | 2, none => ((int 0 15).map (low 4)).getD (nan % 16)
  | 3, none => ((int (-8) 7).map (low 4)).getD (nan % 16)
  | _, none => ((int 0 255).map (low 8)).getD nan
  | 1, some t => ((int (-128) 127).map (fun i => (t.getD (i + 128).toNat 0).toNat)).getD nan
  | 2, some t => ((int 0 255).map (fun i => (t.getD i.toNat 0).toNat % 16)).getD (nan % 16)
  | 3, some t => ((int (-128) 127).map (fun i => (t.getD (i + 128).toNat 0).toNat % 16)).getD (nan % 16)
  | _, some t => ((int 0 255).map (fun i => (t.getD i.toNat 0).toNat)).getD nan

/-- Saturation to INT32, and whether it changed the value (R99, R189). -/
def satI32 (x : Int) : Int × Bool :=
  let y := clampZ (-(2 ^ 31 : Int)) (2 ^ 31 - 1) x
  (y, decide (y ≠ x))

end Sys2Proof.Machine
end

