-- ==== Sys2Proof/Machine/Colour.lean ====
section
/-! DEFINITION. The conversion of the Pixel unit (R249 to R251): its FP32 matrices and tables of transfer functions (R250), and the exact conversion in
fixed point that bounds what it answers (R251). Fixed-point values count 2⁻⁶⁴, of the signal range or of 10,000 cd/m². The constants are those of the
standards that R250 names (log 89). -/

namespace Sys2Proof.Machine

/-- One, in 2⁻⁶⁴. -/
def fxOne : Nat := 2 ^ 64
/-- A product. -/
def fxMul (a b : Nat) : Nat := a * b / fxOne
/-- A quotient; none by zero, where the numerator is zero too. -/
def fxDiv (a b : Nat) : Nat := if b = 0 then 0 else a * fxOne / b

/-- The integer k-th root of n below 2^bits above r, by its bits. -/
def rootBits (k n : Nat) : Nat → Nat → Nat
  | 0, r => r
  | b + 1, r => rootBits k n b (if (r + 2 ^ b) ^ k ≤ n then r + 2 ^ b else r)

/-- The k-th root of a value, k > 0. -/
def fxRoot (k x : Nat) : Nat := rootBits k (x * fxOne ^ (k - 1)) 80 0

/-- x to the power n, by squaring over the bits of n. -/
def fxPowBits (x : Nat) : Nat → Nat → Nat
  | 0, _ => fxOne
  | f + 1, n => let h := fxPowBits x f (n / 2); let q := fxMul h h; if n % 2 = 0 then q else fxMul q x

/-- x to the power n, n below 2^16. -/
def fxPow (x n : Nat) : Nat := fxPowBits x 16 n

/-- n square roots in turn. -/
def sqrtTimes : Nat → Nat → Nat
  | 0, x => x
  | n + 1, x => sqrtTimes n (fxRoot 2 x)

/-- exp of a signed value by its series. -/
def fxExp (z : Int) : Nat :=
  let f : Int := fxOne
  ((List.range 60).foldl (fun (a : Int × Int) i => let t := a.2 * z / (f * ((i : Int) + 1)); (a.1 + t, t)) (f, f)).1.toNat

-- Transfer functions (R250), from the signal to light and back, light relative to 10,000 cd/m².

/-- BT.1886 with reference white at 203 cd/m². -/
def sdrLight (v : Nat) : Nat := fxPow (fxRoot 5 v) 12 * 203 / 10000
/-- Its inverse. -/
def sdrSignal (x : Nat) : Nat := fxPow (fxRoot 12 (x * 10000 / 203)) 5

/-- PQ: c1, c2, c3 in 1/128, m1 = 1305/8192, m2 = 2523/32. -/
def pqLight (v : Nat) : Nat :=
  let p := fxRoot 2523 (fxPow v 32)
  let num := p - 107 * fxOne / 128
  fxPow (fxRoot 1305 (fxDiv num ((2413 * fxOne - 2392 * p) / 128))) 8192
/-- Its inverse. -/
def pqSignal (x : Nat) : Nat :=
  let y := fxPow (sqrtTimes 13 (min x fxOne)) 1305
  fxPow (sqrtTimes 5 (fxDiv (107 * fxOne + 2413 * y) (128 * fxOne + 2392 * y))) 2523

/-- HLG signal to scene light: a = 0.17883277, b = 0.28466892, c = 0.55991073. -/
def hlgScene (v : Nat) : Nat :=
  if 2 * v ≤ fxOne then fxMul v v / 3
  else (fxExp (((v : Int) * 100000000 - 55991073 * fxOne) / 17883277) + 28466892 * fxOne / 100000000) / 12
/-- Its inverse, by its bits. -/
def hlgBits (x : Nat) : Nat → Nat → Nat
  | 0, r => r
  | b + 1, r => hlgBits x b (if hlgScene (r + 2 ^ b) ≤ x then r + 2 ^ b else r)

/-- Luminance of BT.2020 light. -/
def lum (p : Nat × Nat × Nat) : Nat := (2627 * p.1 + 6780 * p.2.1 + 593 * p.2.2) / 10000

/-- A pixel through a function of each component. -/
def px3 (f : Nat → Nat) (p : Nat × Nat × Nat) : Nat × Nat × Nat := (f p.1, f p.2.1, f p.2.2)

/-- EOTF of a COLOUR value (R249, stage 3): SDR, SDR, PQ, HLG at 1,000 cd/m² with a system gamma of 1.2. -/
def toLight (c : Nat) (p : Nat × Nat × Nat) : Nat × Nat × Nat :=
  match c with
  | 2 => px3 pqLight p
  | 3 => let e := px3 hlgScene p; let g := fxRoot 5 (lum e); px3 (fun x => fxMul g x / 10) e
  | _ => px3 sdrLight p

/-- Inverse EOTF (R249, stage 6). -/
def fromLight (c : Nat) (p : Nat × Nat × Nat) : Nat × Nat × Nat :=
  match c with
  | 2 => px3 pqSignal p
  | 3 => let g := fxRoot 6 (lum p * 10); px3 (fun x => hlgBits (min fxOne (fxDiv (x * 10) g)) 65 0) p
  | _ => px3 sdrSignal p

/-- Peak of a COLOUR value (R250). -/
def peak (c : Nat) : Nat := match c with | 2 => fxOne | 3 => fxOne / 10 | _ => 203 * fxOne / 10000

/-- BT.709 primaries, or BT.2020's (R246). -/
def wide (c : Nat) : Bool := decide (c ≠ 0)

/-- A 3 × 3 matrix in 1/10,000 on light, out-of-gamut values clipped at zero (R249, R250). -/
def matrix3 (m : List Int) (p : Nat × Nat × Nat) : Nat × Nat × Nat :=
  let row (i : Nat) : Nat := ((m.getD i 0 * p.1 + m.getD (i + 1) 0 * p.2.1 + m.getD (i + 2) 0 * p.2.2) / 10000).toNat
  (row 0, row 3, row 6)

/-- The gamut step between BT.709 and BT.2020 (R249, stage 4). -/
def gamut (a b : Nat) (p : Nat × Nat × Nat) : Nat × Nat × Nat :=
  match wide a, wide b with
  | false, true => matrix3 [6274, 3293, 433, 691, 9195, 114, 164, 880, 8956] p
  | true, false => matrix3 [16605, -5876, -728, -1246, 11329, -83, -182, -1006, 11187] p
  | _, _ => p

/-- Tone table (R249, stage 5): without one light is clipped at the target's peak (R250). No rule states what an index and an entry of a
table stand for: its curve is free (log 9). -/
def toneStep (tone : List Half) (b : Nat) (p : Nat × Nat × Nat) : Nat × Nat × Nat :=
  if tone.isEmpty then px3 (min (peak b)) p else px3 (fun x => min (peak b) (Config.toneCurve tone x)) p

-- Signals (R246, R249 stages 2 and 7).

/-- Kr and Kb of a COLOUR value, in 1/10,000. -/
def lumaK (c : Nat) : Int × Int := if wide c then (2627, 593) else (2126, 722)

/-- A sample of 16 bits as a signal from 0 to 1, or a colour difference from −1/2 to 1/2: narrow or full range of a depth (R236, R246). -/
def sigOf (full chroma : Bool) (depth : Nat) (s : Nat) : Int :=
  let x : Int := s
  let one : Int := fxOne
  if full then (x - (if chroma then 2 ^ 15 else 0)) * one / (2 ^ 16 - 2 ^ (16 - depth))
  else if chroma then (x - 128 * 256) * one / (224 * 256) else (x - 16 * 256) * one / (219 * 256)

/-- The sample of a signal, in 2⁻³² of a unit of 16 bits. -/
def ofSig (full chroma : Bool) (depth : Nat) (v : Int) : Int :=
  let one : Int := fxOne
  let span : Int := if full then 2 ^ 16 - 2 ^ (16 - depth) else if chroma then 224 * 256 else 219 * 256
  let base : Int := if full then (if chroma then 2 ^ 15 else 0) else if chroma then 128 * 256 else 16 * 256
  v * span * 2 ^ 32 / one + base * 2 ^ 32

/-- Signals of a format: COLOUR, RGB, full range, depth. -/
structure Signal where
  colour : Nat
  rgb : Bool
  full : Bool
  depth : Nat
deriving DecidableEq, Repr

/-- Non-linear RGB of a pixel (R249, stage 2). -/
def Signal.toRgb (a : Signal) (x y z : Nat) : Int × Int × Int :=
  if a.rgb then (sigOf a.full false a.depth x, sigOf a.full false a.depth y, sigOf a.full false a.depth z)
  else
    let k := lumaK a.colour
    let l := sigOf a.full false a.depth x
    let b := l + 2 * (10000 - k.2) * sigOf a.full true a.depth y / 10000
    let r := l + 2 * (10000 - k.1) * sigOf a.full true a.depth z / 10000
    (r, (10000 * l - k.1 * r - k.2 * b) / (10000 - k.1 - k.2), b)

/-- The samples of non-linear RGB (R249, stage 7), in 2⁻³² of a unit of 16 bits. -/
def Signal.ofRgb (a : Signal) (p : Int × Int × Int) : Int × Int × Int :=
  if a.rgb then (ofSig a.full false a.depth p.1, ofSig a.full false a.depth p.2.1, ofSig a.full false a.depth p.2.2)
  else
    let k := lumaK a.colour
    let l := (k.1 * p.1 + (10000 - k.1 - k.2) * p.2.1 + k.2 * p.2.2) / 10000
    (ofSig a.full false a.depth l, ofSig a.full true a.depth ((p.2.2 - l) * 10000 / (2 * (10000 - k.2))),
      ofSig a.full true a.depth ((p.1 - l) * 10000 / (2 * (10000 - k.1))))

/-- A signal cut to its range before the EOTF. -/
def cutSig (v : Int) : Nat := (clampZ 0 fxOne v).toNat

/-- The exact conversion of one 4:4:4 pixel, stages 2 to 7 of R249, each passed over where source and target agree; in 2⁻³² of a unit of 16
bits. -/
def exactPixel (a b : Signal) (tone : List Half) (x y z : Nat) : Int × Int × Int :=
  if a.colour = b.colour ∧ a.rgb = b.rgb ∧ a.full = b.full then ((x : Int) * 2 ^ 32, (y : Int) * 2 ^ 32, (z : Int) * 2 ^ 32)
  else
    let p := a.toRgb x y z
    if a.colour = b.colour then b.ofRgb p
    else
      let q := toneStep tone b.colour (gamut a.colour b.colour (toLight a.colour (cutSig p.1, cutSig p.2.1, cutSig p.2.2)))
      let r := fromLight b.colour q
      b.ofRgb (r.1, r.2.1, r.2.2)

-- The Pixel unit's own arithmetic (R250): FP32 matrices, and tables with linear interpolation.

/-- n / d in FP32. -/
def fxWord (n : Int) (d : Nat) : Word :=
  BitVec.ofNat 32 (fp32.enc false (.fin (decide (n < 0)) (n.natAbs * 2 ^ 96 / max 1 d) (-96)))

/-- An FP32 number in fixed point, none below zero. -/
def wordFx (w : Word) : Nat :=
  match fp32.val w.toNat with
  | .fin false m e => if 0 ≤ e + 64 then m * 2 ^ (e + 64).toNat else m / 2 ^ (-(e + 64)).toNat
  | _ => 0

/-- A row of a matrix on a pixel: exact products, summed in FP32 in the order of the components (log 89). -/
def rowF32 (m : Word × Word × Word) (p : Word × Word × Word) : Word :=
  let t (a b : Word) : FVal := (fp32.val a.toNat).mul (fp32.val b.toNat)
  addF32 (addF32 (mulF32 (fp32.val m.1.toNat) (fp32.val p.1.toNat)) (t m.2.1 p.2.1)) (t m.2.2 p.2.2)

/-- A 3 × 3 matrix of quotients by d on a pixel in FP32 (R250). -/
def matF32 (m : List Int) (d : Nat) (p : Word × Word × Word) : Word × Word × Word :=
  let row (i : Nat) : Word := rowF32 (fxWord (m.getD i 0) d, fxWord (m.getD (i + 1) 0) d, fxWord (m.getD (i + 2) 0) d) p
  (row 0, row 3, row 6)

/-- A pixel through a function of each component. -/
def wx3 (f : Word → Word) (p : Word × Word × Word) : Word × Word × Word := (f p.1, f p.2.1, f p.2.2)

/-- A transfer function from its table of 4,096 entries with linear interpolation (R250). Functions 0 to 2 are the EOTFs of SDR, PQ and HLG, 3 to 5 their
inverses, 6 and 7 the gain of HLG's system gamma and its inverse. -/
def curveF32 (k : Nat) (x : Word) : Word :=
  let p := Config.curvePlace k x
  let t0 := Config.curveEntry k (p.1 % 4095)
  fma32 (fp32.val (subF32 (Config.curveEntry k (p.1 % 4095 + 1)) t0).toNat) (fp32.val p.2.toNat) (fp32.val t0.toNat)

/-- Function of a COLOUR value. -/
def curveOf (c : Nat) : Nat := match c with | 2 => 1 | 3 => 2 | _ => 0

/-- Luminance in FP32. -/
def lumF32 (p : Word × Word × Word) : Word := rowF32 (fxWord 2627 10000, fxWord 6780 10000, fxWord 593 10000) p

/-- A product of two FP32 numbers. -/
def mulW (x y : Word) : Word := mulF32 (fp32.val x.toNat) (fp32.val y.toNat)

/-- EOTF by table (R249, stage 3). -/
def lightF32 (c : Nat) (p : Word × Word × Word) : Word × Word × Word :=
  let e := wx3 (curveF32 (curveOf c)) p
  if c = 3 then (let g := curveF32 6 (lumF32 e); wx3 (mulW g) e) else e

/-- Inverse EOTF by table (R249, stage 6). -/
def unlightF32 (c : Nat) (p : Word × Word × Word) : Word × Word × Word :=
  let p := if c = 3 then (let g := curveF32 7 (lumF32 p); wx3 (mulW g) p) else p
  wx3 (curveF32 (3 + curveOf c)) p

/-- Out-of-gamut values are clipped in linear RGB (R250). -/
def clipF32 (p : Word × Word × Word) : Word × Word × Word := wx3 (maxF32 0) p

/-- The gamut step in FP32 (R249, stage 4). -/
def gamutF32 (a b : Nat) (p : Word × Word × Word) : Word × Word × Word :=
  match wide a, wide b with
  | false, true => clipF32 (matF32 [6274, 3293, 433, 691, 9195, 114, 164, 880, 8956] 10000 p)
  | true, false => clipF32 (matF32 [16605, -5876, -728, -1246, 11329, -83, -182, -1006, 11187] 10000 p)
  | _, _ => p

/-- Tone table, or the clip at the target's peak (R249, stage 5). -/
def toneF32 (tone : List Half) (b : Nat) (p : Word × Word × Word) : Word × Word × Word :=
  wx3 (fun w =>
    let x := wordFx w
    let y := min (peak b) (if tone.isEmpty then x else Config.toneCurve tone x)
    if y = x then w else fxWord y fxOne) p

/-- A sample of 16 bits as a signal in FP32 (R236, R246). -/
def sigF32 (full chroma : Bool) (depth s : Nat) : Word :=
  let base : Nat := if full then (if chroma then 2 ^ 15 else 0) else if chroma then 128 * 256 else 16 * 256
  fxWord ((s : Int) - base) (if full then 2 ^ 16 - 2 ^ (16 - depth) else if chroma then 224 * 256 else 219 * 256)

/-- The sample of a signal: one multiply-add in FP32, rounded to the nearest; none for a NaN. -/
def ofSigF32 (full chroma : Bool) (depth : Nat) (w : Word) : Option Int :=
  let base : Nat := if full then (if chroma then 2 ^ 15 else 0) else if chroma then 128 * 256 else 16 * 256
  let span : Nat := if full then 2 ^ 16 - 2 ^ (16 - depth) else if chroma then 224 * 256 else 219 * 256
  rneInt (fp32.val (fma32 (fp32.val w.toNat) (FVal.ofInt span) (FVal.ofInt base)).toNat)

/-- Non-linear RGB of a pixel by the FP32 matrix (R249, stage 2). -/
def Signal.rgbF32 (a : Signal) (x y z : Nat) : Word × Word × Word :=
  let s (chroma : Bool) (v : Nat) : Word := sigF32 a.full chroma a.depth v
  if a.rgb then (s false x, s false y, s false z)
  else
    let k := lumaK a.colour
    let kg := 10000 - k.1 - k.2
    matF32 [10000 * kg, 0, 2 * (10000 - k.1) * kg, 10000 * kg, -(2 * (10000 - k.2) * k.2), -(2 * (10000 - k.1) * k.1),
      10000 * kg, 2 * (10000 - k.2) * kg, 0] (10000 * kg).toNat (s false x, s true y, s true z)

/-- The samples of non-linear RGB by the FP32 matrix (R249, stage 7). -/
def Signal.samplesF32 (a : Signal) (p : Word × Word × Word) : Option Int × Option Int × Option Int :=
  if a.rgb then (ofSigF32 a.full false a.depth p.1, ofSigF32 a.full false a.depth p.2.1, ofSigF32 a.full false a.depth p.2.2)
  else
    let k := lumaK a.colour
    let kg := 10000 - k.1 - k.2
    let l := rowF32 (fxWord k.1 10000, fxWord kg 10000, fxWord k.2 10000) p
    let u := rowF32 (fxWord (-k.1) (2 * (10000 - k.2)).toNat, fxWord (-kg) (2 * (10000 - k.2)).toNat, fxWord 1 2) p
    let v := rowF32 (fxWord 1 2, fxWord (-kg) (2 * (10000 - k.1)).toNat, fxWord (-k.2) (2 * (10000 - k.1)).toNat) p
    (ofSigF32 a.full false a.depth l, ofSigF32 a.full true a.depth u, ofSigF32 a.full true a.depth v)

/-- Stages 2 to 7 of R249 on a 4:4:4 pixel as the Pixel unit computes them (R250), each passed over where source and target agree. -/
def pixelF32 (a b : Signal) (tone : List Half) (x y z : Nat) : Option Int × Option Int × Option Int :=
  let p := a.rgbF32 x y z
  if a.colour = b.colour then b.samplesF32 p
  else
    let cut (w : Word) : Word := if fxOne < wordFx w then fxWord 1 1 else maxF32 0 w
    b.samplesF32 (unlightF32 b.colour (toneF32 tone b.colour (gamutF32 a.colour b.colour (lightF32 a.colour (wx3 cut p)))))

/-- How far a converted sample of 16 bits may lie from the exact one: with the half code of the depth reduction (R253), 1 code at 8 and 10
bits and 2 codes at 12 bits (R251). -/
def convSlack (depth : Nat) : Int := (if depth = 12 then 3 else 1) * 2 ^ (15 - depth)

/-- A converted sample (R251): what the unit computes, which its tables keep within the bound of the exact one (log 9). -/
def boundSample (depth : Nat) (exact : Int) (z : Option Int) : Half :=
  let lo := -((convSlack depth * 2 ^ 32 - exact) / 2 ^ 32)
  let hi := (exact + convSlack depth * 2 ^ 32) / 2 ^ 32
  BitVec.ofNat 16 (clampZ 0 65535 (clampZ lo hi (z.getD ((exact + 2 ^ 31) / 2 ^ 32)))).toNat

/-- The converted pixel (R249 to R251). -/
def convPixel (a b : Signal) (tone : List Half) (x y z : Half) : Half × Half × Half :=
  let e := exactPixel a b tone x.toNat y.toNat z.toNat
  if a.colour = b.colour ∧ a.rgb = b.rgb ∧ a.full = b.full then (x, y, z)
  else
    let q := pixelF32 a b tone x.toNat y.toNat z.toNat
    (boundSample b.depth e.1 q.1, boundSample b.depth e.2.1 q.2.1, boundSample b.depth e.2.2 q.2.2)

end Sys2Proof.Machine
end

