-- ==== Sys2Proof/Machine/Tick.lean ====
section
/-! DEFINITION. Tick sources (R23 to R25, R32, R456), credits between units (R49, R60), and refinement loops (R218, R219). -/

namespace Sys2Proof.Machine

/-- NOM in its range (R26). -/
def TickCfg.nomIn (c : TickCfg) : Nat := clampN 200000 12500000 c.nom.toNat
/-- The source in effect: 0 bump, 1 sideband, 2 internal timer (R36). -/
def TickUnit.src (t : TickUnit) : Nat := if t.eff.src.toNat = 3 then 2 else t.eff.src.toNat
/-- Slices per tick in effect. -/
def TickUnit.slices (t : TickUnit) : Nat := t.eff.slices.toNat + 1
/-- The holdover deadline, counted from the last accepted edge (R32). -/
def TickUnit.deadline (t : TickUnit) : Nat :=
  if t.eff.holdover = 1 then t.meas.toNat + t.meas.toNat / 16 else 12500000
/-- Boundary j of the grid, in TCK cycles after the edge (R30). -/
def TickUnit.boundary (t : TickUnit) (j : Nat) : Nat := j * t.gridP / t.slices
/-- LOCKED (R34): each of the last four periods lies within P ± floor(P / 16). -/
def TickUnit.locked (t : TickUnit) : Bool :=
  t.bandPeriods.length == 4 && t.bandPeriods.all (fun x =>
    decide (t.meas.toNat ≤ x + t.meas.toNat / 16 ∧ x ≤ t.meas.toNat + t.meas.toNat / 16))

/-- A source event enters the two-stage synchroniser (R24). -/
def State.syncEvent (real : Bool) (t : Nat) (s : State) : State :=
  s.onTick (fun k => { k with sync := k.sync ++ [{ real := real, at_ := t }] })

/-- TICK_BUMP_EDGE (R23, R25): a rising edge on the bump, with the cycle it comes in and whether the pulse is 20 ns high
and low; a shorter pulse may be lost or register once, a free choice. -/
def execTickBumpEdge (t : Nat) (wide : Bool) (s : State) : Host.Outcome State Fault Refusal :=
  .next (onlyIf (s.ticking && s.tick.src == 0) (fun s =>
    if wide then s.syncEvent true t
    else let r := s.freeBit; onlyIf r.1 (State.syncEvent true t) r.2) s)

/-- TICK (R23, R456): a sideband tick message; only HL0's is accepted. -/
def execTick (hl t : Nat) (s : State) : Host.Outcome State Fault Refusal :=
  .next (onlyIf (decide (hl = 0) && s.ticking && s.tick.src == 1) (State.syncEvent true t) s)

/-- INTERNAL_TIMER (R25, R719): the timer matches NOM cycles after the last edge, or after READY. -/
def execInternalTimer (s : State) : Host.Outcome State Fault Refusal :=
  .next (onlyIf (s.ticking && s.tick.src == 2 && s.tick.sync.isEmpty)
    (fun s => s.syncEvent true (s.tick.lastAcc + s.tick.eff.nomIn)) s)

/-- SYNTHESISED_EDGE (R32): the deadline passes with no edge accepted and none in the synchroniser. -/
def execSynthesisedEdge (s : State) : Host.Outcome State Fault Refusal :=
  .next (onlyIf (s.ticking && s.tick.src != 2 && s.tick.sync.isEmpty)
    (fun s => s.syncEvent false (s.tick.lastAcc + s.tick.deadline)) s)

/-- Entries of a producer–consumer pair: the credit limit of the manifest's BUFFERS record (R49, R537). -/
def CMap.entries (m : CMap) (pair : Nat) : Option Nat := (m.buffers.find? (fun b => b.1 == pair)).map (fun b => b.2.2)
/-- Credits a context holds for a pair. -/
def Ctx.credits (x : Ctx) (pair : Nat) : Nat := look 0 x.credit pair

/-- Bytes of an entry of the pair's buffer (R49, R537). -/
def CMap.entryBytes (m : CMap) (pair : Nat) : Nat := 64 * max 1 (((m.buffers.find? (fun b => b.1 == pair)).map (fun b => b.2.1)).getD 1)
/-- The context holds n credits for a pair, or the pair has no buffer record and needs none (R49). -/
def Ctx.granted (x : Ctx) (m : CMap) (pair n : Nat) : Bool := match m.entries pair with | some _ => decide (n ≤ x.credits pair) | none => true
/-- Spends n credits of a pair (R49). -/
def Ctx.spend (x : Ctx) (m : CMap) (pair n : Nat) : Ctx :=
  if (m.entries pair).isSome then { x with credit := modify 0 pair (· - n) x.credit } else x
/-- Entries of a pair that a Liner receive buffer still holds (R207). -/
def State.heldEntries (s : State) (c pair : Nat) : Nat := (s.liner.recv.filter (fun r => r.ctx == c && r.pair == pair)).length

/-- CREDIT_RETURN (R49): a consumer returns one credit for an entry it has released, up to the entries of its buffer that are free. -/
def execCreditReturn (ctx pair : Nat) (s : State) : Host.Outcome State Fault Refusal :=
  .next (onlyIf (s.serving && (match (s.workMap ctx).entries pair with
      | some n => decide ((s.ctx ctx).credits pair + s.heldEntries ctx pair < n) | none => false))
    (State.onCtx ctx (fun x => { x with credit := modify 0 pair (· + 1) x.credit })) s)

/-- The work that a unit would do for a context waits (R65): in the first slice of a tick the context runs the work that an overrun passed
to it ahead of its own (log 82). -/
def State.ownWaits (s : State) (c : Nat) (w : Work) : Bool :=
  s.tick.sliceNow.toNat == 0 && w.owner == c &&
    s.easel.tasks.any (fun t => t.by_ == some (.ctx c) && s.due t && t.tick != s.tick.count && decide (t.packed < t.blocks))

/-- A loop of a context, by index, runs an optional step (R218, R219). -/
def State.optionalStep (s : State) (c loop : Nat) : Bool :=
  let run := look 0 (s.ctx c).loopRun loop
  match (s.workMap c).loops[loop]? with
  | some l => decide (l.2.1 ≤ run ∧ run < l.1) && !(s.ctx c).loopEnds.contains loop
  | none => false

/-- Work of a loop, counted from 1, 0 for work outside every loop, belongs to a loop that has ended (R219). -/
def State.loopOver (s : State) (c loop : Nat) : Bool := decide (0 < loop) && (s.ctx c).loopEnds.contains (loop - 1)

/-- The loop, by index, whose optional step work of a loop counted from 1 is part of. -/
def State.optionalWork (s : State) (c loop : Nat) : Option Nat := if 0 < loop ∧ s.optionalStep c (loop - 1) then some (loop - 1) else none

/-- The loop of a context that runs an optional step, where a unit does not say which it waits in (R219). -/
def State.optionalLoop (s : State) (c : Nat) : Option Nat := (List.range (s.workMap c).loops.length).find? (s.optionalStep c)

/-- Work of an optional step is about to write n bytes at a Palette byte address: what stands there is kept (R219). -/
def State.saveLines (c loop addr n : Nat) (s : State) : State :=
  match s.optionalWork c loop with
  | none => s
  | some l => s.onPal (fun p => { p with saved := p.saved ++ (List.range (ceilDiv (addr % 64 + n) 64)).map (fun i =>
      let g := addr / 64 + i
      { ctx := c, loop := l, line := g, was := (s.bank (g / 8192 % 256)).line (g % 8192) }) })

/-- A step of a loop is complete: its output stands. -/
def State.keepStep (c loop : Nat) (s : State) : State :=
  s.onPal (fun p => { p with saved := p.saved.filter (fun l => !(l.ctx == c && l.loop == loop)) })

/-- The lines that the step under way of a loop has overwritten hold the last completed step's output again (R219). -/
def State.putBack (c loop : Nat) (s : State) : State :=
  let ls := s.pal.saved.filter (fun l => l.ctx == c && l.loop == loop)
  (each ls.reverse (fun l s => s.onBank (l.line / 8192 % 256) (fun k => k.store (l.line % 8192) l.was)) s).keepStep c loop

/-- Ends a refinement loop with the output of its last completed step (R219): its tiles, strikes and waits stop, what the step under way has written
is undone, and LIN_CTX_SHORT counts. -/
def State.endLoop (c loop : Nat) (s : State) : State :=
  let of (k l : Nat) : Bool := k == c && l == loop + 1
  (((s.onLiner (fun u => { u with
      recv := u.recv.filter (fun r => !of r.ctx r.loop)
      engs := u.engs.map (fun p => (p.1, ({ p.2 with
        tile := p.2.tile.map (fun t => if of t.ctx t.loop then { t with dead := true } else t) } : Engine).dropWaits (fun w => of w.ctx w.loop))) })).onPanels
    (fun u => { u with groups := u.groups.map (fun p => (p.1, { p.2 with vecs := p.2.vecs.filter (fun v => !of v.ctx v.loop) })) })).putBack c loop).onCtx c
    (fun x => { x with loopEnds := x.loopEnds ++ [loop], cnt := { x.cnt with linShort := satInc x.cnt.linShort } })

/-- All the layer's weights are in a staging area from which the engine has not taken its share (R221). -/
def State.staged (s : State) (e c l : Nat) : Bool :=
  s.liner.stages.any (fun g => g.ctx == c && g.layer == l && !g.taken.getLsbD e && decide (((s.curMap c).ll l).weightBytes ≤ g.have_))

/-- The weights of a tile are not there: a streamed share (R221, R223), or the image swatches of a substitute (R138). -/
def State.tileLate (s : State) (e : Nat) (k : TileCand) : Bool :=
  !k.retouch && (if k.subst then !k.present else k.share && ((s.mapFor k.ctx k.work).ll k.layer).stream && !s.staged e k.ctx k.layer)

/-- The waits of a context on an engine that are credit or input waits, and hand work over at their limit: not those of Retouch (R228), nor for
swatches (R223). -/
def State.credWaits (s : State) (e c : Nat) : List TileCand :=
  (s.eng e).waits.filter (fun w => w.ctx == c && !w.retouch && !s.tileLate e w)

/-- A unit may be in a credit wait for the context: no engine whose recorded waits are all of another kind. -/
def State.mayWait (s : State) (unit c : Nat) : Bool :=
  !s.retouchOn unit c && (decide (unit < 0x50 ∨ 0x60 ≤ unit) || (s.eng (unit - 0x50)).waits.all (fun w => w.ctx != c) ||
    !(s.credWaits (unit - 0x50) c).isEmpty)

/-- The loop whose step a unit's credit wait holds up (R219): of an engine that of the tile that waits, of a group that of a vector in flight, else
that of the context (log 102). -/
def State.waitLoop (s : State) (unit c : Nat) : Option Nat :=
  if 0x50 ≤ unit ∧ unit < 0x60 then
    (match s.credWaits (unit - 0x50) c with
     | [] => s.optionalLoop c
     | w :: _ => s.optionalWork c w.loop)
  else if 0x20 ≤ unit ∧ unit < 0x40 then
    (match (s.group (unit - 0x20)).vecs.find? (fun v => v.ctx == c) with
     | some v => s.optionalWork c v.loop
     | none => s.optionalLoop c)
  else if unit = 2 then s.optionalLoop c
  else none

/-- CREDIT_WAIT_EXPIRY (R60, R219): from boundary D on, a unit of a REALTIME context that has waited W cycles without a
break hands the work over with cause CREDIT, or ends a loop in an optional step. A panel group, a Liner engine or the Mover holds a loop's
work; a Retouch tile's wait hands nothing over (R228). -/
def execCreditWaitExpiry (unit ctx waited : Nat) (s : State) : Host.Outcome State Fault Refusal :=
  let x := s.ctx ctx
  .next (onlyIf (s.serving && x.st == .bound && x.bindLive && x.bind.realtime && decide (x.bind.w ≤ waited) &&
      decide (x.dNow ≤ s.tick.sliceNow.toNat) && s.mayWait unit ctx) (fun s =>
    match s.waitLoop unit ctx with
    | some l => s.endLoop ctx l
    | none => s.handover ctx 2) s)

end Sys2Proof.Machine
end

