-- ==== Sys2Proof/Machine/Strike.lean ====
section
/-! DEFINITION. Strikes and probes: cells and inputs (R74 to R86), choice and charge (R40, R44, R87 to R94), the adder tree (R95 to
R101), the activation unit (R102), the checksum test and the reference accumulators of the Primer (R114 to R128), residues (R608). -/

namespace Sys2Proof.Machine

-- Cells (R74 to R77, R83).

/-- Rows of a row window (R83). -/
def winRows (w : BitVec 2) : Nat := 128 * 2 ^ w.toNat
/-- The converter step L of a window, in product units (R95). -/
def winStep (w : BitVec 2) : Nat := winRows w / 32

/-- The weight that a row holds in a column (R74 to R77): columns 0 to 255 data, 256 to 287 checksums, 288 REF0 with +1 and 289 REF1 with
−1. An image holds a row after the other in 144 bytes, two weights a byte, the even column in the low half (log 80). -/
def Panel.weight (p : Panel) (row col : Nat) : Int :=
  if col = 288 then 1
  else if col = 289 then -1
  else
    let b := (p.cells.getD (144 * row + col / 2) 0).toNat
    signed 4 (if col % 2 = 0 then b else b / 16)

/-- The levels of a weight's differential pair of cells (R75): max(w, 0) and max(−w, 0). -/
def cellPair (w : Int) : Nat × Nat := (w.toNat, (-w).toNat)

/-- The ideal column sum of active rows with their slice values, in product units (R75, R95): the current of a column is the difference of
its two cells. -/
def Panel.columnSum (p : Panel) (rows : List (Nat × Nat)) (col : Nat) : Int :=
  sumZ (rows.map (fun r => let c := cellPair (p.weight r.1 col); (r.2 : Int) * c.1 - r.2 * c.2))

/-- The calibration of a panel at a row window (R120). -/
def Panel.win (p : Panel) : Nat → WinCal
  | 0 => p.w0
  | 1 => p.w1
  | 2 => p.w2
  | _ => p.w3
/-- The trims of a window alone, as the Plan chest keeps them; targets and accumulators stand as after a reset (R121, R145). -/
def WinCal.trims (c : WinCal) : WinCal := { gain := c.gain, ofs := c.ofs }
/-- Changes the calibration of a panel at a row window. -/
def Panel.onWin (p : Panel) (w : Nat) (f : WinCal → WinCal) : Panel :=
  match w with
  | 0 => { p with w0 := f p.w0 }
  | 1 => { p with w1 := f p.w1 }
  | 2 => { p with w2 := f p.w2 }
  | _ => { p with w3 := f p.w3 }

-- The Primer.

/-- Marks a panel for re-prime (R129, R131): STATE MARKED, the cause, MARK_EVENT and the event record. -/
def State.markPanel (p cause : Nat) (s : State) : State :=
  ((s.onPanel p (fun x => { x with st := .marked, cause := BitVec.ofNat 3 cause })).onPrimer
    (fun u => { u with markEvent := true })).raise 0 0 1 p cause

/-- Counts a mismatch against a panel (R118) and marks it HARD where the tick's mismatches reach MMH (R129); vectors in flight on it may
still finish (R129, R141). -/
def State.mismatch (p : Nat) (s : State) : State :=
  let s := s.onPanel p (fun x => { x with mmTick := x.mmTick + 1, total := satInc x.total })
  let lim := max 1 s.primer.eff.mmh.toNat
  if (s.panel p).st = .serving ∧ lim ≤ (s.panel p).mmTick then
    ((s.markPanel p 3).onPanel p (fun x => { x with finish := true })).reroute false
  else s

/-- A data code is clipped (R96). -/
def clipped (c : Byte) : Bool := c.toInt == -128 || c.toInt == 127

/-- What one sub-strike leaves of a checksum group (R96, R97, R115): a clipped data code, and a failed comparison. -/
def groupTest (codes : SubCodes) (ckta cktr x l k : Nat) : Bool × Bool :=
  let ds := (codes.data.drop (8 * k)).take 8
  let d := sumZ (ds.map BitVec.toInt) - 8 * (codes.chk.getD k 0).toInt
  let t := ckta + cktr * x / (64 * l)
  (ds.any clipped, decide ((t : Int) < d.natAbs))

/-- A group's failed comparison is a mismatch where none of its codes is clipped (R97, R118). -/
def groupMisses (codes : SubCodes) (ckta cktr x l k : Nat) : Bool := let r := groupTest codes ckta cktr x l k; r.2 && !r.1

/-- Mismatches of a sub-strike (R118). -/
def mismatches (codes : SubCodes) (ckta cktr x l : Nat) : Nat := ((List.range 32).filter (groupMisses codes ckta cktr x l)).length

/-- Reference codes of a sub-strike join the accumulators of panel and window (R121); si counts 1/32 units. -/
def WinCal.sample (c : WinCal) (codes : SubCodes) (x w l : Nat) : WinCal :=
  let r0 := codes.r0.toInt
  let r1 := codes.r1.toInt
  let c := if w ≤ 4 * x then { c with sm := c.sm + (r0 - r1), si := c.si + ((64 * x / l : Nat) : Int), ng := c.ng + 1 } else c
  { c with so := c.so + (r0 + r1), no := c.no + 1 }

/-- Contribution of a data code (R98), in 2⁻¹⁸ product units. -/
def contribution (code : Int) (gain : Nat) (ofs : Int) (l k : Nat) : Int := (16 * code - ofs) * gain * l * 4 ^ k

/-- A code lies within the bound of R107: with the trims applied it stands within 1.5 steps of the ideal column sum. -/
def codeWithin (code : Byte) (gain : Nat) (ofs ideal : Int) (l : Nat) : Bool :=
  decide (2 * (contribution code.toInt gain ofs l 0 - ideal * 2 ^ 18).natAbs ≤ 3 * l * 2 ^ 18)

/-- The trims of a panel at a window are current (R107): the pair in use has reached its targets. -/
def WinCal.current (c : WinCal) (gain : Nat) (ofs : Int) : Bool := decide ((gain : Int) = c.tg ∧ ofs = c.to_)

/-- A sub-strike's codes of columns [c0, c0 + n) are such as R107 allows: on a SERVING panel whose trims are current, every unclipped code of
a checksum group without mismatch keeps the bound. -/
def Panel.codesFit (p : Panel) (w : Nat) (l : PLayer) (gain : Nat) (ofs : Int) (rows : List (Nat × Nat)) (c0 n : Nat) (codes : SubCodes) : Bool :=
  let st := winStep (BitVec.ofNat 2 w)
  let x := sumN (rows.map (·.2))
  !(p.st == .serving && (p.win w).current gain ofs) || (List.range n).all (fun j =>
    let b := codes.data.getD (c0 + j) 0
    clipped b || groupMisses codes l.ckta l.cktr x st ((c0 + j) / 8) || codeWithin b gain ofs (p.columnSum rows (c0 + j)) st)

-- Inputs and slices (R82, R85, R86).

/-- Added to an activation of an offset-signed layer (R85). -/
def PLayer.offset (l : PLayer) : Nat := if l.asigned then (if l.abits4 then 8 else 128) else 0
/-- Slices of an input vector (R86). -/
def PLayer.slices (l : PLayer) : Nat := if l.abits4 then 2 else 4
/-- An activation as the rows take it (R85), from its stored bits. -/
def PLayer.act (l : PLayer) (a : Nat) : Nat := (a + l.offset) % 2 ^ (2 * l.slices)
/-- Slice k of an activation (R86). -/
def actSlice (a k : Nat) : Nat := (a >>> (2 * k)) % 4

/-- Reads activations at half-byte addresses for a unit, each line once: a byte each, or half a byte, and whether a line is to be replaced
(R317). -/
def State.gather (unit c : Nat) (whole : Bool) (src : List Nat) (s : State) : List Nat × Bool × State :=
  let ls := (src.map (· / 128)).eraseDups
  let r := s.readEach unit c ls
  let pick (a : Nat) : Nat :=
    let b := (r.1.getD (64 * ls.idxOf (a / 128) + a / 2 % 64) 0).toNat
    if whole then b else if a % 2 = 0 then b % 16 else b / 16
  (src.map pick, r.2)

/-- Segments of a replica's path in a group: the primary or the twin placement. -/
def CMap.pathSegs (m : CMap) (l r : Nat) (twin : Bool) : List Seg := if twin then m.twinOf l r else m.replica l r

/-- Rows of a replica's row segment. -/
def CMap.rowsOf (m : CMap) (l r : Nat) (twin : Bool) (i : Nat) : Nat :=
  (((m.pathSegs l r twin).find? (fun t => t.rowseg == i)).map (·.rows)).getD 0

/-- Place of a row segment's first row in the input vector of the replica (R82). -/
def CMap.rowBase (m : CMap) (l r : Nat) (twin : Bool) (i : Nat) : Nat := sumN ((List.range i).map (m.rowsOf l r twin))

/-- Fan-in of a replica (R82): at most 16 row segments. -/
def CMap.fanIn (m : CMap) (l r : Nat) (twin : Bool) : Nat := m.rowBase l r twin 16

/-- The row segments of a replica lie in one group (R82); the adder tree of a group sums no other group's. -/
def CMap.rowsTogether (m : CMap) (l r : Nat) (twin : Bool) : Bool :=
  let ss := m.pathSegs l r twin
  ss.all (fun a => ss.all (fun b => a.rowseg == b.rowseg || a.grp == b.grp))

/-- Output column of a segment's first column within its replica (R82): column segments of a row segment in order, by the columns that each now has.
DESIGN CHOICE (log 99): where Easel has cut a segment's columns (R84), the later column segments move down with it. -/
def CMap.colBase (m : CMap) (g : Seg) : Nat :=
  sumN ((m.segs.filter (fun x => x.layer == g.layer && x.replica == g.replica && x.twin == g.twin && x.rowseg == g.rowseg &&
    decide (x.ord < g.ord))).map (·.cols))

/-- Output columns that a group makes of a replica (R82). -/
def CMap.colsIn (m : CMap) (g l r : Nat) (twin : Bool) : List Nat :=
  ((m.pathSegs l r twin).filter (fun t => t.grp == g && t.rowseg == 0)).flatMap (fun t => (List.range t.cols).map (m.colBase t + ·))

/-- Bytes of n output codes of a layer (R83). -/
def PLayer.outBytes (l : PLayer) (n : Nat) : Nat :=
  match l.out.toNat with | 2 | 3 => ceilDiv n 2 | 4 => 2 * n | 5 => 4 * n | _ => n

/-- Entries that n output columns take in the consumer's buffer (R49): 64 columns of RAW32 (R207), else lines of the entry size. -/
def CMap.need (m : CMap) (l pair n : Nat) : Nat :=
  if (m.pl l).out.toNat = 5 then ceilDiv n 64 else ceilDiv ((m.pl l).outBytes n) (m.entryBytes pair)

-- Vectors in flight (R99, R100).

/-- The vector in flight of a replica in a group, of the map in use or of the draining one. -/
def State.vecIn (s : State) (g c l r : Nat) (old : Bool) : Option Vec :=
  (s.group g).vecs.find? (fun v => v.ctx == c && v.layer == l && v.replica == r && s.oldWork c v.work == old)

/-- Two records are of one vector in flight. -/
def Vec.same (v u : Vec) : Bool := u.ctx == v.ctx && u.layer == v.layer && u.replica == v.replica && u.work == v.work

/-- Takes a vector in flight out of its group. -/
def Group.dropVec (g : Group) (v : Vec) : Group := { g with vecs := g.vecs.filter (fun u => !v.same u) }

/-- Puts a vector in flight back. -/
def Group.putVec (g : Group) (v : Vec) : Group := { g with vecs := (g.dropVec v).vecs ++ [v] }

/-- The vector as the group now holds it, or as given where it is new. -/
def Group.vecNow (g : Group) (v : Vec) : Vec := (g.vecs.find? v.same).getD v

/-- Segments of a vector in a group. -/
def CMap.vecSegs (m : CMap) (g : Nat) (v : Vec) : List Seg := (m.pathSegs v.layer v.replica v.twin).filter (fun t => t.grp == g)

/-- Slices done of a segment of a vector. -/
def Vec.sliceDone (v : Vec) (t : Seg) : Nat := look 0 v.done t.ord

/-- Every segment of the vector in the group has had all its slices. -/
def CMap.vecDone (m : CMap) (g : Nat) (v : Vec) : Bool := (m.vecSegs g v).all (fun t => decide ((m.pl v.layer).slices ≤ v.sliceDone t))

/-- Entries reserved for the outputs of a context's vectors in flight and tiles in progress on a pair (R49, R105). -/
def State.reserved (s : State) (c pair : Nat) : Nat :=
  sumN (s.panels.groups.flatMap (fun p => (p.2.vecs.filter (fun v => v.ctx == c && v.pair == pair)).map (·.need))) +
    sumN ((s.liner.engs.filterMap (fun p => p.2.tile)).map (fun t => if t.ctx = c ∧ t.pair = pair then t.need else 0))

/-- The route fixed for a share's replica, for the work it belongs to (R141, R172). -/
def State.partRoute (s : State) (c : Nat) (p : StrikePart) : Route := (s.ctx c).route (s.oldWork c p.work) p.layer p.replica

/-- The vector that a share of a strike would strike: the one in flight, or a new one on the own path or the twin with its inputs read
(R87, R137); none where the replica has another vector in flight, or the inputs are not there (R51). DESIGN CHOICE (log 98): a replica whose row
segments lie in more than one group, which R82 rules out, keeps its route and is never struck. -/
def State.partVec (s : State) (g c : Nat) (p : StrikePart) : Option Vec :=
  let m := s.mapFor c p.work
  match s.vecIn g c p.layer p.replica (s.oldWork c p.work) with
  | some v => if v.work = p.work ∧ v.seq = p.seq then some v else none
  | none =>
    let way := s.partRoute c p
    let twin := way == .twin
    let r := s.gather (0x20 + g) c (!(m.pl p.layer).abits4) p.src
    if (way = .own ∨ way = .twin) ∧ m.rowsTogether p.layer p.replica twin ∧ p.src.length = m.fanIn p.layer p.replica twin ∧ !r.2.1 then
      some { ctx := c, layer := p.layer, replica := p.replica, twin := twin, work := p.work, seq := p.seq, pair := p.pair,
             need := m.need p.layer p.pair (m.colsIn g p.layer p.replica twin).length, dst := p.dst, loop := p.loop,
             acts := r.1.map (m.pl p.layer).act }
    else none

/-- The panel of a segment takes part in a strike (R79): it serves, or it was marked HARD in this tick and the vector is in flight on it
(R129). -/
def State.hitPanel (s : State) (flying : Bool) (t : Seg) : Option Nat :=
  match s.panelAt t.grp t.slot with
  | some p => if !t.dropped && (s.serves p || (flying && (s.panel p).finish && (s.panel p).st == .marked && !(s.group (p / 17)).fenced))
      then some p else none
  | none => none

/-- One participating panel of a strike: the map that its work runs on, the vector, the segment, the panel, the slice, its active rows with their
values in ascending order, and the codes of its sub-strikes. -/
structure Hit where
  map : CMap
  vec : Vec
  seg : Seg
  panel : Nat
  slice : Nat
  rows : List (Nat × Nat)
  subs : List SubCodes
deriving DecidableEq, Repr

/-- The layer of a participating panel. -/
def Hit.layer (h : Hit) : PLayer := h.map.pl h.vec.layer

/-- Active rows of a segment in slice k (R86, R90). -/
def CMap.active (m : CMap) (v : Vec) (t : Seg) (k : Nat) : List (Nat × Nat) :=
  ((List.range t.rows).map (fun i =>
    (t.row0 + i, actSlice (v.acts.getD (m.rowBase v.layer v.replica v.twin t.rowseg + i) 0) k))).filter (fun r => r.2 != 0)

/-- Sub-strikes of a panel (R90). -/
def Hit.count (h : Hit) : Nat := ceilDiv h.rows.length (winRows h.layer.window)
/-- Active rows of sub-strike i (R91). -/
def Hit.subRows (h : Hit) (i : Nat) : List (Nat × Nat) :=
  let w := winRows h.layer.window
  (h.rows.drop (w * i)).take w
/-- Codes of sub-strike i. -/
def Hit.codes (h : Hit) (i : Nat) : SubCodes := h.subs.getD i { data := [], chk := [], r0 := 0, r1 := 0 }

/-- Panels that a share strikes: one for each segment of its vector in the group whose slices are not all done, where panel and consumer allow
(R87, R105); `more` are entries of its pair that other new vectors of the strike take. -/
def State.partHits (s : State) (g c : Nat) (more : Nat) (p : StrikePart) : List Hit :=
  let m := s.mapFor c p.work
  match s.partVec g c p with
  | none => []
  | some v =>
    let flying := (s.group g).vecs.contains v
    if (s.ctx c).granted m v.pair (s.reserved c v.pair + (if flying then 0 else more + v.need)) then
      (m.vecSegs g v).filterMap (fun t =>
        match s.hitPanel flying t with
        | some ph =>
          let n := v.sliceDone t
          if n < (m.pl v.layer).slices then
            some { map := m, vec := v, seg := t, panel := ph, slice := n, rows := m.active v t n,
                   subs := ((p.segs.find? (fun q => q.seg == t.ord)).map (·.subs)).getD [] }
          else none
        | none => none)
    else []

/-- The share of a vector in flight, with the codes that the row brings for it. -/
def Vec.share (v : Vec) (ps : List StrikePart) : StrikePart :=
  (ps.find? (fun p => p.layer == v.layer && p.replica == v.replica && p.work == v.work && p.seq == v.seq)).getD
    { work := v.work, loop := v.loop, layer := v.layer, replica := v.replica, seq := v.seq, pair := v.pair, src := [], dst := v.dst, segs := [] }

/-- The shares of a context in a group (R87): its vectors in flight there, whose next slices are in the input buffer, and the new vectors of
the row, one for each replica. -/
def State.shares (s : State) (g : Nat) (k : StrikeCand) : List StrikePart :=
  k.parts.foldl (fun a p =>
    if a.any (fun q => q.layer == p.layer && q.replica == p.replica && s.oldWork k.ctx q.work == s.oldWork k.ctx p.work) then a else a ++ [p])
    (((s.group g).vecs.filter (fun v => v.ctx == k.ctx)).map (fun v => v.share k.parts))

/-- The context's units hold the work that a unit's command is for, in a tick that has begun (R45, R59). -/
def State.workOpen (s : State) (c : Nat) (w : Work) : Bool :=
  match s.task w.owner w.frame w.part with | some t => t.workOf c && s.due t && t.unposted | none => false

/-- Entries of a pair that the new vectors of a strike take. -/
def State.newNeed (s : State) (g pair : Nat) (hs : List Hit) : Nat :=
  sumN ((((hs.map (·.vec)).filter (fun v => v.pair == pair && !(s.group g).vecs.contains v)).eraseDups).map (·.need))

/-- What a group can strike of a candidate: every segment that is ready, at most one of each panel (R81, R87). -/
def State.hits (s : State) (g : Nat) (k : StrikeCand) : List Hit :=
  if (s.group g).fenced then []
  else
    ((s.shares g k).filter (fun p => s.workOpen k.ctx p.work && !s.ownWaits k.ctx p.work && !s.loopOver k.ctx p.loop)).foldl (fun a p =>
      (s.partHits g k.ctx (s.newNeed g p.pair a) p).foldl (fun a h => if a.any (fun x => x.panel == h.panel) then a else a ++ [h]) a) []

/-- Trims that a vector uses for a panel: those of its first slice (R100). -/
def State.vecTrim (s : State) (v : Vec) (p w : Nat) : Nat × Int :=
  match v.trims.find? (fun t => t.1 == p) with
  | some t => t.2
  | none => ((((s.panel p).win w).gain), ((s.panel p).win w).ofs)

/-- The row brings codes for every sub-strike of the panel, and they are such as R107 allows. -/
def State.hitFits (s : State) (h : Hit) : Bool :=
  let l := h.layer
  let tr := s.vecTrim h.vec h.panel l.window.toNat
  decide (h.count ≤ h.subs.length) && (List.range h.count).all (fun i =>
    (s.panel h.panel).codesFit l.window.toNat l tr.1 tr.2 (h.subRows i) h.seg.col0 h.seg.cols (h.codes i))

-- One strike.

/-- The vector's first slice is struck: the trims in effect now are those it keeps for all its panels (R100, R122). -/
def State.takeTrims (g : Nat) (h : Hit) (s : State) : State :=
  let v := (s.group g).vecNow h.vec
  let w := h.layer.window.toNat
  let ps := (h.map.vecSegs g v).filterMap (fun t => s.panelAt t.grp t.slot)
  onlyIf v.trims.isEmpty (State.onGroup g (fun y => y.putVec { v with
    trims := ps.map (fun p => (p, ((s.panel p).win w).gain, ((s.panel p).win w).ofs)) })) s

/-- The adder tree adds the data codes of a segment to the accumulators of its columns (R98, R99). -/
def Hit.addCodes (h : Hit) (tr : Nat × Int) (own : List Byte) (acc : SMap Int) : SMap Int :=
  (own.foldl (fun (a : SMap Int × Nat) b =>
    (modify 0 a.2 (· + contribution b.toInt tr.1 tr.2 (winStep h.layer.window) h.slice) a.1, a.2 + 1)) (acc, h.map.colBase h.seg)).1

/-- One sub-strike of one panel (R91): the Primer tests and samples it, the adder tree adds the segment's data codes. Only the segment's own
columns count as clipped for CLIPPED and CLIPCOLS, and a column counts once however many panels clip it (log 81). -/
def State.subStrike (g : Nat) (i : Nat) (h : Hit) (s : State) : State :=
  let l := h.layer
  let w := winRows l.window
  let st := winStep l.window
  let c := h.vec.ctx
  let codes := h.codes i
  let x := sumN ((h.subRows i).map (·.2))
  let v := (s.group g).vecNow h.vec
  let own := (codes.data.drop h.seg.col0).take h.seg.cols
  let s := s.onGroup g (fun y => y.putVec { v with acc := h.addCodes (s.vecTrim v h.panel l.window.toNat) own v.acc })
  let clips := (List.range own.length).filter (fun j => clipped (own.getD j 0))
  let s := onlyIf (!clips.isEmpty) (State.onCtx c (fun y => { y with
    stats := modify {} h.vec.layer (fun z => { z with
      clipped := true,
      cols := (clips.map (· + h.map.colBase h.seg)).foldl (fun a j => if a.contains j then a else a ++ [j]) z.cols }) y.stats })) s
  let s := s.onPanel h.panel (fun y => y.onWin l.window.toNat (fun z => z.sample codes x w st))
  let n := mismatches codes l.ckta l.cktr x st
  let s := onlyIf (decide (0 < n)) (State.onCtx c (fun y => { y with
    stats := modify {} h.vec.layer (fun z => { z with mismatch := true }) y.stats })) s
  each (List.range n) (fun _ => State.mismatch h.panel) s

/-- The result y of one column of a vector (R99): the accumulator in units of 2⁻¹⁸, rounded and saturated. -/
def yOf (acc : Int) : Int × Bool := satI32 (roundEven acc (2 ^ 18))

/-- The result y′ (R99): y less K, saturated. -/
def yPrime (acc k : Int) : Int × Bool :=
  let y := yOf acc
  let z := satI32 (y.1 - k)
  (z.1, y.2 || z.2)

/-- The exact result of a column for a vector in a group (R108): the sum of a × w over its rows, the offset of R85 included. -/
def State.yIdeal (s : State) (g : Nat) (m : CMap) (v : Vec) (j : Nat) : Int :=
  sumZ ((m.vecSegs g v).map (fun t =>
    let b := m.colBase t
    if b ≤ j ∧ j < b + t.cols then
      match s.panelAt t.grp t.slot with
      | some p => (s.panel p).columnSum ((List.range t.rows).map (fun i =>
          (t.row0 + i, v.acts.getD (m.rowBase v.layer v.replica v.twin t.rowseg + i) 0))) (t.col0 + (j - b))
      | none => 0
    else 0))

/-- Σ 4^k × m of R108 over the slices and row segments of a column. -/
def CMap.subSum (m : CMap) (g : Nat) (v : Vec) (j : Nat) : Nat :=
  sumN (((m.vecSegs g v).filter (fun t => decide (m.colBase t ≤ j ∧ j < m.colBase t + t.cols))).flatMap (fun t =>
    (List.range (m.pl v.layer).slices).map (fun k =>
      4 ^ k * ceilDiv (m.active v t k).length (winRows (m.pl v.layer).window))))

/-- The bound of R108 on a result y: |y − y_ideal| ≤ 1.5 × L × Σ 4^k × m + 0.5. -/
def State.yWithin (s : State) (g : Nat) (m : CMap) (v : Vec) (j : Nat) (y : Int) : Bool :=
  decide (2 * (y - s.yIdeal g m v j).natAbs ≤ 3 * winStep (m.pl v.layer).window * m.subSum g v j + 1)

/-- Output of one column of a panel layer: RAW32 passes y′ on (R101), every other OUT goes through R102. -/
def PLayer.output (l : PLayer) (col : Nat) (y : Int) : Nat :=
  if l.out.toNat = 5 then low 32 y
  else
    let r := l.cols.getD col {}
    outCode l.out.toNat l.table (fma32 (FVal.ofInt y) (fp16.val r.scale.toNat) (fp16.val r.bias.toNat))

/-- Codes as they stand in memory: two 4-bit codes a byte, the earlier in the low half; FP16 in two bytes, RAW32 in four (log 83). -/
def PLayer.packCodes (l : PLayer) (cs : List Nat) : List Byte :=
  match l.out.toNat with
  | 2 | 3 => bytesOf (ceilDiv cs.length 2) (cs.foldr (fun c a => c % 16 + 16 * a) 0)
  | 4 => cs.flatMap (bytesOf 2)
  | 5 => cs.flatMap (bytesOf 4)
  | _ => cs.flatMap (bytesOf 1)

/-- Sends y′ of a panel layer's columns to the receive buffer of the Liner engine, 64 columns an entry (R101, R207). -/
def State.sendRaw (c : Nat) (w : Work) (loop layer seq pair : Nat) (ys : List (Nat × Int)) (s : State) : State :=
  s.onLiner (fun u => { u with recv := u.recv ++ (List.range (ceilDiv ys.length 64)).map (fun i =>
    { ctx := c, layer := layer, seq := seq, pair := pair, ys := (ys.drop (64 * i)).take 64, work := w, loop := loop }) })

/-- The group of the first segment of a vector's path, where a vector that several groups share counts once (R140). -/
def CMap.leadGroup (m : CMap) (v : Vec) : Nat := (((m.pathSegs v.layer v.replica v.twin).head?).map (·.grp)).getD 0

/-- A vector ends (R99 to R105): its results form and go to the consumer against its credits, and it leaves the group. -/
def State.vectorResult (g : Nat) (m : CMap) (v : Vec) (s : State) : State :=
  let l := m.pl v.layer
  let ys := (m.colsIn g v.layer v.replica v.twin).map (fun j => (j, yPrime (look 0 v.acc j) ((l.cols.getD j {}).k)))
  let outs := ys.map (fun y => (y.1, l.output y.1 y.2.1))
  let s := s.onGroup g (fun x => { x.dropVec v with outs := outs })
  let s := onlyIf (ys.any (fun y => y.2.2)) (State.onCtx v.ctx (fun x => { x with
    stats := modify {} v.layer (fun z => { z with saturated := true }) x.stats })) s
  let s := s.onCtx v.ctx (fun x => { x.spend m v.pair v.need with
    cnt := if v.twin ∧ m.leadGroup v = g then { x.cnt with twin := satInc x.cnt.twin } else x.cnt })
  let bs := l.packCodes (outs.map (·.2))
  if l.out.toNat = 5 then s.sendRaw v.ctx v.work v.loop v.layer v.seq v.pair (ys.map (fun y => (y.1, y.2.1)))
  else (s.saveLines v.ctx v.loop v.dst bs.length).writeSpan (0x20 + g) v.ctx v.dst bs

/-- A residue mismatch (R608): the results of the vectors concerned are discarded, and the second in one tick fences the
group. -/
def State.residue (g : Nat) (vs : List Vec) (s : State) : State :=
  let s := s.onGroup g (fun x => vs.foldl Group.dropVec { x with residue := x.residue + 1 })
  if 2 ≤ (s.group g).residue then s.fenceGroup g else s

/-- A slice of a segment is done. -/
def State.sliceEnds (g : Nat) (h : Hit) (s : State) : State :=
  s.onGroup g (fun y => let v := y.vecNow h.vec; y.putVec { v with done := modify 0 h.seg.ord (· + 1) v.done })

/-- Vectors of a strike whose last slice is done give their results. -/
def State.endVectors (g : Nat) (hs : List Hit) (s : State) : State :=
  each ((hs.map (fun h => (h.map, (s.group g).vecNow h.vec))).eraseDups.filter (fun v => v.1.vecDone g v.2)) (fun v => State.vectorResult g v.1 v.2) s

/-- Some panel of the strike returns a clipped data code of its segment in sub-strike i (R91, R96). -/
def clipsAt (hs : List Hit) (i : Nat) : Bool :=
  hs.any (fun h => decide (i < h.count) && (((h.codes i).data.drop h.seg.col0).take h.seg.cols).any clipped)

/-- Sub-strikes that a strike takes (R90). -/
def subsOf (hs : List Hit) : Nat := (hs.map Hit.count).foldl max 0

/-- Issues a strike of n sub-strikes (R93), of which the first `run` are issued: tokens, counters, codes, and the results of vectors that
end. A fence token that stops it discards the partial sums (R110). SPLITS advances by n − 1 in every layer of the strike (log 81). -/
def State.issue (g c : Nat) (hs : List Hit) (n run : Nat) (bad : Bool) (s : State) : State :=
  let ls := (hs.map (fun h => h.vec.layer)).eraseDups
  let s := s.onCtx c (fun x => { x with
    tok := { x.tok with strike := modify 0 g (· - n) x.tok.strike },
    cnt := { x.cnt with
      strikes := satAdd x.cnt.strikes run, split := satAdd x.cnt.split (n - 1),
      clip := satAdd x.cnt.clip (below run (clipsAt hs)).length },
    stats := ls.foldl (fun t l => modify {} l (fun z => { z with splits := z.splits + (n - 1) }) t) x.stats })
  let s := s.onGroup g (fun x => if (s.ctx c).bind.realtime then { x with rrReal := c } else { x with rrBest := c })
  let s := each (hs.filter (fun h => !h.rows.isEmpty)) (State.takeTrims g) s
  let s := each (List.range run) (fun i => each (hs.filter (fun h => decide (i < h.count))) (State.subStrike g i)) s
  if bad then s.residue g (hs.map (·.vec))
  else if run < n then s.onGroup g (fun x => (hs.map (·.vec)).foldl Group.dropVec x)
  else (each hs (State.sliceEnds g) s).endVectors g hs

/-- Strike tokens of a context in a group. -/
def Ctx.strikeTok (x : Ctx) (g : Nat) : Nat := look 0 x.tok.strike g

/-- A BESTEFFORT context that names a poisoned object holds its work (R370). -/
def State.poisonHeld (s : State) (c : Nat) : Bool :=
  !(s.ctx c).bind.realtime && (s.workMap c).objects.any (fun o => match s.obj o with | some b => b.pois && b.applied | none => false)

/-- A context may be served by a unit in this tick: bound, budgeted, not fenced, with work, not held (R38, R70, R370). -/
def State.servable (s : State) (c : Nat) : Bool :=
  let x := s.ctx c
  x.st == .bound && x.bindLive && !x.fence && s.holds c && !s.poisonHeld c

/-- The fallback route that a share takes at the boundary of its input vector, with its cause (R137, R139, R141). -/
def State.partFallback (s : State) (g c : Nat) (p : StrikePart) : Option Nat :=
  match s.partRoute c p with
  | .fallback cause => if s.workOpen c p.work && (s.vecIn g c p.layer p.replica (s.oldWork c p.work)).isNone then some cause else none
  | _ => none

/-- Input vectors of the tick that a context's replicas routed to the fallback with cause PANEL_ROUTE still hold (R140). -/
def State.leftRouted (s : State) (k : StrikeCand) : Nat :=
  sumN ((((s.ctx k.ctx).routes ++ (s.ctx k.ctx).routesOld).filter (fun t => t.2.2 == .fallback 4)).map (fun t =>
    ((k.left.find? (fun v => v.1 == t.1 && v.2.1 == t.2.1)).map (fun v => v.2.2)).getD 0))

/-- A replica whose route is the fallback hands its context over, at a vector boundary (R61, R135, R141): of several causes the lower stands
(R63). PRM_CTX_FB counts the vectors of every replica so routed with cause PANEL_ROUTE (R140, R146). -/
def State.routeOut (g : Nat) (k : StrikeCand) (s : State) : State :=
  match (k.parts.filterMap (s.partFallback g k.ctx)).min? with
  | none => s
  | some cause =>
    onlyIf (s.servable k.ctx && (s.ctx k.ctx).handed == 0) (fun s =>
      (s.onCtx k.ctx (fun x => { x with cnt := { x.cnt with fb := satAdd x.cnt.fb (s.leftRouted k) } })).handRoute k.ctx cause) s

/-- What the strike of a candidate would be, where its context may be served. -/
def State.strikeOf (s : State) (g : Nat) (k : StrikeCand) : List Hit := if s.servable k.ctx then s.hits g k else []

/-- Sub-strikes that a candidate's strike takes (R90). -/
def State.candSubs (s : State) (g : Nat) (k : StrikeCand) : Nat := subsOf (s.strikeOf g k)

/-- An empty strike is not issued (R92): it counts, and its slices are done. -/
def State.skipEmpty (g : Nat) (k : StrikeCand) (s : State) : State :=
  let hs := s.strikeOf g k
  onlyIf (!hs.isEmpty && s.candSubs g k == 0) (fun s =>
    (each hs (State.sliceEnds g) (s.onCtx k.ctx (fun x => { x with cnt := { x.cnt with empty := satInc x.cnt.empty } }))).endVectors g hs) s

/-- The candidates of a group: the first of the row for each context, and every other context that has a vector in flight there (R87). -/
def State.allCands (s : State) (g : Nat) (ks : List StrikeCand) : List StrikeCand :=
  let own := ks.foldl (fun a k => if a.any (fun q => q.ctx == k.ctx) then a else a ++ [k]) []
  own ++ ((((s.group g).vecs.map (·.ctx)).eraseDups).filter (fun c => !own.any (fun k => k.ctx == c))).map (fun c => { ctx := c, parts := [], left := [] })

/-- The arbiter's choice (R44): REALTIME contexts first, then round-robin of context ID. -/
def chooseCtx (real best : List Nat) (rrReal rrBest : Nat) : Option Nat :=
  if real.isEmpty then nextAfter rrBest best else nextAfter rrReal real

/-- The candidates that the arbiter of a group may choose (R44, R67, R92): those with a strike that is not empty, BESTEFFORT ones only while
their tokens cover it (R220). -/
def State.claims (s : State) (g : Nat) (cands : List StrikeCand) : List StrikeCand :=
  cands.filter (fun k => decide (0 < s.candSubs g k) &&
    ((s.ctx k.ctx).bind.realtime || decide (s.candSubs g k ≤ (s.ctx k.ctx).strikeTok g)))

/-- The loop in whose optional steps all of a strike lies (R219). -/
def State.optionalHits (s : State) (c : Nat) (hs : List Hit) : Option Nat :=
  match (hs.head?).bind (fun h => s.optionalWork c h.vec.loop) with
  | some l => if hs.all (fun h => h.vec.loop == l + 1) then some l else none
  | none => none

/-- Serves the context that the arbiter chose (R40, R59, R67, R219), with codes such as R107 allows. -/
def State.strikeChosen (g : Nat) (k : StrikeCand) (bad : Bool) (cut : Option Nat) (s : State) : State :=
  let hs := s.strikeOf g k
  let n := s.candSubs g k
  if (s.ctx k.ctx).strikeTok g < n then
    match s.optionalHits k.ctx hs with
    | some l => s.endLoop k.ctx l
    | none => s.handover k.ctx 1
  else if hs.all s.hitFits then s.issue g k.ctx hs n (min n (cut.getD n)) bad
  else s

/-- STRIKE_ISSUE (R87): the contexts that have input in the group; a replica whose route is the fallback hands its context
over (R137, R139); empty strikes are skipped; the arbiter chooses among those that can strike. `cut` is the number of sub-strikes after which
a fence token of ABORT reaches the group (R110). -/
def execStrikeIssue (group : Nat) (cands : List StrikeCand) (residueBad : Bool) (cut : Option Nat) (s : State) :
    Host.Outcome State Fault Refusal :=
  .next (onlyIf s.serving (fun s =>
    let cands := s.allCands group cands
    let s := each cands (State.skipEmpty group) (handTogether (fun s => each cands (State.routeOut group) s) s)
    let ks := s.claims group cands
    let real := (ks.filter (fun k => (s.ctx k.ctx).bind.realtime)).map (·.ctx)
    let best := (ks.filter (fun k => !(s.ctx k.ctx).bind.realtime)).map (·.ctx)
    match chooseCtx real best (s.group group).rrReal (s.group group).rrBest with
    | some c => match ks.find? (fun k => k.ctx == c) with
      | some k => s.strikeChosen group k residueBad cut
      | none => s
    | none => s) s)

-- Probes (R125 to R128).

/-- Panel layers installed on a panel, each with its segment there: layers of any map with a segment on it (R122, R127). -/
def State.segsOn (s : State) (p : Nat) : List (PLayer × Seg) :=
  s.easel.ctxs.flatMap (fun x => x.2.bothMaps.flatMap (fun m =>
    (m.segs.filter (fun g => !g.dropped && s.panelAt g.grp g.slot == some p)).map (fun g => (m.pl g.layer, g))))

/-- Row windows in use on a panel. -/
def State.windowsOn (s : State) (p : Nat) : List Nat := ((s.segsOn p).map (fun x => x.1.window.toNat)).eraseDups

/-- Pairs of window and row block in use on a panel, in ascending order (R126): rows of a segment of such a layer lie in the block. -/
def State.blocksOn (s : State) (p : Nat) : List (Nat × Nat) :=
  (List.range 4).flatMap (fun w => (below (8 / 2 ^ w) (fun b => (s.segsOn p).any (fun x =>
    x.1.window.toNat == w && decide (x.2.row0 < 128 * 2 ^ w * (b + 1) ∧ 128 * 2 ^ w * b < x.2.row0 + x.2.rows)))).map (fun b => (w, b)))

/-- The pattern of a panel's next probe (R126): window and row block of a SPAN probe, none for a ZERO probe. Of four probes the last is a ZERO
probe, and the SPAN probes take the pairs in turn (log 84). -/
def State.probeOf (s : State) (p : Nat) : Option (Nat × Nat) :=
  let n := (s.panel p).probe
  let bs := s.blocksOn p
  if n % 4 = 3 then none else bs[(n / 4 * 3 + n % 4) % bs.length]?

/-- The layer whose CKTA and CKTR a SPAN probe takes (R127): the largest CKTR at that window, the first in map order among equals (log 84). -/
def State.probeLayer (s : State) (p w : Nat) : PLayer :=
  let ls := ((s.segsOn p).map (·.1)).filter (fun l => l.window.toNat == w)
  ls.foldl (fun a l => if a.cktr < l.cktr then l else a) (ls.headD {})

/-- Rows that a SPAN probe drives, each with slice value 3 (R126). -/
def spanRows (w b : Nat) : List (Nat × Nat) := (List.range (128 * 2 ^ w)).map (fun i => (128 * 2 ^ w * b + i, 3))

/-- The codes of a probe are such as R107 allows. -/
def State.probeFits (s : State) (r : ProbeRead) : Bool :=
  match s.probeOf r.panel with
  | none => true
  | some (w, b) =>
    let c := (s.panel r.panel).win w
    (s.panel r.panel).codesFit w (s.probeLayer r.panel w) c.gain c.ofs (spanRows w b) 0 256 r.codes

/-- One panel's share of a probe slot: offset samples of a ZERO probe at every window in use, or a SPAN sub-strike of
X = 3W with the test of all 32 groups (R126, R127). A mismatch counts against the panel and the total; the status word of the layer that lends its CKTA
and CKTR stays as it is (DESIGN CHOICE, log 84). -/
def State.probePanel (r : ProbeRead) (s : State) : State :=
  let pat := s.probeOf r.panel
  let ws := s.windowsOn r.panel
  let s := s.onPanel r.panel (fun x => { x with probe := x.probe + 1 })
  match pat with
  | none =>
    s.onPanel r.panel (fun x => ws.foldl (fun x w => x.onWin w (fun c =>
      { c with so := c.so + (r.codes.r0.toInt + r.codes.r1.toInt), no := c.no + 1 })) x)
  | some (k, _) =>
    let w := 128 * 2 ^ k
    let best := s.probeLayer r.panel k
    let s := s.onPanel r.panel (fun x => x.onWin k (fun c => c.sample r.codes (3 * w) w (w / 32)))
    each (List.range (mismatches r.codes best.ckta best.cktr (3 * w) (w / 32))) (fun _ => State.mismatch r.panel) s

/-- Panels of a group that a probe slot strikes: those SERVING or MARKED (R126). -/
def State.probed (s : State) (g : Nat) : List Nat :=
  ((List.range 17).map (17 * g + ·)).filter (fun p => (s.panel p).st == .serving || (s.panel p).st == .marked)

/-- PROBE_STRIKE (R125): a probe slot of a group in which the arbiter finds no context ready among those with input, with the codes of
every panel it strikes; at most PROBE_MAX a tick, none in QUIET mode, and no token is charged (R41, R128). -/
def execProbeStrike (group : Nat) (cands : List StrikeCand) (reads : List ProbeRead) (s : State) : Host.Outcome State Fault Refusal :=
  .next (onlyIf (s.serving && !(s.group group).fenced && s.primer.running && !s.primer.fenced &&
      s.primer.eff.mode != 2 && decide ((s.group group).probes < s.primer.eff.probeMax.toNat) && (s.claims group (s.allCands group cands)).isEmpty &&
      (s.probed group).all (fun p => reads.any (fun r => r.panel == p)) && reads.all (fun r => !(s.probed group).contains r.panel || s.probeFits r)) (fun s =>
    each ((s.probed group).filterMap (fun p => reads.find? (fun r => r.panel == p))) State.probePanel
      (s.onGroup group (fun g => { g with probes := g.probes + 1 }))) s)

end Sys2Proof.Machine
end

