-- ==== Sys2Proof/Machine/Liner.lean ====
section
/-! DEFINITION. Liner engines: arithmetic of every kind and format (R188 to R191, R201, R206, R210 to R213, R224), scratch and
tiles with their charges (R193 to R200), streamed layers (R221 to R223), loops (R219), state (R215) and Retouch steps (R227 to R229). -/

namespace Sys2Proof.Machine

-- Formats (R188).

/-- The formats of FMT 3 to 5: FP8 as FP8W or FP8A states, BF16, FP16 (R188, R204). -/
def floatFmt (fmt : Nat) (e5 : Bool) : FFmt :=
  match fmt with
  | 3 => if e5 then e5m2 else e4m3
  | 4 => bf16
  | _ => fp16

/-- The layer computes in integers. -/
def LLayer.isInt (l : LLayer) : Bool := decide (l.fmt.toNat < 3)
/-- Bits of an activation (R188). -/
def LLayer.aBits (l : LLayer) : Nat := match l.fmt.toNat with | 2 => 4 | 0 | 1 | 3 => 8 | _ => 16

/-- A weight code of an integer format (R188): INT8 and INT4 signed, W4A8 as WSIGN states. -/
def LLayer.wInt (l : LLayer) (x : Nat) : Int :=
  match l.fmt.toNat with
  | 0 => signed 8 x
  | 1 => if l.wsign then signed 4 x else ((x % 16 : Nat) : Int)
  | _ => signed 4 x

/-- An activation code of an integer format (R188), as ASIGN states. -/
def LLayer.aInt (l : LLayer) (x : Nat) : Int := if l.asign then signed l.aBits x else ((x % 2 ^ l.aBits : Nat) : Int)

/-- Rows of a weight block (R188). -/
def LLayer.blockRows (l : LLayer) : Nat := if l.fmt.toNat = 2 then 128 else 64
/-- Cycles per vector per block (R188). -/
def LLayer.cpv (l : LLayer) : Nat := match l.fmt.toNat with | 3 => 2 | 4 | 5 => 4 | _ => 1
/-- MAC per ARITH cycle (R188). -/
def LLayer.macs (l : LLayer) : Nat := match l.fmt.toNat with | 2 => 8192 | 3 => 2048 | 4 | 5 => 1024 | _ => 4096

-- Scratch (R193).

/-- Byte a of the scratch. -/
def Engine.byte (x : Engine) (a : Nat) : Nat := bits (look {} x.scratch (a / 64)).data.toNat (8 * (a % 64) + 7) (8 * (a % 64))

/-- Element i of w bits from byte address a: two to a byte where w is 4, the earlier in the low half. -/
def Engine.elem (x : Engine) (w a i : Nat) : Nat :=
  match w with
  | 4 => let b := x.byte (a + i / 2); if i % 2 = 0 then b % 16 else b / 16
  | 8 => x.byte (a + i)
  | _ => x.byte (a + 2 * i) + 256 * x.byte (a + 2 * i + 1)

/-- n elements from byte address a. -/
def Engine.elems (x : Engine) (w a n : Nat) : List Nat := (List.range n).map (x.elem w a)

/-- A line with its line check (R193). -/
def scratchLine (src : Option LineSrc) (d : Line) : ScratchLine := { data := d, crc := BitVec.ofNat 32 (crc32 (lineBytes d)), src := src }

/-- The line passes its check. -/
def ScratchLine.ok (l : ScratchLine) : Bool := l.crc.toNat == crc32 (lineBytes l.data)

/-- Bits of a scratch line flip; the answer tells whether its check fails, or the row stands for a residue mismatch (R200, R608). -/
def Engine.upset (x : Engine) : Option (Nat × Line) → Engine × Option Nat
  | none => (x, none)
  | some (l, bits) =>
    let d := look (scratchLine none 0) x.scratch l
    let v := { d with data := d.data ^^^ bits }
    (if bits = 0 then x else { x with scratch := putRaw l v x.scratch }, if bits = 0 ∨ !v.ok then some l else none)

-- Sums of products (R189, R190).

/-- A saturating INT32 sum of exact terms, in order (R189, R190), and whether it saturated. -/
def sumSat (xs : List Int) : Int × Bool :=
  xs.foldl (fun a x => let r := satI32 (a.1 + x); (r.1, a.2 || r.2)) (0, false)

/-- An FP32 sum of exact products, rounded at each addition, in order (R189, R190). -/
def dot32 (xs : List (FVal × FVal)) : Word := xs.foldl (fun a p => addF32 a (p.1.mul p.2)) 0

/-- Sum of products of one column: as a value, and whether it saturated. -/
def LLayer.dot (l : LLayer) (ws as_ : List Nat) : FVal × Bool :=
  if l.isInt then
    let r := sumSat ((ws.zip as_).map (fun p => l.wInt p.1 * l.aInt p.2))
    (FVal.ofInt r.1, r.2)
  else
    let w := floatFmt l.fmt.toNat l.fp8w
    let a := floatFmt l.fmt.toNat l.fp8a
    (fp32.val (dot32 ((ws.zip as_).map (fun p => (w.val p.1, a.val p.2)))).toNat, false)

/-- Activations of one output in ascending K order: a row of K, or for CONV the kernel's pixels row by row with the channels of the output's
group (R190, R204). -/
def Engine.acts (x : Engine) (l : LLayer) (c : TileCol) : List Nat :=
  if l.kind.toNat = 1 then
    let g := max 1 l.groups
    let per := l.k / max 1 (l.kh * l.kw) / g
    let grp := c.col / max 1 (l.m / g)
    (List.range l.kh).flatMap (fun ky => (List.range l.kw).flatMap (fun kx =>
      (List.range per).map (fun ch => x.elem l.aBits (c.a + ky * c.row + kx * c.pix) (grp * per + ch))))
  else x.elems l.aBits c.a l.k

/-- An 8-bit activation converted to a format with the layer's activation scale (R224). -/
def LLayer.scaled (l : LLayer) (f : FFmt) (ascale : Half) (x : Nat) : FVal :=
  let v := if l.asign then signed 8 x else ((x % 256 : Nat) : Int)
  f.val (f.enc true ((FVal.ofInt v).mul (fp16.val ascale.toNat)))

/-- u = A · x and v = B · u for one row of B (R224), sums in FP32; u is kept in FP32 between the two (log 103). -/
def lowRankV (a : List (List FVal)) (b xs : List FVal) : Word :=
  dot32 (b.zip (a.map (fun r => fp32.val (dot32 (r.zip xs)).toNat)))

/-- A list cut into rows of n. -/
def rowsOf {α : Type} (n : Nat) (xs : List α) : List (List α) := (List.range (xs.length / max 1 n)).map (fun i => (xs.drop (n * i)).take n)

/-- The trained copies of a LOWRANK layer that a tile runs on (R229): those that its frame keeps in the context, else those in use; none where the layer has
not been trained. -/
def State.copiesFor (s : State) (c : Nat) (w : Work) (l : Nat) : Option (List Half × List Half) :=
  match (s.task w.owner w.frame w.part).bind (fun t => ((if t.ctx = c then t.low else t.lowBy).find? (fun p => p.1 == l)).map (·.2)) with
  | some p => if p.1.isEmpty then none else some p
  | none => (((s.ctx c).low.find? (fun p => p.1 == l)).map (fun p => (p.2.useA, p.2.useB))).bind
      (fun p => if p.1.isEmpty then none else some p)

/-- v of a LOWRANK column (R224): A and B of the Canvas stand in scratch, A row by row and then B; trained copies are BF16. -/
def LLayer.lowRank (l : LLayer) (x : Engine) (copies : Option (List Half × List Half)) (c : TileCol) : Word :=
  let act := floatFmt l.fmt.toNat l.fp8a
  let xs := (x.elems 8 c.a l.k).map (l.scaled act c.ascale)
  match copies with
  | some (a, b) => lowRankV (rowsOf l.k (a.map (fun h => bf16.val h.toNat))) (((b.drop (l.rank * c.col)).take l.rank).map (fun h => bf16.val h.toNat)) xs
  | none =>
    let f := floatFmt l.fmt.toNat l.fp8w
    let n := l.rank * l.k
    lowRankV (rowsOf l.k ((x.elems l.wBits c.w n).map f.val)) (((List.range l.rank).map (fun i => x.elem l.wBits c.w (n + l.rank * c.col + i))).map f.val) xs

-- Parts from panels (R206, R207, R210, R224).

/-- y′ of a panel layer for an input vector and a column, where the receive buffer holds it. -/
def State.rawAt (s : State) (c seq col layer : Nat) : Option Int :=
  s.liner.recv.findSome? (fun r => if r.ctx = c ∧ r.layer = layer ∧ r.seq = seq then (r.ys.find? (fun y => y.1 == col)).map (·.2) else none)

/-- Panel layers whose parts an output takes: HIGHSRC, or for REDUCE the layers named in ascending group order (R206, R210, R224). -/
def LLayer.partsOf (l : LLayer) (m : CMap) (c : TileCol) : List Nat :=
  match l.kind.toNat with
  | 2 | 5 => [l.highsrc]
  | 3 =>
    let grp (p : Nat) : Nat := (((m.segs.find? (fun g => g.layer == p)).map (·.grp)).getD 0)
    (List.range 32).flatMap (fun g => c.parts.filter (fun p => grp p == g))
  | _ => []

/-- Parts taken leave the receive buffer; an entry is released when the last of it has been taken (R207). -/
def State.takeParts (c : Nat) (used : List (Nat × Nat × Nat)) (s : State) : State :=
  s.onLiner (fun u => { u with recv := (u.recv.map (fun r => if r.ctx = c then
      { r with ys := r.ys.filter (fun y => !used.contains (r.layer, r.seq, y.1)) } else r)).filter (fun r => !r.ys.isEmpty) })

-- The output stage (R102, R191, R201).

/-- A code of an output format: OUT of R102, then 5 BF16, 6 E4M3, 7 E5M2 and 8 FP32 (R201); infinities and overflow saturate but in BF16
(R191). -/
def linCode (out : Nat) (table : Option (List Byte)) (z : Word) : Nat :=
  match out with
  | 5 => bf16.enc false (fp32.val z.toNat)
  | 6 => e4m3.enc true (fp32.val z.toNat)
  | 7 => e5m2.enc true (fp32.val z.toNat)
  | 8 => z.toNat
  | _ => outCode out table z

/-- Bits of an output code. -/
def linBits (out : Nat) : Nat := match out with | 2 | 3 => 4 | 4 | 5 => 16 | 8 => 32 | _ => 8

/-- z of a LOWRANK column (R224): y′ × SCALE, ALPHA × v and BIAS added in that order into FP32, rounded at each addition (R189; log 104). -/
def LLayer.lowRankZ (l : LLayer) (y : Int) (v : Word) (r : ColRec) : Word :=
  addF32 (addF32 (mulF32 (FVal.ofInt y) (fp16.val r.scale.toNat)) ((fp16.val l.alpha.toNat).mul (fp32.val v.toNat))) (fp16.val r.bias.toNat)

/-- One output of a Liner layer after the output stage's multiply-add (R201), in FP32; and whether it saturated. -/
def State.column (s : State) (e : Nat) (t : Tile) (m : CMap) (l : LLayer) (c : TileCol) : Word × Bool :=
  let x := s.eng e
  let r := l.cols.getD c.col {}
  let scale := fp16.val r.scale.toNat
  let bias := fp16.val r.bias.toNat
  let ys := (l.partsOf m c).map (fun p => (s.rawAt t.ctx c.seq c.col p).getD 0)
  match l.kind.toNat with
  | 2 =>
    let d := sumSat (((x.elems l.wBits c.w l.k).zip (x.acts l c)).map (fun p => l.wInt p.1 * l.aInt p.2))
    let y := satI32 (16 * sumZ ys + d.1)
    let z := satI32 (y.1 - r.k)
    (fma32 (FVal.ofInt z.1) scale bias, d.2 || y.2 || z.2)
  | 3 => let d := sumSat ys; (fma32 (FVal.ofInt d.1) scale bias, d.2)
  | 5 => (l.lowRankZ (sumZ ys) (l.lowRank x (s.copiesFor t.ctx t.work t.layer) c) r, false)
  | _ => let d := l.dot (x.elems l.wBits c.w l.fan) (x.acts l c); (fma32 d.1 scale bias, d.2)

/-- y_ideal of one column of a substitute (R211), exactly: the data weights of the images of its row segments, in scratch, and the activations
with the offset of R85. -/
def Engine.substIdeal (x : Engine) (m : CMap) (l : Nat) (c : TileCol) : Int :=
  let p := m.pl l
  sumZ ((m.replica l c.replica).map (fun t =>
    let b := m.colBase t
    if b ≤ c.col ∧ c.col < b + t.cols then
      sumZ ((List.range t.rows).map (fun i =>
        let a := p.act (x.elem (2 * p.slices) c.a (m.rowBase l c.replica false t.rowseg + i))
        (a : Int) * signed 4 (x.elem 4 (c.parts.getD t.rowseg 0) (288 * (t.row0 + i) + t.col0 + (c.col - b)))))
    else 0))

/-- y′ of one column of a substitute (R99, R211), and whether it saturated. -/
def Engine.substRaw (x : Engine) (m : CMap) (l : Nat) (c : TileCol) : Int × Bool :=
  let y := satI32 (x.substIdeal m l c)
  let z := satI32 (y.1 - ((m.pl l).cols.getD c.col {}).k)
  (z.1, y.2 || z.2)

-- Attention (R212, R213).

/-- HEADDIM (R204). -/
def LLayer.headDim (l : LLayer) : Nat := match l.headdim.toNat with | 0 => 32 | 2 => 128 | _ => 64
/-- Keys of a key block (R213). -/
def LLayer.keyBlock (l : LLayer) : Nat := if l.headdim = 2 then 32 else 64

/-- The window of a query, first key and the key after its last (R212): the WIN most recent keys up to the query, or the WIN nearest, the
earlier of two as near (log 85). -/
def LLayer.window (l : LLayer) (pos total : Nat) : Nat × Nat :=
  if l.mask then (pos + 1 - l.win, min total (pos + 1))
  else let n := min l.win total; let lo := min (pos - l.win / 2) (total - n); (lo, lo + n)

/-- exp of an FP32 number from the fixed table with linear interpolation (R213). -/
def expF32 (x : Word) : Word :=
  let p := Config.expPlace x
  let t0 := Config.expEntry (p.1 % 1023)
  fma32 (fp32.val (subF32 (Config.expEntry (p.1 % 1023 + 1)) t0).toNat) (fp32.val p.2.toNat) (fp32.val t0.toNat)

/-- The whole part of a square root, by bits: n has at most 2k bits. -/
def sqrtBits : Nat → Nat → Nat
  | 0, _ => 0
  | k + 1, n => let r := 2 * sqrtBits k (n / 4); if (r + 1) * (r + 1) ≤ n then r + 1 else r

/-- The FP32 numbers between which x ÷ √(2 × 4^h) lies, the smaller in magnitude first; x itself where it has no value to divide. -/
def divRoot (h : Nat) (x : Word) : Word × Word :=
  match fp32.val x.toNat with
  | .fin neg (m + 1) e =>
    let y := sqrtBits 70 (2 * (m + 1) * (m + 1) * 4 ^ 40)
    let v : FVal := .fin false y (e - h - 41)
    let n := fp32.enc false v
    let low := match (fp32.val n).add v.neg with | .fin false (_ + 1) _ => n - 1 | _ => n
    let sgn := if neg then 2 ^ 31 else 0
    (BitVec.ofNat 32 (low + sgn), BitVec.ofNat 32 (low + 1 + sgn))
  | _ => (x, x)

/-- q · k ÷ √d in FP32 (R212): for d = 64 the quotient by 8, else one of the two numbers next to the exact quotient. -/
def scoreF32 (d : Nat) (q k : List FVal) : Word :=
  let x := dot32 (q.zip k)
  let r := divRoot (if d = 32 then 2 else 3) x
  if d = 64 then mulF32 (fp32.val x.toNat) (.fin false 1 (-3)) else if Config.divRootUp d x then r.2 else r.1

/-- The query under way on the engine, or one that begins (R213). -/
def Engine.query (x : Engine) (k : TileCand) (l : LLayer) (q : AttnQuery) : AttnAcc :=
  (x.attn.find? (fun a => a.ctx == k.ctx && a.layer == k.layer && a.id == q.id)).getD
    { ctx := k.ctx, layer := k.layer, id := q.id, next := (l.window q.pos k.block.total).1 / l.keyBlock * l.keyBlock,
      max_ := 0xFF800000, sum := 0, acc := List.replicate l.headDim 0 }

/-- The tile's key block is the one that follows for the query, and whole (R213). -/
def Engine.queryFits (x : Engine) (k : TileCand) (l : LLayer) (q : AttnQuery) : Bool :=
  k.block.key0 == (x.query k l q).next && k.block.keys == min l.keyBlock (k.block.total - k.block.key0) &&
    decide (k.block.key0 < (l.window q.pos k.block.total).2)

/-- The tile's key block is the last of the query's window. -/
def endsQuery (k : TileCand) (l : LLayer) (q : AttnQuery) : Bool := decide ((l.window q.pos k.block.total).2 ≤ k.block.key0 + k.block.keys)

/-- The tile's key block for one query (R213): the block's maximum, the running maximum, the rescaling of sum and accumulator, and the terms of
the scores inside the window in ascending key order. Queries take FMT's activation encoding, keys and values its weight encoding (log 105). -/
def Engine.attend (x : Engine) (k : TileCand) (l : LLayer) (q : AttnQuery) : AttnAcc :=
  let a := x.query k l q
  let b := k.block
  let d := l.headDim
  let f := floatFmt l.fmt.toNat l.fp8a
  let g := floatFmt l.fmt.toNat l.fp8w
  let win := l.window q.pos b.total
  let qs := (x.elems l.aBits q.q d).map f.val
  let ks := ((List.range b.keys).filter (fun j => decide (win.1 ≤ b.key0 + j ∧ b.key0 + j < win.2))).map (fun j =>
    (scoreF32 d qs ((x.elems l.wBits (b.k + j * d * l.wBits / 8) d).map g.val), (x.elems l.wBits (b.v + j * d * l.wBits / 8) d).map g.val))
  match ks with
  | [] => { a with next := b.key0 + b.keys }
  | (s0, _) :: _ =>
    let m := maxF32 a.max_ ((ks.map (·.1)).foldl maxF32 s0)
    let first := a.max_ == 0xFF800000
    let r := expF32 (subF32 a.max_ m)
    let scale (w : Word) : Word := if first then w else mulF32 (fp32.val w.toNat) (fp32.val r.toNat)
    let es := ks.map (fun p => (expF32 (subF32 p.1 m), p.2))
    { a with
      next := b.key0 + b.keys, max_ := m
      sum := es.foldl (fun w p => addF32 w (fp32.val p.1.toNat)) (scale a.sum)
      acc := (List.range d).map (fun j => es.foldl (fun w p => addF32 w ((fp32.val p.1.toNat).mul (p.2.getD j .nan))) (scale (a.acc.getD j 0))) }

/-- The outputs of a query after its last key block (R213), through the output stage. -/
def LLayer.attnOut (l : LLayer) (head : Nat) (a : AttnAcc) : List Word :=
  (List.range l.headDim).map (fun j =>
    let r := l.cols.getD (head * l.headDim + j) {}
    fma32 (fp32.val (divF32 (a.acc.getD j 0) a.sum).toNat) (fp16.val r.scale.toNat) (fp16.val r.bias.toNat))

-- Tiles: costs (R196 to R198).

/-- Compute cycles of n vectors over cb blocks of 64 columns (R197, R210, R225). -/
def LLayer.cyclesOf (l : LLayer) (n cb parts : Nat) : Nat :=
  match l.kind.toNat with
  | 3 => n * cb * parts
  | 4 => 0
  | 5 => ceilDiv (n * l.rank * (l.k + l.m)) l.macs + n * cb
  | _ => n * cb * ceilDiv l.fan l.blockRows * l.cpv

/-- Compute cycles of an attention tile (R213): scores and values. -/
def LLayer.attnCycles (l : LLayer) (k : TileCand) : Nat := ceilDiv (2 * l.headDim * k.block.keys * k.queries.length) l.macs

/-- Input vectors and blocks of 64 columns that outputs belong to. -/
def tileShape (os : List TileCol) : List Nat × Nat := ((os.map (·.seq)).eraseDups, ((os.map (fun c => c.col / 64)).eraseDups).length)

/-- Compute cycles per vector of a tile: a substitute works in W4A8 (R211). -/
def CMap.perVector (m : CMap) (k : TileCand) : Nat :=
  let cb := (tileShape k.outs).2
  if k.subst then cb * ceilDiv (m.fanIn k.layer ((k.outs.map (·.replica)).headD 0) false) 64
  else (m.ll k.layer).cyclesOf 1 cb ((k.outs.map (fun c => c.parts.length)).headD 0)

/-- Compute cycles of a tile by R197. -/
def CMap.tileCycles (m : CMap) (k : TileCand) : Nat :=
  if k.subst then (tileShape k.outs).1.length * m.perVector k
  else (m.ll k.layer).cyclesOf (tileShape k.outs).1.length (tileShape k.outs).2 ((k.outs.map (fun c => c.parts.length)).headD 0) +
    (m.ll k.layer).attnCycles k

/-- Engines of a mask, in ascending order. -/
def engsOf (set : BitVec 16) : List Nat := below 16 (set.getLsbD ·)

/-- The engine is to make the output column (R202). DESIGN CHOICE (log 106): blocks of 64 columns go to the engines of the set in turn, in ascending
order, and not in runs of blocks. -/
def LLayer.columnOn (l : LLayer) (e col : Nat) : Bool :=
  let es := engsOf l.eset
  es[(col / 64) % es.length]? == some e

/-- Blocks of 64 columns of a head, or the part of one that it is, that the engine makes (R202). -/
def LLayer.headBlocks (l : LLayer) (e head : Nat) : List Nat := below (ceilDiv l.headDim 64) (fun i => l.columnOn e (l.headDim * head + 64 * i))

-- Streamed layers (R221, R222).

/-- A staging area for the layer of which bytes are still to be asked for. -/
def State.stageOpen (s : State) (c l : Nat) (g : Stage) : Bool :=
  g.ctx == c && g.layer == l && decide (g.asked < ((s.curMap c).ll l).weightBytes)

/-- A fetch of a streamed layer may issue: it has an area, or is the next in pass order and one of the two areas is free (R221). DESIGN CHOICE (log
107): the two areas are counted for a context, whatever engine set its streamed layers name. -/
def State.stageFree (s : State) (c l : Nat) : Bool :=
  let ls := (s.curMap c).streamed
  s.liner.stages.any (s.stageOpen c l) ||
    (decide ((s.liner.stages.filter (fun g => g.ctx == c)).length < 2) && ls[look 0 s.liner.stageNext c % ls.length]? == some l)

/-- A fetch of n bytes of a streamed layer issues; the first takes a free area, and the pass goes on to the next layer, after the last with the
first (R221). -/
def State.stageAsk (c l n : Nat) (s : State) : State :=
  let s := if s.liner.stages.any (s.stageOpen c l) then s else s.onLiner (fun u => { u with
    stages := u.stages ++ [{ ctx := c, layer := l, area := if u.stages.any (fun g => g.ctx == c && g.area == 0) then 1 else 0 }]
    stageNext := modify 0 c (fun i => (i + 1) % max 1 (s.curMap c).streamed.length) u.stageNext })
  s.onLiner (fun u => { u with stages := setAt u.stages (u.stages.findIdx (s.stageOpen c l)) (fun g => { g with asked := g.asked + n }) })

/-- n bytes of a streamed layer have come to its oldest area that lacks some. -/
def State.stageFetch (c l n : Nat) (s : State) : State :=
  s.onLiner (fun u => { u with
    stages := setAt u.stages (u.stages.findIdx (fun g => g.ctx == c && g.layer == l && decide (g.have_ < g.asked))) (fun g => { g with have_ := g.have_ + n }) })

/-- An engine has taken its share of a staged layer; the area is free when the whole set has (R221, R222). -/
def State.takeShare (c l e : Nat) (set : BitVec 16) (s : State) : State :=
  s.onLiner (fun u => { u with
    stages := (setAt u.stages (u.stages.findIdx (fun g => g.ctx == c && g.layer == l && !g.taken.getLsbD e))
      (fun g => { g with taken := g.taken ||| BitVec.ofNat 16 (2 ^ e) })).filter (fun g => !(g.ctx == c && g.layer == l && g.taken &&& set == set)) })

-- Tiles: start (R42, R194).

/-- Cycle tokens of a context on an engine. -/
def Ctx.cycleTok (x : Ctx) (e : Nat) : Nat := look 0 x.tok.cycle e
/-- Takes cycle tokens, down to zero. -/
def State.chargeCycles (c e n : Nat) (s : State) : State :=
  s.onCtx c (fun x => { x with tok := { x.tok with cycle := modify 0 e (· - n) x.tok.cycle } })

/-- The declared cost of a tile (R198, R544): TCOSTW where it loads a share of a streamed layer, TCOST else; Retouch and
substitute tiles bring their own. -/
def State.tileCost (s : State) (k : TileCand) : Nat :=
  let l := (s.mapFor k.ctx k.work).ll k.layer
  if k.retouch || k.subst then k.cost else if k.share && l.stream then l.tcostw else l.tcost

/-- The tile is served as REALTIME work (R44, R228). -/
def State.tileReal (s : State) (k : TileCand) : Bool := (s.ctx k.ctx).bind.realtime && !k.retouch

/-- The place of an engine in a set. -/
def setPlace (set : BitVec 16) (e : Nat) : Nat := (engsOf set).idxOf e

/-- Entries that a tile delivers to its consumer (R49): for each vector 64 columns of RAW32 an entry (R207), else its codes in lines of the entry
size; for attention the codes of each query that ends. -/
def State.tileNeed (s : State) (e : Nat) (k : TileCand) : Nat :=
  let m := s.mapFor k.ctx k.work
  let l := m.ll k.layer
  let ofCodes (n : Nat) : Nat := ceilDiv (ceilDiv (n * linBits k.out) 8) (m.entryBytes k.pair)
  let cols (q : Nat) : Nat := (k.outs.filter (fun c => c.seq == q)).length
  if k.retouch then 0
  else if k.subst then sumN ((tileShape k.outs).1.map (fun q => m.need k.layer k.pair (cols q)))
  else if l.kind = 4 then sumN ((k.queries.filter (endsQuery k l)).map (fun _ => ofCodes (min l.headDim (64 * (l.headBlocks e k.block.head).length))))
  else sumN ((tileShape k.outs).1.map (fun q => ofCodes (cols q)))

/-- What of a tile the engine takes up: the columns that are its own (R202), no more vectors than 512 compute cycles hold (R197), of an attention
tile 64 queries that its one key block is for (R213), and the loop that its layer is in. -/
def State.fitTile (s : State) (e : Nat) (k : TileCand) : TileCand :=
  let m := s.mapFor k.ctx k.work
  let l := m.ll k.layer
  if k.retouch then { k with outs := [], queries := [], loop := 0 }
  else
    let k := { k with
      outs := if k.subst then k.outs else if l.kind = 4 then [] else k.outs.filter (fun c => l.columnOn e c.col)
      queries := if k.subst || l.kind != 4 || (l.headBlocks e k.block.head).isEmpty then [] else (k.queries.filter ((s.eng e).queryFits k l)).take 64
      loop := if k.subst then k.loop else l.loop }
    let per := m.perVector k
    { k with outs := if per = 0 then k.outs else k.outs.filter (fun c => ((tileShape k.outs).1.take (max 1 (512 / per))).contains c.seq) }

/-- The tile's consumer grants credit for what it delivers (R49). -/
def State.tileCredit (s : State) (e : Nat) (k : TileCand) : Bool :=
  (s.ctx k.ctx).granted (s.mapFor k.ctx k.work) k.pair (s.reserved k.ctx k.pair + s.tileNeed e k)

/-- State is used in tick order (R217): a BESTEFFORT context has earlier frames than the tile's. -/
def State.earlierFrames (s : State) (c : Nat) (w : Work) : Bool :=
  match s.task w.owner w.frame w.part with
  | some t => (s.easel.tasks.takeWhile (fun u => u.cmd.seq != t.cmd.seq)).any (fun u => u.workOf c && u.tick != t.tick)
  | none => false

/-- A tile may be served on the engine: it lies in the layer's engine set and its stagger is over, or is a substitute there (R137, R202); its
context may be served, an overrun passed to it comes first (R65), and so do the earlier frames of a layer with state (R217); its loop goes on
(R219). -/
def State.tileReady (s : State) (e : Nat) (k : TileCand) : Bool :=
  let x := s.ctx k.ctx
  let m := s.mapFor k.ctx k.work
  let l := m.ll k.layer
  (if k.retouch then x.st == .bound && x.bindLive && !x.fence &&
        (match x.retouch with | some r => r.eset.getLsbD e && r.layers.contains k.layer && decide (r.done + r.ready < r.steps) | none => false)
    else s.servable k.ctx && s.workOpen k.ctx k.work && !s.ownWaits k.ctx k.work && !s.loopOver k.ctx k.loop && (if k.subst then
        (m.pl k.layer).subst && (m.pl k.layer).substLe == e &&
          (if s.oldWork k.ctx k.work then x.routesOld else x.routes).any (fun t => t.1 == k.layer && t.2.2 == .subst)
      else l.eset.getLsbD e && decide (k.layer < m.llayers.length) && decide (setPlace l.eset e * l.stagger ≤ k.since) &&
        !(l.stateful && !x.bind.realtime && s.earlierFrames k.ctx k.work)))

/-- Two tiles that wait are one: the same layer of the same context. -/
def sameTile (k w : TileCand) : Bool := k.ctx == w.ctx && k.layer == w.layer && k.retouch == w.retouch && k.subst == w.subst

/-- Starts a tile (R42, R196): the cost is charged and its load phase begins. -/
def State.startTile (e : Nat) (k : TileCand) (s : State) : State :=
  let n := s.tileCost k
  let real := s.tileReal k
  let t : Tile := { toTileCand := k, charge := n, tick := s.tick.count, need := s.tileNeed e k }
  ((s.chargeCycles k.ctx e n).onEng e (fun x => { x with
    tile := some t, phase := 1, ctx := BitVec.ofNat 10 k.ctx, waits := x.waits.filter (fun w => !sameTile k w)
    rrReal := if real then k.ctx else x.rrReal, rrBest := if real then x.rrBest else k.ctx })).onCtx k.ctx
    (fun x => { x with cnt := { x.cnt with linTiles := satInc x.cnt.linTiles } })

/-- The tile cannot start yet: its weights or its inputs are not there (R51, R214, R223), or it lacks credit (R49). -/
def State.tileAbsent (s : State) (e : Nat) (k : TileCand) : Bool := s.tileLate e k || !k.present || !s.tileCredit e k

/-- The tile that the engine's arbiter chooses (R44). -/
def State.pickTile (s : State) (e : Nat) (ks : List TileCand) : Option TileCand :=
  let real := (ks.filter s.tileReal).map (·.ctx)
  let best := (ks.filter (fun k => !s.tileReal k)).map (·.ctx)
  match chooseCtx real best (s.eng e).rrReal (s.eng e).rrBest with
  | none => none
  | some c => ks.find? (fun k => k.ctx == c && (s.tileReal k || real.isEmpty))

/-- The tiles an engine has to choose from: those of the row, and those that wait and that the row does not name. -/
def State.engTiles (s : State) (e : Nat) (cands : List TileCand) : List TileCand :=
  let new := cands.map (s.fitTile e)
  (new ++ (s.eng e).waits.filter (fun w => !new.any (fun k => sameTile k w))).filter (s.tileReady e)

/-- The tiles wait on the engine, and no others (R51, R223, R234). -/
def State.waitTiles (e : Nat) (ks : List TileCand) (s : State) : State :=
  s.onEng e (fun x => let x := { x with waits := ks }; { x with phase := x.idlePhase })

/-- Serves the tile chosen (R42, R59, R219): tokens short of its cost end an optional loop step or hand over. -/
def State.serveTile (e : Nat) (k : TileCand) (s : State) : State :=
  if (s.ctx k.ctx).cycleTok e < s.tileCost k then
    match s.optionalWork k.ctx k.loop with
    | some l => s.endLoop k.ctx l
    | none => s.handover k.ctx 1
  else s.startTile e k

/-- TILE_START (R194): the engine's arbiter chooses among tiles that are ready; one whose swatches, inputs or credit are not present waits (R51,
R60, R223), and one that has its input is served meanwhile; a REALTIME context whose tokens fall short hands over
(R42, R59), an optional loop step ends its loop (R219), BESTEFFORT work waits for tokens (R67, R220). -/
def execTileStart (eng : Nat) (cands : List TileCand) (s : State) : Host.Outcome State Fault Refusal :=
  .next (onlyIf (s.serving && !(s.eng eng).fenced && (s.eng eng).ready && (s.eng eng).tile.isNone) (fun s =>
    let ks := s.engTiles eng cands
    let now := ks.filter (fun k => !s.tileAbsent eng k && (s.tileReal k || decide (s.tileCost k ≤ (s.ctx k.ctx).cycleTok eng)))
    let t := s.waitTiles eng (ks.filter (s.tileAbsent eng))
    match s.pickTile eng now with
    | some k => t.serveTile eng k
    | none => t) s)

-- Tiles: their phases and their end.

/-- The engine leaves its tile; it waits where another tile does (R234). -/
def State.idleEng (e : Nat) (s : State) : State := s.onEng e (fun x => { x with tile := none, phase := x.idlePhase })

/-- What a load phase is to bring again for a scratch line (R200): it is added to what the tile loads where an earlier tile brought it. -/
def Tile.reload (t : Tile) (line : Nat) : Option LineSrc → Tile
  | some (.palette g) => if t.loads.any (fun p => p.2 == line) then t else { t with loads := t.loads ++ [(g, line)] }
  | some (.state _ _ i) => if t.stateLoads.any (fun p => p.2 == line) then t else { t with stateLoads := t.stateLoads ++ [(i, line)] }
  | none => t

/-- LINE_CHECK_MISMATCH (R200, R231): the tile stops and runs again from its load phase, charged again; a second mismatch
on the line within the tick fences the engine; a tile whose work has been fenced is not run again. The source of the line is loaded again.
The cycles of the stopped run are not set against the second charge (log 86). -/
def State.lineCheck (e line : Nat) (t : Tile) (s : State) : State :=
  let again := (s.eng e).bad.contains line
  let t := t.reload line (((s.eng e).scratch.find? (fun p => p.1 == line)).bind (fun p => p.2.src))
  let s := s.onEng e (fun x => { x with check := satInc x.check, bad := if x.bad.contains line then x.bad else x.bad ++ [line] })
  if again then s.fenceEngine e
  else if t.dead then s.idleEng e
  else if (s.ctx t.ctx).cycleTok e < t.charge then
    let s := s.idleEng e
    if t.retouch then s
    else match s.optionalWork t.ctx t.loop with
      | some l => s.endLoop t.ctx l
      | none => s.handover t.ctx 1
  else (s.chargeCycles t.ctx e t.charge).onEng e (fun x => { x with
    retry := satInc x.retry, phase := 1, tile := some { t with computing := false, loaded := 0, tick := s.tick.count } })

/-- Lines of a layer's state object as the version read holds them (R215). -/
def Ctx.stateLine (x : Ctx) (layer i : Nat) : Line := lineOf (slice (look [] x.stateBuf layer) (64 * i) 64)

/-- The load phase brings its lines into scratch (R193, R195). -/
def State.loadLines (e : Nat) (t : Tile) (data : List Byte) (s : State) : State :=
  let new := ((List.range t.loads.length).zip t.loads).map (fun p => (p.2.2, scratchLine (some (.palette p.2.1)) (lineOf (slice data (64 * p.1) 64)))) ++
    t.stateLoads.map (fun p => (p.2, scratchLine (some (.state t.ctx t.layer p.1)) ((s.ctx t.ctx).stateLine t.layer p.1)))
  s.onEng e (fun x => { x with scratch := new.foldl (fun m p => putRaw p.1 p.2 m) x.scratch })

/-- Cycles of a load phase (R196): the turnaround, one for each 256 B, and what contention adds. -/
def Tile.loadCycles (t : Tile) (wait : Nat) : Nat := 64 + ceilDiv (t.loads.length + t.stateLoads.length) 4 + wait

/-- The engine has spent cycles in a load phase (R234). -/
def State.countLoad (e n : Nat) (s : State) : State := s.onEng e (fun x => { x with loadCyc := x.loadCyc + BitVec.ofNat 32 n })

/-- The compute phase of a tile begins after n load cycles; a share that its load phase has taken leaves the staging area once (R222). -/
def State.beginCompute (e n : Nat) (t : Tile) (s : State) : State :=
  (onlyIf (t.share && !t.subst && !t.retouch) (State.takeShare t.ctx t.layer e ((s.mapFor t.ctx t.work).ll t.layer).eset) s).onEng e
    (fun x => { x with phase := 2, tile := some { t with share := false, computing := true, loaded := t.loaded + n } })

/-- LOAD_PHASE_COMPLETE (R195, R196, R222): the lines stand in scratch with their checks, the cycles count, the share is taken, and the
compute phase begins; a tile that is to be discarded ends here (R70), a failed line check reruns it (R200), a Palette line that has to be
replaced or waited for is input that the engine lacks (R317). -/
def execLoadPhaseComplete (eng wait : Nat) (upset : Option (Nat × Line)) (s : State) : Host.Outcome State Fault Refusal :=
  .next (match (s.eng eng).tile with
    | none => s
    | some t => onlyIf (s.up && !t.computing) (fun s =>
        if t.dead then (s.countLoad eng (t.loadCycles wait)).idleEng eng
        else
          let d := s.readEach (0x50 + eng) t.ctx (t.loads.map (·.1))
          if d.2.1 then d.2.2.onEng eng (fun x => { x with phase := 3 })
          else
            let s := (d.2.2.loadLines eng t d.1).countLoad eng (t.loadCycles wait)
            let u := (s.eng eng).upset upset
            let s := s.onEng eng (fun _ => u.1)
            match u.2 with
            | some l => s.lineCheck eng l t
            | none => s.beginCompute eng (t.loadCycles wait) t) s)

/-- Charges the excess of a tile over its declared cost, down to zero tokens (R198); a tile of a tick that has ended runs on that tick's charge (R48,
R231). -/
def State.chargeExcess (e : Nat) (t : Tile) (ran : Nat) (s : State) : State :=
  let extra := t.loaded + ran - t.charge
  (onlyIf (t.tick == s.tick.count) (State.chargeCycles t.ctx e extra) s).onCtx t.ctx
    (fun x => { x with cnt := { x.cnt with linOver := satAdd x.cnt.linOver extra } })

/-- Every output of the tile has the parts that it takes (R207). -/
def State.partsHere (s : State) (t : Tile) (m : CMap) : Bool :=
  t.subst || t.outs.all (fun c => ((m.ll t.layer).partsOf m c).all (fun p => (s.rawAt t.ctx c.seq c.col p).isSome))

/-- A tile's engine writes bytes to Palette; what an optional loop step overwrites is kept (R219). -/
def State.tileWrite (e : Nat) (t : Tile) (addr : Nat) (bs : List Byte) (s : State) : State :=
  (s.saveLines t.ctx t.loop addr bs.length).writeSpan (0x50 + e) t.ctx addr bs

/-- Writes output codes to Palette, each where its output goes: codes of four bits that share a byte make it up together, the even column in
the low half (log 83). -/
def State.putCodes (e : Nat) (t : Tile) (bits : Nat) (os : List (TileCol × Nat)) (s : State) : State :=
  if bits = 4 then
    each (os.map (fun o => o.1.dst)).eraseDups (fun d s => s.tileWrite e t d
      (bytesOf 1 (sumN ((os.filter (fun o => o.1.dst == d)).map (fun o => o.2 % 16 * (if o.1.col % 2 = 0 then 1 else 16)))))) s
  else each os (fun o s => s.tileWrite e t o.1.dst (bytesOf (bits / 8) o.2)) s

/-- Bytes at an offset of a state object's new version. -/
def setBytes (old : List Byte) (off : Nat) (bs : List Byte) : List Byte :=
  slice old 0 off ++ bs ++ old.drop (off + bs.length)

/-- Outputs join the new version of their layer's state object (R215). -/
def Ctx.saveState (x : Ctx) (layer : Nat) (parts : List (Nat × List Byte)) : Ctx :=
  if parts.isEmpty then x
  else { x with stateNew := putRaw layer (parts.foldl (fun b p => setBytes b p.1 p.2) (look [] x.stateNew layer)) x.stateNew }

/-- Key of a Liner layer's status word: no register shows it (R112, R189) (log 87). -/
def linStat (layer : Nat) : Nat := 1024 + layer

/-- What a substitute's tile gives (R211): y′ to the Liner engine where OUT is RAW32 (R208), else codes in Palette. -/
def State.substResults (e : Nat) (t : Tile) (m : CMap) (s : State) : State :=
  let l := m.pl t.layer
  let rs := t.outs.map (fun c => (c, (s.eng e).substRaw m t.layer c))
  let s := onlyIf (rs.any (fun r => r.2.2)) (State.onCtx t.ctx (fun x => { x with
    stats := modify {} t.layer (fun z => { z with saturated := true }) x.stats })) s
  let s := s.onEng e (fun x => { x with outs := rs.map (fun r => BitVec.ofNat 32 (l.output r.1.col r.2.1)) })
  if l.out.toNat = 5 then
    each (tileShape t.outs).1 (fun q s =>
      s.sendRaw t.ctx t.work t.loop t.layer q t.pair ((rs.filter (fun r => r.1.seq == q)).map (fun r => (r.1.col, r.2.1)))) s
  else s.putCodes e t (match l.out.toNat with | 2 | 3 => 4 | 4 => 16 | _ => 8) (rs.map (fun r => (r.1, l.output r.1.col r.2.1)))

/-- What a Liner layer's columns give (R201, R206, R210, R215, R224). -/
def State.columnResults (e : Nat) (t : Tile) (m : CMap) (s : State) : State :=
  let l := m.ll t.layer
  let zs := t.outs.map (fun c => (c, s.column e t m l c))
  let cs := zs.map (fun z => (z.1, linCode t.out l.table z.2.1))
  let used := t.outs.flatMap (fun c => (l.partsOf m c).map (fun p => (p, c.seq, c.col)))
  let s := onlyIf (zs.any (fun z => z.2.2)) (State.onCtx t.ctx (fun x => { x with
    stats := modify {} (linStat t.layer) (fun z => { z with saturated := true }) x.stats })) s
  let s := s.onEng e (fun x => { x with outs := zs.map (fun z => z.2.1) })
  let s := onlyIf l.stateful (State.onCtx t.ctx (fun x => x.saveState t.layer (cs.filterMap (fun c =>
    c.1.save.map (fun o => (o, bytesOf (ceilDiv (linBits t.out) 8) c.2)))))) s
  (s.takeParts t.ctx used).putCodes e t (linBits t.out) cs

/-- Codes of a run of columns as they stand in memory, two of four bits to a byte. -/
def packLin (out : Nat) (cs : List Nat) : List Byte :=
  if linBits out = 4 then bytesOf (ceilDiv cs.length 2) (cs.foldr (fun c n => c % 16 + 16 * n) 0) else cs.flatMap (bytesOf (linBits out / 8))

/-- A query ends (R213): the codes of the engine's own columns of the head go to Palette, and into the state object where the layer has one
(R202, R215). -/
def State.endQuery (e : Nat) (t : Tile) (l : LLayer) (q : AttnQuery) (zs : List Word) (s : State) : State :=
  each (l.headBlocks e t.block.head) (fun i s =>
    let bs := packLin t.out (((zs.drop (64 * i)).take 64).map (linCode t.out l.table))
    let at_ := 64 * i * linBits t.out / 8
    let s := s.tileWrite e t (q.dst + at_) bs
    match (if l.stateful then q.save else none) with
    | some o => s.onCtx t.ctx (fun x => x.saveState t.layer [(o + at_, bs)])
    | none => s) s

/-- What the queries of an attention tile give (R213): each goes on to its next key block, or after its last ends with its outputs. -/
def State.queryResults (e : Nat) (t : Tile) (m : CMap) (s : State) : State :=
  let l := m.ll t.layer
  each t.queries (fun q s =>
    let a := (s.eng e).attend t.toTileCand l q
    let rest := (s.eng e).attn.filter (fun b => !(b.ctx == t.ctx && b.layer == t.layer && b.id == q.id))
    if endsQuery t.toTileCand l q then
      let zs := l.attnOut t.block.head a
      (s.onEng e (fun x => { x with attn := rest, outs := zs })).endQuery e t l q zs
    else s.onEng e (fun x => { x with attn := rest ++ [a] })) s

/-- The layer's work of a loop step is done with the tile: the step's output stands (R218, R219). -/
def State.stepEnds (t : Tile) (s : State) : State :=
  onlyIf (t.stepDone && decide (0 < t.loop)) (fun s =>
    (s.keepStep t.ctx (t.loop - 1)).onCtx t.ctx (fun x => { x with loopRun := modify 0 (t.loop - 1) (· + 1) x.loopRun })) s

/-- What a tile's results do: outputs, credits, counters, loop steps and state (R49, R140, R215, R218). -/
def State.tileResults (e : Nat) (t : Tile) (s : State) : State :=
  let m := s.mapFor t.ctx t.work
  let ll := m.ll t.layer
  let s := if t.subst then s.substResults e t m else if ll.kind = 4 then s.queryResults e t m else s.columnResults e t m
  (s.onCtx t.ctx (fun x => { x.spend m t.pair t.need with
    cnt := if t.subst then { x.cnt with subst := satAdd x.cnt.subst (min t.vecs (tileShape t.outs).1.length) } else x.cnt,
    stateOk := if t.layerDone && ll.stateful && !t.subst then putRaw t.layer true x.stateOk else x.stateOk })).stepEnds t

/-- TILE_END (R198): the compute phase reaches its boundary, `wait` ARITH cycles beyond R197; a failed line check reruns the tile (R200), an output
waits until every part of it is present (R207), the excess over the declared cost is charged, and the results stand unless the work has left
the engine (R61, R231). -/
def execTileEnd (eng wait : Nat) (upset : Option (Nat × Line)) (s : State) : Host.Outcome State Fault Refusal :=
  .next (match (s.eng eng).tile with
    | none => s
    | some t => onlyIf (s.up && t.computing) (fun s =>
        let m := s.mapFor t.ctx t.work
        let ran := m.tileCycles t.toTileCand + wait
        let u := (s.eng eng).upset upset
        let count (x : Engine) : Engine := { x with compCyc := x.compCyc + BitVec.ofNat 32 ran }
        match u.2 with
        | some l => (s.onEng eng (fun _ => count u.1)).lineCheck eng l t
        | none =>
          if !t.dead && !t.retouch && !s.partsHere t m then s.onEng eng (fun _ => { u.1 with phase := 3 })
          else
            let s := ((s.onEng eng (fun _ => count u.1)).chargeExcess eng t ran).idleEng eng
            onlyIf (!t.dead && !t.retouch) (State.tileResults eng t) s) s)

/-- The waits of a context for swatches on an engine are over. -/
def State.endWait (e c : Nat) (s : State) : State := s.onEng e (fun x => x.dropWaits (fun w => w.ctx == c && s.tileLate e w))

/-- SWWAIT_EXPIRY (R223): a tile has waited SWWAIT cycles for its swatches; swatches that arrive in that cycle count as arrived (R231), and the
tile may start; a REALTIME context hands over with cause SWATCH_LATE, a BESTEFFORT tile waits on. -/
def execSwwaitExpiry (eng ctx : Nat) (arrived : Bool) (s : State) : Host.Outcome State Fault Refusal :=
  .next (onlyIf (s.serving && (s.eng eng).waits.any (fun w => w.ctx == ctx && s.tileLate eng w)) (fun s =>
    if arrived then s.endWait eng ctx
    else if (s.ctx ctx).bind.realtime && !(s.ctx ctx).fence && (s.ctx ctx).handed == 0 && s.holds ctx then
      ((s.endWait eng ctx).onCtx ctx (fun x => { x with cnt := { x.cnt with linLate := satInc x.cnt.linLate } })).handover ctx 6
    else s) s)

-- Retouch (R227 to R229).

/-- What a Retouch step takes for one trained layer (R227): its base activations x and y′ by sample position, the targets in FP32, the scale of the
activations, and A and B of the Canvas in FP32, row after row. -/
structure RetouchData where
  layer : Nat
  a0 : List Word
  b0 : List Word
  xs : List (List Byte)
  high : List (List Int)
  targets : List (List Word)
  ascale : Half
deriving DecidableEq, Repr

/-- Codes of an FP32 list rounded to BF16. -/
def toBf16 (xs : List Word) : List Half := xs.map (fun w => BitVec.ofNat 16 (bf16.enc false (fp32.val w.toNat)))

/-- A dot product of FP32 lists, each term an exact product, summed in FP32. -/
def dotW (xs ys : List Word) : Word := dot32 ((xs.zip ys).map (fun p => (fp32.val p.1.toNat, fp32.val p.2.toNat)))

/-- The gradients of the mean squared error with respect to A and B of one layer (R227), row after row in FP32: the forward pass of R224 on BF16
values with FP32 sums, then back through B; samples in order (log 88). -/
def LLayer.gradient (l : LLayer) (a b : List Half) (inp : RetouchData) : List Word × List Word :=
  let av := rowsOf l.k (a.map (fun h => bf16.val h.toNat))
  let bv := rowsOf l.rank (b.map (fun h => bf16.val h.toNat))
  let n := inp.xs.length
  let factor := divF32 (BitVec.ofNat 32 (fp32.enc false (FVal.ofInt 2))) (BitVec.ofNat 32 (fp32.enc false (FVal.ofInt ((n * l.m : Nat) : Int))))
  let xs := inp.xs.map (fun x => x.map (fun b => l.scaled bf16 inp.ascale b.toNat))
  let us := xs.map (fun x => av.map (fun r => dot32 (r.zip x)))
  let dvs := (List.range n).map (fun i => (List.range l.m).map (fun j =>
    let r := l.cols.getD j {}
    let v := dot32 ((bv.getD j []).zip ((us.getD i []).map (fun w => fp32.val w.toNat)))
    let e := subF32 (l.lowRankZ ((inp.high.getD i []).getD j 0) v r) ((inp.targets.getD i []).getD j 0)
    mulF32 (fp32.val (mulF32 (fp32.val e.toNat) (fp32.val factor.toNat)).toNat) (fp16.val l.alpha.toNat)))
  let db := (List.range l.m).flatMap (fun j => (List.range l.rank).map (fun r =>
    dotW (dvs.map (fun d => d.getD j 0)) (us.map (fun u => u.getD r 0))))
  let dus := dvs.map (fun d => (List.range l.rank).map (fun r =>
    dot32 (((List.range l.m).map (fun j => ((bv.getD j []).getD r (.fin false 0 0), fp32.val (d.getD j 0).toNat))))))
  let da := (List.range l.rank).flatMap (fun r => (List.range l.k).map (fun k =>
    dot32 ((List.range n).map (fun i => (fp32.val ((dus.getD i []).getD r 0).toNat, (xs.getD i []).getD k (.fin false 0 0))))))
  (da, db)

/-- Stochastic gradient descent with momentum in FP32 (R227): the momentum becomes MOM × momentum + gradient, the weight loses LR × momentum. -/
def descend (lr : Word) (mom : Half) (ws ms gs : List Word) : List Word × List Word :=
  let m2 := (List.range ws.length).map (fun i => fma32 (fp32.val (ms.getD i 0).toNat) (fp16.val mom.toNat) (fp32.val (gs.getD i 0).toNat))
  ((ws.zip m2).map (fun p => fma32 (fp32.val lr.toNat).neg (fp32.val p.2.toNat) (fp32.val p.1.toNat)), m2)

/-- One step on one layer: the master copies begin as A and B of the Canvas (R227, R230); the new BF16 copies wait for the edge (R229). -/
def LowRank.step (w : LowRank) (l : LLayer) (r : RetouchRun) (inp : RetouchData) : LowRank :=
  let a := if w.a.isEmpty then inp.a0 else w.a
  let b := if w.b.isEmpty then inp.b0 else w.b
  let g := l.gradient (toBf16 a) (toBf16 b) inp
  let a2 := descend r.lr r.mom a w.ma g.1
  let b2 := descend r.lr r.mom b w.mb g.2
  { w with a := a2.1, b := b2.1, ma := a2.2, mb := b2.2, newA := toBf16 a2.1, newB := toBf16 b2.1 }

end Sys2Proof.Machine
end

