-- ==== Sys2Proof/Machine/WarpPixel.lean ====
section
/-! DEFINITION. The Warp unit (R236 to R245), payloads and conversions of the Pixel unit (R246 to R255) and its classical
paths (R257 to R259). -/

namespace Sys2Proof.Machine

-- Rounding and edges.

/-- floor((2n + d) / 2d): n / d to the nearest, ties up (R241). -/
def roundUp (n d : Int) : Int := (2 * n + d) / (2 * d)

/-- A rounded sample clamped to 0 to 65,535 (R242). -/
def sample16 (x : Int) : Half := BitVec.ofNat 16 (clampZ 0 65535 x).toNat

/-- The place along one axis that a tap takes under CLAMP or MIRROR (R243). -/
def edgeAt (mirror : Bool) (n : Nat) (i : Int) : Nat :=
  if mirror && decide (1 < n) then
    let q := (i % (2 * (n - 1 : Nat) : Int)).toNat
    if q < n then q else 2 * (n - 1) - q
  else (clampZ 0 ((n : Int) - 1) i).toNat

-- Formats.

/-- LAYOUT of a pixel format field (R513). -/
def fmtLayout (f : BitVec 12) : Nat := bits f.toNat 1 0
/-- Bits of one sample. -/
def fmtDepth (f : BitVec 12) : Nat := match bits f.toNat 3 2 with | 0 => 8 | 2 => 12 | _ => 10
/-- Chroma subsampling along the horizontal and the vertical axis. -/
def fmtSub (f : BitVec 12) : Bool × Bool := match bits f.toNat 5 4 with | 0 => (true, true) | 1 => (true, false) | _ => (false, false)
/-- Chroma sited midway along the horizontal and the vertical axis. -/
def fmtMid (f : BitVec 12) : Bool × Bool := (bit f.toNat 10, bit f.toNat 11)

/-- Size of plane k of a picture. -/
def planeSize (f : BitVec 12) (w h k : Nat) : Nat × Nat :=
  if k = 0 then (w, h)
  else (if (fmtSub f).1 then ceilDiv w 2 else w, if (fmtSub f).2 then ceilDiv h 2 else h)

/-- Samples of a picture (R246). -/
def pictureSamples (f : BitVec 12) (w h : Nat) : Nat :=
  let c := planeSize f w h 1
  w * h + 2 * (c.1 * c.2)

/-- The signals of a format (R246, R513). -/
def fmtSignal (f : BitVec 12) : Signal :=
  { colour := bits f.toNat 7 6, rgb := bit f.toNat 8, full := bit f.toNat 9, depth := fmtDepth f }

/-- Subsampling and siting of a format's chroma, axis by axis; siting counts where an axis is subsampled (R249, stages 1 and 8). -/
def fmtChroma (f : BitVec 12) : (Bool × Bool) × (Bool × Bool) :=
  (fmtSub f, ((fmtSub f).1 && (fmtMid f).1, (fmtSub f).2 && (fmtMid f).2))

/-- n samples of b bits from a bit stream, least significant bit first, missing bits zero, MSB-aligned (R236, R246). -/
def unpackBits (b : Nat) : Nat → Nat → List Half
  | 0, _ => []
  | n + 1, x => BitVec.ofNat 16 (x % 2 ^ b * 2 ^ (16 - b)) :: unpackBits b n (x / 2 ^ b)

/-- Depth reduced to b bits (R253). -/
def reduceDepth (b : Nat) (s : Half) : Nat := min (2 ^ b - 1) ((s.toNat + 2 ^ (15 - b)) / 2 ^ (16 - b))

/-- A bit stream of samples of b bits. -/
def packBits (b : Nat) (xs : List Nat) : List Byte :=
  bytesOf (ceilDiv (b * xs.length) 8) (xs.foldr (fun x a => x + 2 ^ b * a) 0)

/-- Element k, k + n, k + 2n, … of a list of m such elements. -/
def everyNth (xs : List Half) (k n m : Nat) : List Half := (List.range m).map (fun i => xs.getD (k + n * i) 0)

/-- The three planes of a picture's samples in payload order (R246). -/
def toPlanes (f : BitVec 12) (w h : Nat) (xs : List Half) : List Plane :=
  let c := planeSize f w h 1
  let n := w * h
  let m := c.1 * c.2
  match fmtLayout f with
  | 1 =>
    let uv := xs.drop n
    [{ w := w, h := h, px := xs.take n }, { w := c.1, h := c.2, px := everyNth uv 0 2 m },
      { w := c.1, h := c.2, px := everyNth uv 1 2 m }]
  | 2 => (List.range 3).map (fun k => { w := w, h := h, px := everyNth xs k 3 n })
  | _ => [{ w := w, h := h, px := xs.take n }, { w := c.1, h := c.2, px := (xs.drop n).take m },
      { w := c.1, h := c.2, px := (xs.drop (n + m)).take m }]

/-- The samples of planes in payload order. -/
def ofPlanes (f : BitVec 12) (ps : List Plane) : List Half :=
  let px (k : Nat) : List Half := (ps.getD k { w := 0, h := 0, px := [] }).px
  match fmtLayout f with
  | 1 => px 0 ++ ((px 1).zip (px 2)).flatMap (fun p => [p.1, p.2])
  | 2 => ((px 0).zip ((px 1).zip (px 2))).flatMap (fun p => [p.1, p.2.1, p.2.2])
  | _ => px 0 ++ px 1 ++ px 2 ++ (ps.drop 3).flatMap (·.px)

-- Chroma filters (R252).

/-- Element of a line, edges replicated. -/
def edgeGet (xs : List Int) (i : Int) : Int := xs.getD (edgeAt false xs.length i) 0

/-- A line down by 2, in units of 1/8. -/
def downLine (mid : Bool) (xs : List Int) : List Int :=
  (List.range (ceilDiv xs.length 2)).map (fun i =>
    let g (k : Int) := edgeGet xs (2 * (i : Int) + k)
    if mid then g (-1) + 3 * g 0 + 3 * g 1 + g 2 else 2 * (g (-1) + 2 * g 0 + g 1))

/-- A line up by 2 to n elements, in units of 1/32. -/
def upLine (mid : Bool) (n : Nat) (xs : List Int) : List Int :=
  (List.range n).map (fun i =>
    let g (k : Int) := edgeGet xs (((i / 2 : Nat) : Int) + k)
    match mid, i % 2 == 1 with
    | false, false => 32 * g 0
    | false, true => 2 * (-(g (-1)) + 9 * g 0 + 9 * g 1 - g 2)
    | true, true => -3 * g (-1) + 29 * g 0 + 9 * g 1 - 3 * g 2
    | true, false => -3 * g (-2) + 9 * g (-1) + 29 * g 0 - 3 * g 1)

/-- Rows of a plane. -/
def planeRows (p : Plane) : List (List Int) :=
  (List.range p.h).map (fun y => ((p.px.drop (y * p.w)).take p.w).map (fun x => (x.toNat : Int)))

/-- Columns of rows, n of them. -/
def columns (n : Nat) (rs : List (List Int)) : List (List Int) :=
  (List.range n).map (fun x => rs.map (fun r => r.getD x 0))

/-- A plane through a filter along each axis with a common total weight, rounded once with ties up, clamped (R252). -/
def planeFilter (p : Plane) (w h : Nat) (fx fy : List Int → List Int) (total : Int) : Plane :=
  let rs := columns h ((columns w ((planeRows p).map fx)).map fy)
  { w := w, h := h, px := rs.flatMap (fun r => r.map (fun x => sample16 ((2 * x + total) / (2 * total)))) }

/-- A chroma plane up to the size of the luma plane. -/
def planeUp (p : Plane) (f : BitVec 12) (w h : Nat) : Plane :=
  let sx := (fmtSub f).1
  let sy := (fmtSub f).2
  if !sx && !sy then p
  else planeFilter p w h (if sx then upLine (fmtMid f).1 w else id) (if sy then upLine (fmtMid f).2 h else id)
    ((if sx then 32 else 1) * (if sy then 32 else 1))

/-- A chroma plane of full size down to the subsampling of a format. -/
def planeDown (p : Plane) (f : BitVec 12) : Plane :=
  let sx := (fmtSub f).1
  let sy := (fmtSub f).2
  let c := planeSize f p.w p.h 1
  if !sx && !sy then p
  else planeFilter p c.1 c.2 (if sx then downLine (fmtMid f).1 else id) (if sy then downLine (fmtMid f).2 else id)
    ((if sx then 8 else 1) * (if sy then 8 else 1))

/-- Stages 1 to 7 of a conversion (R249): every stage whose source and target agree is passed over. -/
def convertUp (a b : BitVec 12) (tone : List Half) (ps : List Plane) : List Plane :=
  let same : Bool := bits a.toNat 9 6 == bits b.toNat 9 6
  match ps with
  | [y, u, v] =>
    if same && fmtChroma a == fmtChroma b then ps
    else
      let u := planeUp u a y.w y.h
      let v := planeUp v a y.w y.h
      if same then [y, u, v]
      else
        let px := (y.px.zip (u.px.zip v.px)).map (fun t => convPixel (fmtSignal a) (fmtSignal b) tone t.1 t.2.1 t.2.2)
        [{ y with px := px.map (·.1) }, { u with px := px.map (·.2.1) }, { v with px := px.map (·.2.2) }]
  | _ => ps

/-- Stage 8 of a conversion (R249): chroma planes of the luma plane's size come down to the subsampling of the target. -/
def chromaDown (b : BitVec 12) (ps : List Plane) : List Plane :=
  match ps with
  | [y, u, v] => if (u.w, u.h) = (y.w, y.h) ∧ (v.w, v.h) = (y.w, y.h) then [y, planeDown u b, planeDown v b] else ps
  | _ => ps

-- Planes in Palette (R236, R237).

/-- The bytes of samples. -/
def sampleBytes (px : List Half) : List Byte := px.flatMap (fun x => bytesOf 2 x.toNat)

/-- The samples of bytes. -/
def samplesOf (bs : List Byte) : List Half := (pieces 2 bs).map (fun b => BitVec.ofNat 16 (natOf b))

/-- Where a plane stands: its rows start on a 64-byte line (R236). -/
def planeBase (addr : Nat) : Nat := addr / 64 * 64

/-- Writes the rows of a plane for a unit of R21, from a 64-byte line on (R236); lines of the Warp unit's source cache that they replace are dropped (log 90). -/
def State.storePlane (unit c addr : Nat) (p : Plane) (s : State) : State :=
  let st := planeStride p.w
  let addr := planeBase addr
  let s := each (List.range p.h) (fun y s => s.writeSpan unit c (addr + y * st) (sampleBytes ((p.px.drop (y * p.w)).take p.w))) s
  s.onWp (fun w => { w with cache := w.cache.filter (fun l => !decide (addr / 64 ≤ l.1 ∧ l.1 < addr / 64 + p.h * (st / 64))) })

/-- Reads a plane for a unit; the flag tells that a line lacked its data. -/
def State.loadPlane (unit c : Nat) (r : PlaneRef) (s : State) : Plane × Bool × State :=
  let rows := (List.range r.h).foldl (fun (a : List Half × Bool × State) y =>
    let t := a.2.2.readSpan unit c (r.addr + y * planeStride r.w) (2 * r.w)
    (a.1 ++ samplesOf t.1, a.2.1 || t.2.1, t.2.2)) ([], false, s)
  ({ w := r.w, h := r.h, px := rows.1 }, rows.2)

/-- The slice whose pictures a task continues: a whole frame, or one slice of every frame. -/
def Task.picKey (t : Task) : Nat := if t.frameCmd then 64 else t.part

/-- Notes the planes of a task's picture, the last three of each slice (log 90); a picture rebuilt in its place counts once (R317). -/
def Ctx.notePic (x : Ctx) (t : Task) (ps : List PlaneRef) : Ctx :=
  let mine := x.pics.filter (fun p => p.2.1 == t.picKey && p != (t.frame, t.picKey, ps))
  { x with pics := ((t.frame, t.picKey, ps) :: mine).take 3 ++ x.pics.filter (fun p => p.2.1 != t.picKey) }

/-- The planes of frame N, N − 1 and older ones for a task: from the task's own picture, or where it has none, from the last. -/
def Ctx.pictures (x : Ctx) (t : Task) : List (List PlaneRef) :=
  let mine := x.pics.filter (fun p => p.2.1 == t.picKey)
  let own := mine.dropWhile (fun p => p.1 != t.frame)
  (if own.isEmpty then mine else own).map (·.2.2)

-- The Warp unit (R238 to R245).

/-- The sample that the source cache holds at a Palette byte address, where it holds the line (R238). -/
def WarpPix.sampleAt (w : WarpPix) (a : Nat) : Option Nat :=
  (w.cache.find? (fun l => l.1 == a / 64)).map (fun l => bits l.2.toNat (8 * (a % 64) + 15) (8 * (a % 64)))

/-- The Palette byte address of one tap of a source plane; none takes FILL (R243); EDGE 3 is CLAMP. -/
def tapAddr (p : PlaneRef) (j : WarpRec) (x y : Int) : Option Nat :=
  if (x < 0 ∨ y < 0 ∨ (p.w : Int) ≤ x ∨ (p.h : Int) ≤ y) ∧ j.edge = 2 then none
  else some (p.addr + edgeAt (j.edge == 1) p.h y * planeStride p.w + 2 * edgeAt (j.edge == 1) p.w x)

/-- A coefficient of the Catmull-Rom table, in 1/1,024: the exact value with the table's own rounding, and the second tap closing the axis
to 1,024 (R242; log 9). -/
def catmull (phase tap : Nat) : Int :=
  let f : Int := phase
  let c (k : Nat) (n : Int) : Int := n / 512 + (if n % 512 ≠ 0 ∧ Config.catmullUp phase k then 1 else 0)
  let c0 := c 0 (128 * f ^ 2 - 4096 * f - f ^ 3)
  let c2 := c 2 (4096 * f + 256 * f ^ 2 - 3 * f ^ 3)
  let c3 := c 3 (f ^ 3 - 64 * f ^ 2)
  match tap with | 0 => c0 | 1 => 1024 - c0 - c2 - c3 | 2 => c2 | _ => c3

/-- The taps of a gather at a position in 1/64 pixel, with their weights: 2 × 2 or 4 × 4 (R242). -/
def gatherTaps (p : PlaneRef) (j : WarpRec) (x y : Int) : List (Int × Option Nat) :=
  let n := if j.filter then 4 else 2
  let w (f : Int) (k : Nat) : Int := if j.filter then catmull f.toNat k else if k = 0 then 64 - f else f
  let first : Int := if j.filter then -1 else 0
  (List.range n).flatMap (fun b => (List.range n).map (fun a =>
    (w (x % 64) a * w (y % 64) b, tapAddr p j (x / 64 + first + a) (y / 64 + first + b))))

/-- The gathered sample: the exact sum rounded once and clamped (R242). -/
def WarpPix.gather (u : WarpPix) (j : WarpRec) (ts : List (Int × Option Nat)) : Half :=
  let sum := sumZ (ts.map (fun t => t.1 * ((match t.2 with | some a => (u.sampleAt a).getD 0 | none => j.fill.toNat : Nat) : Int)))
  let total : Int := if j.filter then 2 ^ 20 else 4096
  sample16 ((sum + total / 2) / total)

/-- Grid spacing s (R239). -/
def WarpRec.grid (j : WarpRec) : Nat := 2 ^ j.flowsub

/-- Bytes of a row of the flow grid, whose entries stand in words, each row from a 64-byte line on (R240; log 90). -/
def gridStride (j : WarpRec) (w : Nat) : Nat := 64 * ceilDiv (4 * (ceilDiv w j.grid + 1)) 64

/-- A place of the grid: the cell, and the way into it in half luma pixels. -/
structure GridAt where
  i : Nat
  k : Nat
  fx : Nat
  fy : Nat
deriving DecidableEq, Repr

/-- Place of a sample along one axis in half luma pixels: a co-sited chroma sample lies on the even pixel, one midway between two (R241,
R246). -/
def lumaAt (sub mid : Bool) (q : Nat) : Nat := if sub then 4 * q + (if mid then 1 else 0) else 2 * q

/-- The grid cell of a place in half luma pixels. -/
def WarpRec.cell (j : WarpRec) (x y : Nat) : GridAt :=
  { i := x / (2 * j.grid), k := y / (2 * j.grid), fx := x % (2 * j.grid), fy := y % (2 * j.grid) }

/-- Bilinear interpolation of a field of the four grid entries around a place, and its denominator (R241); g answers the entry right and below by
so much. -/
def flowMix (j : WarpRec) (c : GridAt) (g : Nat → Nat → Word) (f : Word → Int) : Int × Int :=
  let n : Int := 2 * j.grid
  ((n - c.fx) * (n - c.fy) * f (g 0 0) + c.fx * (n - c.fy) * f (g 1 0) + (n - c.fx) * c.fy * f (g 0 1) + c.fx * c.fy * f (g 1 1), n * n)

/-- DX of a grid entry (R240). -/
def flowDx (g : Word) : Int := signed 12 (bits g.toNat 31 20)
/-- DY of a grid entry. -/
def flowDy (g : Word) : Int := signed 12 (bits g.toNat 19 8)
/-- OCC of a grid entry. -/
def flowOcc (g : Word) : Int := ((bits g.toNat 7 0 : Nat) : Int)

/-- One component of v in 1/64 luma pixel (R241). -/
def flowV (j : WarpRec) (c : GridAt) (g : Nat → Nat → Word) (f : Word → Int) : Int :=
  let m := flowMix j c g f
  roundUp (8 * m.1) m.2

/-- A source position along one axis: q + k / 256 of v, of half of v where the plane is subsampled, in 1/64 pixel with ties up (R241). -/
def sourceAt (q : Nat) (v : Int) (sub : Bool) (k : Int) : Int := 64 * (q : Int) + roundUp (k * v) (if sub then 512 else 256)

/-- The gathers that one output sample takes (R241, R244): frame N, and for WARP2 frame N − 1 after it. -/
def warpGathers (cur prev : PlaneRef) (j : WarpRec) (subx suby : Bool) (x y : Nat) (c : GridAt) (g : Nat → Nat → Word) :
    List (List (Int × Option Nat)) :=
  let t : Int := j.phase
  let vx := flowV j c g flowDx
  let vy := flowV j c g flowDy
  let at_ (p : PlaneRef) (k : Int) : List (Int × Option Nat) := gatherTaps p j (sourceAt x vx subx k) (sourceAt y vy suby k)
  at_ cur (256 - t) :: (if j.mode then [at_ prev (-t)] else [])

/-- The output sample of its gathered samples, frame N and for WARP2 frame N − 1 after it (R244). -/
def warpSample (j : WarpRec) (c : GridAt) (g : Nat → Nat → Word) (ss : List Half) : Half :=
  let s1 := ss.getD 0 0
  if j.mode then
    let s0 := ss.getD 1 0
    let o := flowMix j c g flowOcc
    let occ := roundUp o.1 o.2
    let a : Int := if j.blend then occ + occ / 128 else 256 - j.phase
    sample16 ((a * s0.toNat + (256 - a) * s1.toNat + 128) / 256)
  else s1

/-- Palette lines of a gather's taps that the source cache lacks (R238). -/
def WarpPix.absent (u : WarpPix) (ts : List (Int × Option Nat)) : List Nat :=
  (ts.filterMap (fun t => match t.2 with | some a => if (u.sampleAt a).isNone then some (a / 64) else none | none => none)).eraseDups

/-- Gathers in order, up to the first whose lines are absent (R238). -/
def WarpPix.gathersOf (u : WarpPix) (j : WarpRec) : List (List (Int × Option Nat)) → List Half
  | [] => []
  | ts :: rest => if (u.absent ts).isEmpty then u.gather j ts :: u.gathersOf j rest else []

/-- The run of a job. -/
def WarpRun.isOf (r : WarpRun) (ctx : Nat) (work : Work) (i : WarpIn) : Bool := decide (r.ctx = ctx ∧ r.work = work ∧ r.inp = i)

/-- The run of a job in progress, or a new one. -/
def WarpPix.runOf (u : WarpPix) (ctx : Nat) (work : Work) (i : WarpIn) : WarpRun :=
  (u.jobs.find? (fun r => r.isOf ctx work i)).getD { ctx := ctx, work := work, inp := i }

/-- A job is in progress with so many of its gathers made, and waits for flow, for lines or for credit (R238, R245). -/
def State.warpWaits (r : WarpRun) (s : State) : State :=
  s.onWp (fun w => { w with jobs := w.jobs.filter (fun x => !x.isOf r.ctx r.work r.inp) ++ [r] })

/-- The rows of a job with its flow present: its gathers go on as far as their lines are in the source cache, and the rows are written once all are made
and the consumer has granted a credit for each (R238, R245). -/
def State.warpRows (r : WarpRun) (m : CMap) (j : WarpRec) (cur prev : PlaneRef) (sub mid : Bool × Bool) (outW k0 : Nat)
    (grid : List Byte) (s : State) : State :=
  let i := r.inp
  let word (c : GridAt) (a b : Nat) : Word := BitVec.ofNat 32 (fieldB grid ((c.k - k0 + b) * gridStride j i.w + 4 * (c.i + a)) 4)
  let cells := (List.range i.rows).flatMap (fun k => (List.range outW).map (fun x =>
    let y := i.row0 + k
    let c := j.cell (lumaAt sub.1 mid.1 x) (lumaAt sub.2 mid.2 y)
    (c, warpGathers cur prev j sub.1 sub.2 x y c (word c))))
  let all := cells.flatMap (·.2)
  let new := s.wp.gathersOf j (all.drop r.done.length)
  let done := r.done ++ new
  let s := s.onWp (fun w => { w with gathers := w.gathers + new.length })
  if done.length < all.length || !(s.ctx r.ctx).granted m i.pair i.rows then
    s.warpWaits { r with done := done, need := ((all[done.length]?).map s.wp.absent).getD [] }
  else
    let n := if j.mode then 2 else 1
    let px := ((List.range cells.length).zip cells).map (fun p => warpSample j p.2.1 (word p.2.1) ((done.drop (n * p.1)).take n))
    ((s.onCtx r.ctx (fun x => x.spend m i.pair i.rows)).onWp (fun w => { w with
      jobs := w.jobs.filter (fun x => !x.isOf r.ctx r.work r.inp) })).storePlane 4 r.ctx i.dst { w := outW, h := i.rows, px := px }

/-- WARP_JOB (R238 to R245): rows of one plane of a job, begun or gone on with. Frame N is the picture of the task that the job works for, frame N − 1 the one
before it; the grid is read from Palette, and a missing row of it is a lack of input. -/
def execWarpJob (ctx : Nat) (work : Work) (inp : WarpIn) (s : State) : Host.Outcome State Fault Refusal :=
  .next (match s.task work.owner work.frame work.part with
    | none => s
    | some t =>
      let m := s.mapFor ctx work
      let j := m.warp.getD inp.job {}
      let pics := (s.ctx t.ctx).pictures t
      let cur := pics.getD 0 []
      match cur[inp.plane]?, (if j.mode then (pics.getD 1 [])[inp.plane]? else cur[inp.plane]?), cur[0]? with
      | some p, some q, some luma =>
        let sub := (decide (p.w < luma.w), decide (p.h < luma.h))
        let outW := if sub.1 then ceilDiv inp.w 2 else inp.w
        let outH := if sub.2 then ceilDiv inp.h 2 else inp.h
        onlyIf (s.serving && s.wp.wReady && s.servable ctx && s.workOpen ctx work && !s.ownWaits ctx work && decide (inp.job < m.warp.length) &&
            decide (0 < inp.rows ∧ inp.row0 + inp.rows ≤ outH)) (fun s =>
          let mid := fmtMid t.ofmt
          let k0 := (j.cell 0 (lumaAt sub.2 mid.2 inp.row0)).k
          let k1 := (j.cell 0 (lumaAt sub.2 mid.2 (inp.row0 + inp.rows - 1))).k + 1
          let r := s.wp.runOf ctx work inp
          if inp.gridRows ≤ k1 then s.warpWaits r
          else
            let g := s.readSpan 4 ctx (inp.grid + k0 * gridStride j inp.w) ((k1 + 1 - k0) * gridStride j inp.w)
            if g.2.1 then g.2.2.warpWaits r else g.2.2.warpRows r m j p q sub mid outW k0 g.1) s
      | _, _, _ => s)

/-- The context of the job whose gather waits for a line. -/
def WarpPix.wants (u : WarpPix) (line : Nat) : Option Nat := (u.jobs.find? (fun r => r.need.contains line)).map (·.ctx)

/-- SOURCE_LINE_FILL (R238): a Palette line, bank × 8,192 + line, that a gather waits for arrives in the 256 KiB cache of 4,096 lines; the cycles lost
count. -/
def execSourceLineFill (line cycles : Nat) (s : State) : Host.Outcome State Fault Refusal :=
  .next (match s.wp.wants line with
    | none => s
    | some c => onlyIf (s.serving && s.wp.wReady && !s.wp.cache.any (fun l => l.1 == line)) (fun s =>
        let r := s.readEach 4 c [line]
        let s := r.2.2.onWp (fun w => { w with missCyc := w.missCyc + BitVec.ofNat 32 cycles })
        if r.2.1 then s
        else s.onWp (fun w => { w with cache := (if 4096 ≤ w.cache.length then w.cache.drop 1 else w.cache) ++ [(line, lineOf r.1)] })) s)

-- Unpack.

/-- The manifest declares tensors rather than pictures: it holds no PIXEL record (R513). -/
def CMap.tensors (m : CMap) : Bool := m.pixel.isEmpty

/-- Activations are signed where the first panel layer's inputs are (R85, R254). -/
def CMap.signedIn (m : CMap) : Bool := (m.pl 0).asigned

/-- One activation of channel c (R254). -/
def CMap.actOf (m : CMap) (c : Nat) (x : Half) : Byte :=
  let r := m.pixel.getD c {}
  let z := rneInt (fp32.val (fma32 (FVal.ofInt x.toNat) (fp16.val r.ascale.toNat) (fp16.val r.abias.toNat)).toNat)
  match z with
  | some z => BitVec.ofNat 8 (low 8 (if m.signedIn then clampZ (-128) 127 z else clampZ 0 255 z))
  | none => Config.nanCode (if m.signedIn then 1 else 0)

/-- What the length of a payload has to do with the length its format needs (R248): where it clamps, at which byte. -/
def payClamp (need got : Nat) : Option Nat :=
  if got < need then some got else if 64 * ceilDiv need 64 < got then some (need / 64 * 64) else none

/-- A payload unpacked as a picture (R236, R246 to R251, R254): its planes stand in Palette in the colour of OFMT, and its activations, channel after
channel. The unpack, its tone table and its clamp belong to the tick in which the header was taken (R260). -/
def State.unpackPicture (t : Task) (w h : Nat) (dst : List Nat) (acts : Nat) (s : State) : State :=
  let m := s.taskMap t.ctx t
  let n := pictureSamples t.ifmt w h
  let raw := unpackBits (fmtDepth t.ifmt) n (natOf t.payload)
  let ps := convertUp t.ifmt t.ofmt t.tone (toPlanes t.ifmt w h raw)
  let at_ := (List.range ps.length).zip ps
  let refs := at_.map (fun p => ({ addr := planeBase (dst.getD p.1 0), w := p.2.w, h := p.2.h } : PlaneRef))
  let bytes := at_.flatMap (fun p => p.2.px.map (m.actOf p.1))
  let again := !t.planes.isEmpty
  let s := each at_ (fun p s => s.storePlane 3 t.ctx (dst.getD p.1 0) p.2) s
  let s := ((s.writeSpan 3 t.ctx acts bytes).onTask t.cmd.seq (fun u => { u with
    unpacked := true, payload := t.payload, planes := refs, acts := some (acts, bytes.length) })).onCtx t.ctx (fun x => x.notePic t refs)
  if again then s else match payClamp (ceilDiv (n * fmtDepth t.ifmt) 8) t.payload.length with
  | none => s
  | some b => (s.clampIn t.taken t.ctx (hdrOp t.cmd.hdr) (0x8000 + b)).onCtx t.ctx (fun x => { x with cnt := { x.cnt with pixPay := satInc x.cnt.pixPay } })

/-- PAYLOAD_UNPACK (R248): a payload that has arrived becomes planes and activations in Palette, or tensors as they come (R513). A short one is
filled with zeros, bits beyond the need are ignored, and either counts in the clamp counter and in PIX_CTX_PAYCLAMP. -/
def execPayloadUnpack (ctx frame slice width height : Nat) (dst : List Nat) (acts : Nat) (s : State) : Host.Outcome State Fault Refusal :=
  .next (match s.task ctx frame slice with
    | none => s
    | some t0 =>
      let ps := s.easel.tasks.filter (fun u => u.partOf t0)
      let t := { t0 with payload := ps.flatMap (·.payload) ++ t0.payload }
      onlyIf (s.serving && s.wp.pReady && t.last && t.ready && ps.all (·.ready) && !t.unpacked) (fun s =>
        let s := s.endParts t
        if (s.taskMap t.ctx t).tensors then
          (s.writeSpan 3 ctx acts t.payload).onTask t.cmd.seq (fun u => { u with unpacked := true, acts := some (acts, t.payload.length) })
        else s.unpackPicture t width height dst acts) s)

-- Blocks out.

/-- The Mover ring queue of a ring's class (R473). -/
def classQueue (cls : Nat) : Nat := 3 - cls / 2
/-- The queue that serves a class: the lowest unfenced ring queue once the work of a fenced one has moved (R613). -/
def State.ringQueue (s : State) (cls : Nat) : Nat :=
  let q := classQueue cls
  if (s.queue q).moved then ((List.range 4).find? (fun x => !(s.queue x).fenced)).getD q else q

/-- A block packed waits for its post on the queue of the completion ring's class (R415, R473); a worker's leaves over
the fabric (R580). -/
def State.queueBlock (t : Task) (producer : Nat) (b : Block) (s : State) : State :=
  let s := s.onTask t.cmd.seq (fun u => { u with wait := u.wait ++ [b], packed := u.packed + 1 })
  match t.cmd.src with
  | .ring r =>
    let q := s.ringQueue (s.ring (s.ring r).cq).cls.toNat
    s.onQueue q (fun x => { x with jobs := x.jobs ++ [{
      kind := .post t.ctx t.frame t.part b.idx, len := 64 + 64 * (pieces 64 b.payload).length, ctx := producer,
      tick := t.tick }] })
  | _ =>
    let s := s.onTask t.cmd.seq (fun u => { u with posted := max u.posted (b.idx + 1) })
    match s.easel.tasks.find? (fun u => u.cmd.seq == t.cmd.seq) with
    | some u => s.deliverBlock u b
    | none => s

/-- An activation as a number: the output formats of R102 and R201 (0 U8, 1 S8, 2 U4, 3 S4, 4 FP16, 5 BF16, 6 E4M3, 7 E5M2, 8 FP32). -/
def actVal (out x : Nat) : FVal :=
  match out with
  | 1 => FVal.ofInt (signed 8 x)
  | 3 => FVal.ofInt (signed 4 x)
  | 4 => fp16.val x
  | 5 => bf16.val x
  | 6 => e4m3.val x
  | 7 => e5m2.val x
  | 8 => fp32.val x
  | _ => FVal.ofInt x

/-- n codes of b bits from bytes, the earlier in the low bits. -/
def codesOf (b : Nat) : Nat → Nat → List Nat
  | 0, _ => []
  | n + 1, x => x % 2 ^ b :: codesOf b n (x / 2 ^ b)

/-- An output sample of a channel (R255). -/
def CMap.sampleOf (m : CMap) (c : Nat) (a : FVal) : Half :=
  let r := m.pixel.getD c {}
  match rneInt (fp32.val (fma32 a (fp16.val r.oscale.toNat) (fp16.val r.obias.toNat)).toNat) with
  | some z => sample16 z
  | none => Config.nanSample

/-- The shuffle factor (R255, R538). -/
def CMap.shuffle (m : CMap) : Nat := match (m.warp.headD {}).shuf.toNat with | 1 => 2 | 2 => 4 | _ => 1

/-- Output planes of activation channels that cover some output lines (R255): with factor f, input channel c·f² + dy·f + dx becomes channel c
at offset (dx, dy). -/
def CMap.packPlanes (m : CMap) (lines : Nat) (acts : List (List FVal)) : List Plane :=
  let f := m.shuffle
  let ch := ((List.range acts.length).zip acts).map (fun p => p.2.map (m.sampleOf (p.1 / (f * f))))
  (List.range (acts.length / (f * f))).map (fun c =>
    let h := lines / f
    let w := (ch.getD (c * f * f) []).length / max 1 h
    { w := w * f, h := h * f, px := (List.range (h * f)).flatMap (fun y => (List.range (w * f)).map (fun x =>
        (ch.getD (c * f * f + y % f * f + x % f) []).getD (y / f * w + x / f) 0)) })

/-- The rows of a plane that belong to lines of a picture of so many lines. -/
def planeLines (p : Plane) (all line0 lines : Nat) : Plane :=
  let a := line0 * p.h / max 1 all
  let b := (line0 + lines) * p.h / max 1 all
  { w := p.w, h := b - a, px := (p.px.drop (a * p.w)).take ((b - a) * p.w) }

/-- The payload of a block in OFMT (R246, R253, R517). -/
def blockPayload (f : BitVec 12) (ps : List Plane) : List Byte :=
  packBits (fmtDepth f) ((ofPlanes f ps).map (reduceDepth (fmtDepth f)))

/-- Reads the activations of channels for the Pixel unit, n each of b bits. -/
def State.readActs (c b n : Nat) (addrs : List Nat) (s : State) : List (List Nat) × Bool × State :=
  addrs.foldl (fun (a : List (List Nat) × Bool × State) addr =>
    let r := a.2.2.readSpan 3 c addr (ceilDiv (n * b) 8)
    (a.1 ++ [codesOf b n (natOf r.1)], a.2.1 || r.2.1, r.2.2)) ([], false, s)

/-- The payload of a block made of activation channels that cover the block's lines with those before and after it (R249, R255, R517); tensors
leave as they are. -/
def CMap.packPayload (m : CMap) (f : BitVec 12) (out before lines after : Nat) (acts : List (List Nat)) : List Byte :=
  if m.tensors then acts.flatMap (fun a => bytesOf (ceilDiv (a.length * linBits out) 8) (a.foldr (fun x n => x + 2 ^ linBits out * n) 0))
  else
    let all := before + lines + after
    blockPayload f ((chromaDown f (m.packPlanes all (acts.map (fun a => a.map (actVal out))))).map (fun p => planeLines p all before lines))

/-- PACK (R255): the next block of a task, in the order of the lines (R517), from the activations of its lines in Palette; the producer is the
task's own context or the fallback context that holds it, whose blocks carry OK_FALLBACK and the cause (R63). -/
def execPack (ctx frame slice line0 lines before after out : Nat) (acts : List Nat) (count : Nat) (s : State) : Host.Outcome State Fault Refusal :=
  .next (match s.task ctx frame slice with
    | none => s
    | some t =>
      let p := match t.by_ with | some (.ctx d) => d | _ => t.ctx
      let w : Work := { owner := ctx, frame := frame, part := slice }
      onlyIf (s.serving && s.wp.pReady && t.unpacked && s.due t && t.workOf p && s.servable p && decide (t.packed < t.blocks ∧ t.line ≤ line0) &&
          !s.ownWaits p w) (fun s =>
        let m := s.mapFor p w
        let r := s.readActs p (linBits out) count acts
        if r.2.1 then r.2.2
        else (r.2.2.onTask t.cmd.seq (fun u => { u with line := line0 + lines })).queueBlock t p {
          idx := t.packed, line0 := line0, lines := lines, status := if t.by_.isNone then 0 else 1,
          cause := if t.by_.isNone then 0 else t.cause, payload := m.packPayload t.ofmt out before lines after r.1 }) s)

-- Classical paths (R257 to R259).

/-- T of a context (R239): PHASE of its first Warp job. -/
def CMap.phase (m : CMap) : Nat := match m.warp with | j :: _ => j.phase | [] => min 256 Config.noPhase

/-- π in 2⁻⁶⁴. -/
def fxPi : Int := 57952155664616982740

/-- sin of a value in 2⁻⁶⁴ by its series. -/
def fxSin (z : Int) : Int :=
  let f : Int := fxOne
  ((List.range 30).foldl (fun (a : Int × Int) i =>
    let n : Int := 2 * (i : Int) + 2
    let t := -(a.2 * z / f * z / f) / (n * (n + 1))
    (a.1 + t, t)) (z, z)).1

/-- The Lanczos-3 kernel, sinc(x) sinc(x / 3), at n / 64 but for a common factor, n ≠ 0. -/
def lanczosKernel (n : Int) : Int := fxSin (fxPi * n / 64) * fxSin (fxPi * n / 192) / (n * n)

/-- The kernel at a tap of a phase. -/
def lanczosAtTap (phase k : Nat) : Int := lanczosKernel (64 * (k : Int) - 128 - phase)

/-- A coefficient of the Lanczos-3 table, in 1/1,024: at phase 0 the third tap alone; else the kernel with its taps summing to one, with the table's own
rounding, and the third tap closes the axis to 1,024 (R257; log 9). -/
def lanczosTap (phase k : Nat) : Int :=
  let total := sumZ ((List.range 6).map (lanczosAtTap phase))
  let c (i : Nat) : Int := if phase = 0 then 0
    else 1024 * lanczosAtTap phase i / total + (if Config.lanczosUp phase i then 1 else 0)
  if k = 2 then 1024 - c 0 - c 1 - c 3 - c 4 - c 5 else c k

/-- Where sample x of a line scaled from n to m samples lies in its source, in 1/64 sample: its own place where the sizes agree, else within one
source sample of the proportional place (log 9). -/
def lanczosPlace (n m x : Nat) : Int :=
  let p : Int := ((64 * x * n / max 1 m : Nat) : Int)
  if n = m then 64 * x else clampZ (p - 64) (p + 64) (Config.lanczosAt n m x)

/-- One line through the Lanczos-3 filter, in 1/1,024; edges replicate. -/
def lanczosLine (m : Nat) (xs : List Int) : List Int :=
  (List.range m).map (fun x =>
    let p := lanczosPlace xs.length m x
    sumZ ((List.range 6).map (fun k => lanczosTap (p % 64).toNat k * edgeGet xs (p / 64 - 2 + k))))

/-- A plane scaled by the Lanczos-3 path, separable, rounded once (R257). -/
def planeLanczos (p : Plane) (w h : Nat) : Plane := planeFilter p w h (lanczosLine w) (lanczosLine h) (2 ^ 20)

/-- The ratio of the scaler lies in 1/8 to 8 on an axis (R257). -/
def ratioOk (n m : Nat) : Bool := decide (n ≤ 8 * m ∧ m ≤ 8 * n)

/-- Scaled where the sizes differ (R257). -/
def planeFit (p : Plane) (w h : Nat) : Plane := if p.w = w ∧ p.h = h then p else planeLanczos p w h

/-- One plane on a classical path, from frames N and N − 1 (R257). -/
def classPlane (path : Fallback) (t : Nat) (prev cur : Plane) (w h : Nat) : Plane :=
  match path with
  | .lanczos => planeLanczos cur w h
  | .blend => planeFit { cur with px := (prev.px.zip cur.px).map (fun p =>
      BitVec.ofNat 16 (((256 - t) * p.1.toNat + t * p.2.toNat + 128) / 256)) } w h
  | _ => planeFit (if t < 128 then prev else cur) w h

/-- A plane of a frame that the context has never had: no rule states its samples (log 90). -/
def absentPlane (k w h : Nat) : Plane :=
  { w := w, h := h, px := (List.range h).flatMap (fun y => (List.range w).map (fun x => Config.absentSample k x y)) }

/-- Plane k of a frame, read through the Warp unit's gather path (R237). -/
def State.classSource (c k : Nat) (ps : List PlaneRef) (size : Nat × Nat) (s : State) : Plane × Bool × State :=
  match ps[k]? with
  | some r => s.loadPlane 4 c r
  | none => (absentPlane k size.1 size.2, false, s)

/-- The planes of a block on a classical path: the frames' planes are read and scaled to the sizes given (R237, R257). -/
def State.classPlanes (c : Nat) (path : Fallback) (t : Nat) (pics : List (List PlaneRef)) (sizes : List (Nat × Nat)) (s : State) :
    List Plane × Bool × State :=
  ((List.range sizes.length).zip sizes).foldl (fun (a : List Plane × Bool × State) p =>
    let cur := a.2.2.classSource c p.1 (pics.getD 0 []) p.2
    let prev := cur.2.2.classSource c p.1 (pics.getD 1 []) (cur.1.w, cur.1.h)
    (a.1 ++ [classPlane path t prev.1 cur.1 p.2.1 p.2.2], a.2.1 || cur.2.1 || prev.2.1, prev.2.2)) ([], false, s)

/-- The scaler can make planes of these sizes from a picture (R257). -/
def ratiosOk (ps : List PlaneRef) (sizes : List (Nat × Nat)) : Bool :=
  (ps.zip sizes).all (fun p => ratioOk p.1.w p.2.1 && ratioOk p.1.h p.2.2)

/-- The lane's oldest work makes its next block (R258, R517); it leaves the lane with its last block. -/
def State.classBlock (j : ClassJob) (rest : List ClassJob) (t : Task) (line0 lines : Nat) (sizes : List (Nat × Nat)) (s : State) : State :=
  let m := s.taskMap t.ctx t
  let r := s.classPlanes t.ctx j.path m.phase ((s.ctx t.ctx).pictures t) sizes
  if r.2.1 then r.2.2
  else
    let ps := (chromaDown t.ofmt r.1).map (fun p => planeLines p (sizes.headD (0, 0)).2 line0 lines)
    let n := sumN (ps.map (fun p => p.px.length))
    let s := r.2.2.onWp (fun w => { w with
      lane := if t.blocks ≤ t.nextBlk + 1 then rest else w.lane
      classicGathers := w.classicGathers + n
      cntRepeat := if j.path = .frameRepeat then satInc w.cntRepeat else w.cntRepeat
      cntBlend := if j.path = .blend then satInc w.cntBlend else w.cntBlend
      cntLanczos := if j.path = .lanczos then satInc w.cntLanczos else w.cntLanczos })
    let s := (s.onCtx t.ctx (fun x => { x with cnt := { x.cnt with pixClassic := satInc x.cnt.pixClassic } })).onTask
      t.cmd.seq (fun u => { u with nextBlk := u.nextBlk + 1, line := line0 + lines })
    s.queueBlock t t.ctx {
      idx := t.nextBlk, line0 := line0, lines := lines, status := 1, cause := t.cause,
      payload := if m.tensors then ps.flatMap (fun p => p.px.map (fun x => BitVec.ofNat 8 x.toNat)) else blockPayload t.ofmt ps }

/-- CLASSICAL_BLOCK (R258): the lane's oldest work makes its next block; it holds no tokens (R66). -/
def execClassicalBlock (line0 lines : Nat) (sizes : List (Nat × Nat)) (s : State) : Host.Outcome State Fault Refusal :=
  .next (match s.wp.lane with
    | [] => s
    | j :: rest => onlyIf (s.serving && s.wp.pReady) (fun s =>
        match s.task j.ctx j.frame.toNat j.part with
        | none => s.onWp (fun w => { w with lane := rest })
        | some t => onlyIf (decide (t.line ≤ line0) && ratiosOk (((s.ctx t.ctx).pictures t).getD 0 []) sizes)
            (State.classBlock j rest t line0 lines sizes) s) s)

end Sys2Proof.Machine
end

