-- ==== Sys2Proof/Machine/Mover.lean ====
section
/-! DEFINITION. The Mover (R415 to R451): transfers, hand-overs, arms, cancels and mid-stream faults, and the entries of R592
that leave over the fabric. -/

namespace Sys2Proof.Machine

-- Block descriptors (R422, R423).

/-- Bits hi..lo of a block descriptor. -/
def blkBits (b : List Byte) (hi lo : Nat) : Nat := bits (fieldB b 0 32) hi lo
/-- Source space. -/
def blkSp (b : List Byte) : Nat := blkBits b 152 151
/-- Destination space. -/
def blkDp (b : List Byte) : Nat := blkBits b 154 153
/-- A hand-over point follows the block. -/
def blkHand (b : List Byte) : Bool := blkBits b 171 171 == 1
/-- A prefetch block. -/
def blkPref (b : List Byte) : Bool := blkBits b 172 172 == 1

/-- OUTMAX in effect: 0 as 1, above 64 as 64 (R451). -/
def QLimit.out (l : QLimit) : Nat := clampN 1 64 l.outmax.toNat

/-- CHAIN of a stream descriptor: 0 NONE, 1 FUSED, 2 SEMA; 3 as SEMA (R421). -/
def descChain (d : Line) : Nat := min 2 (hdrBits d 55 54)

/-- What remains of a block's transfer to the next cut of one side (R425): the 16 KiB boundary of its address, or a PORT's
entry size. -/
def cutAt (m : CMap) (sp addr off : Nat) (pair : Option Nat) : Nat :=
  if sp = 3 then
    match (pair.bind (fun p => m.buffers.find? (fun b => b.1 == p))).map (fun b => 64 * b.2.1) with
    | some e => if e = 0 then 16384 - off % 16384 else e - off % e
    | none => 16384 - off % 16384
  else if sp = 2 then 16384 - (64 * addr + off) % 16384
  else 16384 - (addr + off) % 16384

/-- The address off bytes into a block: bytes, Palette lines, or a PORT that stays (R423). -/
def stepAddr (sp addr off : Nat) : Nat := if sp = 3 then addr else if sp = 2 then addr + off / 64 else addr + off

/-- Source pair of a stream, if it has one. -/
def srcPair (d : Line) : Option Nat := if hdrBits d 44 44 = 1 then some (hdrBits d 43 36) else none
/-- Destination pair of a stream, if it has one. -/
def dstPair (d : Line) : Option Nat := if hdrBits d 53 53 = 1 then some (hdrBits d 52 45) else none

/-- Length of the next transfer of a run (R425). -/
def Run.piece (r : Run) (m : CMap) : Nat :=
  let b := r.blocks.getD r.blk []
  let n := min (blkBits b 150 128 - r.off) 16384
  min n (min (cutAt m (blkSp b) (blkBits b 63 0) r.off (srcPair r.desc)) (cutAt m (blkDp b) (blkBits b 127 64) r.off (dstPair r.desc)))

-- Semaphores (R431).

/-- Adds one to a semaphore; at 65,535 the value stands and SEM_SAT is set. -/
def State.semSignal (i : Nat) (s : State) : State :=
  s.onMover (fun m =>
    if look 0 m.sems i = BitVec.allOnes 16 then { m with semSat := true } else { m with sems := modify 0 i (· + 1) m.sems })
/-- Takes one from a semaphore above 0. -/
def State.semTake (i : Nat) (s : State) : State := s.onMover (fun m => { m with sems := modify 0 i (· - 1) m.sems })
/-- Value of a semaphore. -/
def State.sem (s : State) (i : Nat) : Nat := (look 0 s.mover.sems i).toNat

/-- MOV_SEM_SIG (R431): bit 9 adds one to the semaphore in bits 8:0. -/
def execMovSemSig (value : Word) (s : State) : Host.Outcome State Fault Refusal :=
  .next (onlyIf (s.up && value.getLsbD 9) (State.semSignal (bits value.toNat 8 0)) s)

/-- MOV_COMMIT (R713): the shadow of every queue is latched for the next edge. -/
def State.movCommit (s : State) : State :=
  s.onMover (fun m => { m with queues := m.queues.map (fun q => (q.1, { q.2 with latched := some q.2.shadow })) })

/-- MOV_COMMIT as its own row. -/
def execMovCommit (s : State) : Host.Outcome State Fault Refusal := .next (onlyIf s.reaches State.movCommit s)

-- Entries over the fabric (R592, R593).

/-- The GLAZE record of a channel (R538, R592). -/
def CMap.tensorOf (m : CMap) (p : Nat) : Option (Bool × Nat × Nat) :=
  if m.channels.contains p then m.glaze[m.channels.idxOf p]? else none

/-- How the entries of a channel are coded: TENSOR and ELEM, Retouch gradients always and with 16 bits, activations where GLZ is 1; none where they go
raw (R264, R265, R594). -/
def CMap.codedAs (m : CMap) (p : Nat) (gradient : Bool) : Option (Nat × Nat) :=
  match m.tensorOf p with
  | some g => if gradient then some (g.2.1, 2) else if g.1 then some (g.2.1, if g.2.2 = 3 then 0 else g.2.2) else none
  | none => if gradient then some (p, 2) else none

/-- The lane of a tensor on a link (R285): all its blocks use this one (DESIGN CHOICE, log 118). -/
def glzLane (tensor link : Nat) : Nat := (tensor + link) % 8

/-- PARAM of an ENTRY message (log 12): bit 31 ends the entry, bit 30 marks a Glaze record, bit 29 a Retouch gradient, bit 28 begins the entry, bits 19:0
number a record, which GLZ_ACK and GLZ_RESEND repeat. -/
def entryParam (last coded gradient first : Bool) (id : Nat) : Nat :=
  id % 2 ^ 20 + (if first then 2 ^ 28 else 0) + (if gradient then 2 ^ 29 else 0) + (if coded then 2 ^ 30 else 0) + (if last then 2 ^ 31 else 0)

/-- The Fabric unit takes FULL of a channel's pair for an entry that a context's stream delivered (R592): it goes out in ENTRY frames as it is, or through
Glaze where its tensor is coded (R264). -/
def State.sendEntry (c p : Nat) (data : List Byte) (s : State) : State :=
  let ch := look 0 s.fab.chans p
  let dst := bits ch.toNat 12 8
  if !ch.getLsbD 31 || s.fab.fenced || s.fab.mask.getLsbD dst then s
  else
    let s := s.semTake (2 * p)
    let gradient := Config.gradients c p
    match (if data.isEmpty then none else (s.workMap c).codedAs p gradient) with
    | none => s.weave dst 0x30 3 (entryParam true false false true 0) (bits ch.toNat 7 0) data
    | some (tensor, elem) => s.onGlaze (fun g => { g with
        jobs := g.jobs ++ [{
          lane := glzLane tensor (s.portTo dst), port := s.portTo dst, dst := dst, aux := bits ch.toNat 7 0, ctx := c, tensor := tensor, elem := elem
          gradient := gradient, data := data }] })

/-- The Fabric unit returns ENTRY_CREDIT for an entry released (R593), and the entry leaves its store. -/
def State.releaseEntry (p : Nat) (s : State) : State :=
  let ch := look 0 s.fab.chans p
  let s := s.onFab (fun f => { f with entries := match f.entries.find? (fun e => e.pair == p && e.whole) with
    | some e => f.entries.erase e
    | none => f.entries })
  onlyIf (ch.getLsbD 31) (State.weave (bits ch.toNat 12 8) 0x31 3 0 (bits ch.toNat 7 0) []) s

-- Data of a transfer.

/-- Bytes of a PORT source (R423): the store of received entries for the Fabric unit (R593), a send buffer's else. -/
def State.portBytes (unit pair off n : Nat) (s : State) : List Byte × State :=
  if unit = 9 then
    (slice (((s.fab.entries.find? (fun e => e.pair == pair && e.whole)).map (·.data)).getD []) off n, s)
  else ((List.range n).map (Config.sendByte unit s.freeCtr), s.onFreeCtr (· + 1))

/-- Reads host memory for a transfer in MRD frames (R457). -/
def State.readFor (q id addr n : Nat) (s : State) : State :=
  each (List.range (ceilDiv n 4096)) (fun k s => s.readHost (addr + 4096 * k) (min 4096 (n - 4096 * k)) (.mover q id (4096 * k))) s

-- Issue (R417 to R419, R425 to R430, R435).

/-- A transfer that a queue could issue: the context whose turn it takes, its length, the tokens it costs, those of a promotion that its read queues
(R366), the tick of its work, and the job where a ring queue holds it. -/
structure Offer where
  ctx : Nat
  len : Nat
  cost : Nat
  promo : Nat := 0
  tick : Word
  job : Option MovJob := none
deriving DecidableEq, Repr

/-- The task of a ring job. -/
def State.jobTask (s : State) (j : MovJob) : Option Task :=
  match j.kind with
  | .fetch c f p _ | .post c f p _ => s.task c f.toNat p
  | _ => none

/-- The task's command came over the fabric, its payload with it (R578). -/
def Task.far (t : Task) : Bool := match t.cmd.src with | .fabric _ => true | _ => false

/-- Host address of byte off of a task's payload (R469): its slots lie behind its header in the ring. -/
def State.payloadAddr (s : State) (t : Task) (off : Nat) : Nat :=
  match t.cmd.src with
  | .ring r => let g := s.ring r; g.addr (t.cmd.head + 2 * g.size - hdrSlots t.cmd.hdr + off / 64) + off % 64
  | _ => 0

/-- Length of the next transfer of a ring job (R425): a payload read is cut at the 16 KiB boundaries of its source and where the ring wraps. -/
def State.jobPiece (s : State) (t : Task) (j : MovJob) : Nat :=
  match j.kind, t.cmd.src with
  | .fetch _ _ _ off, .ring r =>
    let a := s.payloadAddr t off
    let g := s.ring r
    min j.len (min (16384 - a % 16384) (g.base + 64 * g.size - a))
  | _, _ => min 16384 j.len

/-- A ring job can issue now: its context is served or the path holds no tokens (R66); posts begin in block order (R62), and one has room
(R472). Payload of a context held by poison waits (R370), and so does that of a context to which an overrun has passed (R65). -/
def State.jobOffer (s : State) (j : MovJob) : Option Offer :=
  match s.jobTask j with
  | none => none
  | some t =>
    let x := s.ctx j.ctx
    let n := s.jobPiece t j
    let free := match t.by_ with | some p => p.classical | none => false
    let lives := x.st == .bound && x.bindLive && !x.fence
    match j.kind with
    | .post _ _ _ b =>
      let r := match t.cmd.src with | .ring r => (s.ring r).cq | _ => 0
      let w := ((t.wait.find? (fun w => w.idx == b)).map (fun w => 1 + (pieces 64 w.payload).length)).getD 1
      if (free || lives) && (decide (b < t.posted) || (b == t.posted && s.canPost r w)) then
        some { ctx := j.ctx, len := n, cost := if free then 0 else n, tick := j.tick, job := some j }
      else none
    | _ =>
      let w : Work := { owner := t.ctx, frame := t.frame.toNat, part := t.part }
      if lives && (s.linkUp || t.far) && !s.poisonHeld j.ctx && !s.ownWaits j.ctx w then
        some { ctx := j.ctx, len := n, cost := n, tick := j.tick, job := some j }
      else none

/-- The parties of a hop let a run begin its next entry (R429, R430). -/
def State.hopReady (s : State) (r : Run) : Bool :=
  if r.took then true
  else match descChain r.desc with
    | 2 => ((srcPair r.desc).map (fun p => decide (0 < s.sem (2 * p)))).getD true &&
        ((dstPair r.desc).map (fun p => decide (0 < s.sem (2 * p + 1)))).getD true
    | 1 => ((dstPair r.desc).map (fun p => ((s.workMap r.ctx).entries p).isNone || decide (0 < (s.ctx r.ctx).credits p))).getD true
    | _ => true

/-- The streamed layer whose weights the block's source holds, if any (R221, R556). -/
def State.blockLayer (s : State) (c : Nat) (b : List Byte) (off : Nat) : Option Nat :=
  if blkSp b = 0 then (s.curMap c).streamAtAddr (galObj (blkBits b 63 0 + off)) (galOff (blkBits b 63 0 + off)) else none

/-- A fetch of streamed weights has a staging area (R221). -/
def State.stageReady (s : State) (r : Run) : Bool :=
  match s.blockLayer r.ctx (r.blocks.getD r.blk []) r.off with
  | some l => blkPref (r.blocks.getD r.blk []) || s.stageFree r.ctx l
  | none => true

/-- Lines of a slot, or of a bank that a block names, that n bytes from a place lie in. -/
def spanLines (bank first off n : Nat) : List Nat :=
  (List.range (ceilDiv (off % 64 + n) 64)).map (fun i => 8192 * bank + (first + off / 64 + i) % 8192)

/-- The Palette lines that a run's next n bytes are read from, and the unit that reads them: a bank's, or those of an own slot (R347, R357, R423). -/
def State.runLines (s : State) (r : Run) (n : Nat) : Nat × List Nat :=
  let b := r.blocks.getD r.blk []
  let src := stepAddr (blkSp b) (blkBits b 63 0) r.off
  let ofSlot (e : Entry) : Nat × List Nat := (6, if e.t2 then [] else spanLines e.bank (256 * e.slot) (galOff src % 16384) n)
  match blkSp b with
  | 2 => (blkBits b 162 155, spanLines (bits src 20 13) (bits src 12 0) 0 n)
  | 0 => match s.sw.copy (galObj src) (galOff src / 16384), s.sw.homeEntry (galObj src) (galOff src / 16384) with
    | some (_, e), _ => if e.st = SwState.resident ∨ e.st = SwState.evicting then ofSlot e else (6, [])
    | none, some (_, e) => ofSlot e
    | none, none => (6, [])
  | _ => (6, [])

/-- A unit lacks one of the lines: an access to it waits (R306, R309), or it is to be replaced (R317). -/
def State.linesLack (s : State) (unit : Nat) (gs : List Nat) : Bool :=
  gs.any (fun g => s.lineHeld unit g || (s.bank (g / 8192 % 256)).lost.contains (g % 8192))

/-- Byte tokens of the promotion that a run's next read would queue (R366). -/
def State.runPromo (s : State) (r : Run) : Nat :=
  let b := r.blocks.getD r.blk []
  let o := galObj (blkBits b 63 0 + r.off)
  let i := galOff (blkBits b 63 0 + r.off) / 16384
  if blkSp b != 0 || blkPref b then 0
  else match (s.obj o).bind Obj.copyTier, s.sw.copy o i with
    | some t2, none => if (s.newEntry o i t2 true).1.isSome then s.promoCost o i r.ctx else 0
    | _, _ => 0

/-- A stream's next transfer can issue now: what it reads from the Palette is there (R51), and its context is not held by poison (R370). -/
def State.runOffer (s : State) (r : Run) : Option Offer :=
  let x := s.ctx r.ctx
  let b := r.blocks.getD r.blk []
  let host := blkSp b == 1 || blkDp b == 1
  if decide (r.blk < r.blocks.length) && x.st == .bound && x.bindLive && !x.fence && s.hopReady r && (!host || s.linkUp) && s.stageReady r &&
      !s.poisonHeld r.ctx then
    if blkPref b then some { ctx := r.ctx, len := 0, cost := 0, tick := s.tick.count }
    else
      let n := r.piece (s.workMap r.ctx)
      let ls := s.runLines r n
      if s.linesLack ls.1 ls.2 then none else some { ctx := r.ctx, len := n, cost := n, promo := s.runPromo r, tick := s.tick.count }
  else none

/-- The bucket of a rate-limited queue holds a length (R419). -/
def Queue.bucketOk (q : Queue) (n : Nat) : Bool := q.eff.rate == 0 || decide (12 * n ≤ q.bucket)

/-- What a queue offers at an issue turn, its outstanding limit, bucket and credits allowing it (R418, R419). -/
def State.offers (s : State) (n : Nat) : List Offer :=
  let q := s.queue n
  if q.fenced || q.cancelling || decide (q.eff.out ≤ q.out.length) then []
  else
    let os := q.jobs.filterMap s.jobOffer ++ (q.run.bind s.runOffer).toList
    os.filter (fun o => q.bucketOk o.len)

/-- A context that lacks tokens hands over by this (R59): REALTIME, not handed over yet, not fenced, with work. -/
def State.canHand (s : State) (c : Nat) : Bool :=
  let x := s.ctx c
  x.bind.realtime && x.handed == 0 && !x.fence && s.holds c

/-- The tokens cover an offer, or its context runs out of them by it (R43, R59, R219); a BESTEFFORT context, work of a later tick, and what has
handed over already, wait for the reload. -/
def State.offerStands (s : State) (o : Offer) : Bool :=
  decide (o.cost + o.promo ≤ (s.ctx o.ctx).tok.bytes) || (o.tick != s.tick.count + 1 && s.canHand o.ctx)

/-- The context whose turn it is among all context queues (R44, R417). -/
def State.moverTurn (s : State) : Option Nat :=
  let os := (s.mover.queues.filter (fun q => decide (q.1 < 4 ∨ 8 ≤ q.1))).flatMap (fun q => (s.offers q.1).filter s.offerStands)
  let real := (os.filter (fun o => (s.ctx o.ctx).bind.realtime)).map (·.ctx)
  let best := (os.filter (fun o => !(s.ctx o.ctx).bind.realtime)).map (·.ctx)
  chooseCtx real best s.mover.rrReal s.mover.rrBest

/-- Takes the next identity of a transfer. -/
def State.nextXfer (q : Nat) (f : Nat → Xfer) (s : State) : State :=
  (s.onQueue q (fun x => { x with out := x.out ++ [f s.mover.nextId] })).onMover (fun m => { m with nextId := m.nextId + 1 })

/-- A ring queue issues a transfer of a job: a payload read, or part of a completion's write. -/
def State.issueJob (q : Nat) (j : MovJob) (n : Nat) (s : State) : State :=
  let rest := j.len - n
  let s := s.onQueue q (fun x => { x with jobs := x.jobs.flatMap (fun k =>
    if k = j then (if rest = 0 then [] else [{ k with
      len := rest, kind := match k.kind with | .fetch c f p o => .fetch c f p (o + n) | kd => kd }]) else [k]) })
  match s.jobTask j with
  | none => s
  | some t =>
    match j.kind with
    | .fetch c f p off =>
      let id := s.mover.nextId
      let s := s.nextXfer q (fun id => { id := id, kind := .fetch c f p off, len := n, ctx := j.ctx, tick := j.tick, gen := 0 })
      if t.far then s.xferGot q id 0 (slice t.payload off n) else s.readFor q id (s.payloadAddr t off) n
    | .post c f p b =>
      let s := s.onQueue q (fun x => if b < t.posted then x else { x with gen := x.gen + 1 })
      let s := s.onTask t.cmd.seq (fun u => { u with posted := max u.posted (b + 1), gen := (s.queue q).gen })
      let s := if rest = 0 then
          match s.task c f.toNat p with
          | some u => match u.wait.find? (fun w => w.idx == b) with | some w => s.deliverBlock u w | none => s
          | none => s
        else s
      s.nextXfer q (fun id => {
        id := id, kind := .post c f p b, len := n, ctx := j.ctx, tick := j.tick, gen := (s.queue q).gen
        upto := if rest = 0 then some (s.link.seqs.txNext - 1) else none })
    | _ => s

/-- The run takes the semaphores or the credit of its next entry (R429, R430). -/
def State.takeHop (r : Run) (s : State) : State :=
  if r.took then s
  else match descChain r.desc with
    | 2 =>
      let s := match srcPair r.desc with | some p => s.semTake (2 * p) | none => s
      match dstPair r.desc with | some p => s.semTake (2 * p + 1) | none => s
    | 1 => match dstPair r.desc with
      | some p => s.onCtx r.ctx (fun x => { x with
          credit := if ((s.workMap r.ctx).entries p).isSome then modify 0 p (· - 1) x.credit else x.credit })
      | none => s
    | _ => s

/-- The block and byte that follow n bytes; the semaphores of the next entry are due after a hand-over point. -/
def Run.advance (r : Run) (n : Nat) : Run :=
  let b := r.blocks.getD r.blk []
  if blkBits b 150 128 ≤ r.off + n then { r with blk := r.blk + 1, off := 0, took := !blkHand b }
  else { r with off := r.off + n, took := true }

/-- A stream queue issues a prefetch request (R435). -/
def State.issuePref (q : Nat) (r : Run) (s : State) : State :=
  let b := r.blocks.getD r.blk []
  let a := blkBits b 63 0 + r.off
  let o := galObj a
  let i := galOff a / 16384
  let s := if i < s.objSize o then (s.placePromote o i .prefetch).2 else s
  (s.nextXfer q (fun id => { id := id, kind := .pref o i, len := 0, ctx := r.ctx, tick := s.tick.count, gen := r.gen })).onQueue q
    (fun x => { x with run := some (r.advance (16384 - a % 16384)) })

/-- The data of a stream's transfer that has been issued come from a place of the Gallery (R347, R360): from a slot at hand, from a slot in another
stack, or, once they arrive, from a fill or a read of the home tier. Answers whether they are to be had at all; where a line fails twice they are not
(R317), and the transfer is not issued. -/
def State.galleryFor (q id : Nat) (r : Run) (src n : Nat) (issue : State → State) (s : State) : Bool × State :=
  let o := galObj src
  let i := galOff src / 16384
  let hit := s.freeBit
  let f := hit.2.lookup 2 r.ctx o i true hit.1
  match f.1 with
  | .unmapped => (true, (each (List.range (n / 64)) (fun _ s => s.unmapped) (issue f.2)).xferGot q id 0 (slice [] 0 n))
  | .gone => (false, f.2)
  | .wait _ => (true, issue f.2)
  | .home => (true, (issue f.2).readDirect o i [])
  | .slot k => match f.2.sw.entry k with
    | none => (false, f.2)
    | some e =>
      if e.t2 then (true, (issue f.2).askWhole k)
      else
        let d := f.2.readEach 6 r.ctx (spanLines e.bank (256 * e.slot) (galOff src % 16384) n)
        if d.2.1 then (false, d.2.2) else (true, (issue d.2.2).xferGot q id 0 (slice d.1 (src % 64) n))

/-- A stream queue issues a data transfer (R426); one whose source is not to be had is not issued. -/
def State.issueData (q : Nat) (r : Run) (n : Nat) (s : State) : Bool × State :=
  let b := r.blocks.getD r.blk []
  let src := stepAddr (blkSp b) (blkBits b 63 0) r.off
  let dst := stepAddr (blkDp b) (blkBits b 127 64) r.off
  let id := s.mover.nextId
  let issue (s : State) : State := (s.nextXfer q (fun id => {
    id := id, kind := .stream (BitVec.ofNat 64 src) (BitVec.ofNat 64 dst) (blkSp b) (blkDp b) (blkBits b 162 155) (blkBits b 170 163) r.blk
    len := n, ctx := r.ctx, tick := s.tick.count, gen := r.gen })).onQueue q (fun x => { x with run := some (r.advance n) })
  match blkSp b with
  | 0 => s.galleryFor q id r src n issue
  | 1 => (true, (issue s).readFor q id src n)
  | 2 =>
    let d := s.readEach (blkBits b 162 155) r.ctx (spanLines (bits src 20 13) (bits src 12 0) 0 n)
    if d.2.1 then (false, d.2.2) else (true, (issue d.2.2).xferGot q id 0 (slice d.1 0 n))
  | _ =>
    let d := (issue s).portBytes (src % 256) ((srcPair r.desc).getD 0) r.off n
    (true, d.2.xferGot q id 0 d.1)

/-- Charges a transfer and notes whose turn was taken (R43, R44, R419). -/
def State.chargeXfer (q : Nat) (o : Offer) (s : State) : State :=
  let s := s.onCtx o.ctx (fun x => { x with tok := { x.tok with bytes := x.tok.bytes - o.cost } })
  let s := s.onQueue q (fun x => { x with bucket := if x.eff.rate = 0 then x.bucket else x.bucket - 12 * o.len })
  s.onMover (fun m =>
    if (s.ctx o.ctx).bind.realtime then { m with rrReal := o.ctx } else { m with rrBest := o.ctx })

/-- Issues what a queue offers for a context; where its tokens are short, a stream in an optional loop step ends the loop (R219), and else the
context hands over (R59). -/
def State.issueOffer (q : Nat) (o : Offer) (s : State) : State :=
  if (s.ctx o.ctx).tok.bytes < o.cost + o.promo then
    match (if o.job.isNone then s.optionalLoop o.ctx else none) with
    | some l => s.endLoop o.ctx l
    | none => s.handover o.ctx 1
  else match o.job with
    | some j => (s.chargeXfer q o).issueJob q j o.len
    | none => match (s.queue q).run with
      | none => s
      | some r =>
        if blkPref (r.blocks.getD r.blk []) then ((s.takeHop r).chargeXfer q o).issuePref q r
        else
          let d := s.issueData q r o.len
          if d.1 then
            let s := (d.2.takeHop r).chargeXfer q o
            match s.blockLayer r.ctx (r.blocks.getD r.blk []) r.off with | some l => s.stageAsk r.ctx l o.len | none => s
          else d.2

/-- TRANSFER_ISSUE (R417): an issue turn of a queue, `cycles` HLP cycles after its last (the bucket gains 5r/12 bytes in each,
R419). A context queue issues in its context's turn; the command queues hold no transfers of their own here, since a command's
row brings its payload. -/
def execTransferIssue (queue cycles : Nat) (s : State) : Host.Outcome State Fault Refusal :=
  .next (onlyIf (s.serving && s.mover.ready && !s.mover.fenced && decide (queue < 64)) (fun s =>
    let s := s.onQueue queue (fun x => { x with bucket := min 196608 (x.bucket + 5 * x.eff.rate.toNat * cycles) })
    if 512 ≤ sumN (s.mover.queues.map (fun q => q.2.out.length)) then s
    else match s.moverTurn with
      | none => s
      | some c => match ((s.offers queue).filter s.offerStands).find? (fun o => o.ctx == c) with
        | some o => s.issueOffer queue o
        | none => s) s)

-- Runs (R440 to R443).

/-- The pair of a queue passes the check of R420. -/
def State.pairOk (s : State) (q : Nat) : Bool :=
  let x := s.queue q
  let n := 2 ^ x.log2.toNat
  (s.bank x.bank.toNat).ownedBy 2 && decide (4 ≤ x.log2.toNat ∧ x.log2.toNat ≤ 10) && x.line.toNat % n == 0 &&
    decide (x.line.toNat + n ≤ 8192)

/-- Checks the pair before a descriptor fetch: the last one that passed serves where it fails (R420). -/
def State.checkPair (q : Nat) (s : State) : State :=
  if s.pairOk q then s.onQueue q (fun x => { x with stale := false, good := some (x.bank.toNat, x.line.toNat, x.log2.toNat) })
  else (s.onQueue q (fun x => { x with stale := true })).onMover (fun m => { m with pairStale := true })

/-- A mid-stream fault (R445 to R448) of a queue, of its context, and of the task to which it belongs: the task ends, or the current run where
it has none; a fence holds, and a handover of that tick that arose first decides. -/
def State.midFault (q c : Nat) (tick : Word) (t : Option Task) (cause : Nat) (s : State) : State :=
  let x := s.ctx c
  if x.fence || (x.handed != 0 && tick == s.tick.count) then s
  else
    let s := match t with
      | some t => s.faultTask t
      | none => (s.cancelQueue q).countCancel c
    s.streamFault c cause

/-- The outstanding task of a context in a tick, to which its streams belong (R445). -/
def State.streamTask (s : State) (c : Nat) (tick : Word) : Option Task := (s.tasksOf c).find? (fun t => t.unposted && t.tick == tick)

/-- A descriptor line or a line of a block list fails twice (R444). -/
def State.listFault (q c : Nat) (s : State) : State := s.midFault q c s.tick.count (s.streamTask c s.tick.count) 2

/-- Fetches a descriptor and writes GEN, one up, back (R420, R421, R440): the descriptor with its GEN, or none where a read
failed twice. -/
def State.fetchDesc (q desc : Nat) (s : State) : Option (Nat × Line) × State :=
  let s := s.checkPair q
  match (s.queue q).good with
  | none => (none, s)
  | some (bank, line, log2) =>
    let i := desc % 2 ^ log2
    let r := s.readLines 2 (((s.queue q).owner).getD 0) bank (line + i) 1
    let s := r.2.2
    if r.2.1 then (none, s.listFault q (((s.queue q).owner).getD 0))
    else
      let g := look 0 (s.queue q).gens i + 1
      let d := lineOf r.1
      let d : Line := BitVec.ofNat 512 (d.toNat - hdrBits d 81 74 * 2 ^ 74 + g.toNat * 2 ^ 74)
      (some (i, d), (s.onQueue q (fun x => { x with gens := putRaw i g x.gens })).writeLines 2 (((s.queue q).owner).getD 0) bank (line + i) (lineBytes d))

/-- Starts a run (R440): its block list is read; a line of it that fails twice is a mid-stream fault (R444). -/
def State.startRun (q i : Nat) (d : Line) (s : State) : State :=
  let ctx := if q < 8 then ((s.queue q).owner).getD 0 else hdrBits d 73 64
  let n := min (hdrBits d 35 21) (2 * (8192 - hdrBits d 20 8))
  let r := s.readLines 2 ctx (hdrBits d 7 0) (hdrBits d 20 8) (ceilDiv n 2)
  if r.2.1 then r.2.2.listFault q ctx
  else
    let g := look 0 (s.queue q).gens i
    r.2.2.onQueue q (fun x => { x with
      gen := g, head := BitVec.ofNat 10 i, surplus := if i = 0 then (List.range x.extra).map (· + 1) else x.surplus,
      run := if n = 0 then none else some { desc := d, idx := i, gen := g, ctx := ctx, blocks := (pieces 32 r.1).take n } })

/-- Arms a descriptor (R440 to R442): an idle queue starts a run, another latches the arm in its slot. -/
def State.armQueue (q desc : Nat) (s : State) : State :=
  if (s.queue q).fenced then s
  else
    let f := s.fetchDesc q desc
    match f.1 with
    | none => f.2
    | some (i, d) =>
      let s := f.2
      let x := s.queue q
      if x.run.isNone && !x.cancelling && x.surplus.isEmpty then s.startRun q i d
      else s.onQueue q (fun x => { x with
        slot := some (i, d), rearms := satInc x.rearms, lost := if x.slot.isSome then satInc x.lost else x.lost })

/-- ARM (R440): a MOV_Q_ARM write. -/
def execArm (queue desc : Nat) (s : State) : Host.Outcome State Fault Refusal :=
  .next (onlyIf (s.serving && s.mover.ready && !s.mover.fenced && decide (queue < 64)) (State.armQueue queue (desc % 1024)) s)

/-- A run has ended: a surplus stream of the pass follows (R416), then the arm latched (R443). -/
def State.nextRun (q : Nat) (s : State) : State :=
  let s := s.onQueue q (fun x => { x with run := none, cancelling := false })
  match (s.queue q).surplus, (s.queue q).slot with
  | i :: rest, _ =>
    let f := (s.onQueue q (fun x => { x with surplus := rest })).fetchDesc q i
    match f.1 with | some (i, d) => f.2.startRun q i d | none => f.2
  | [], some (i, d) => (s.onQueue q (fun x => { x with slot := none })).startRun q i d
  | [], none => s

/-- The run of a queue ends when every transfer of it has been issued and has retired (R443). -/
def State.runCheck (q : Nat) (s : State) : State :=
  match (s.queue q).run with
  | some r => if r.blocks.length ≤ r.blk && (s.queue q).out.isEmpty && !(s.queue q).cancelling then s.nextRun q else s
  | none => s

/-- CANCEL (R436): MOV_Q_CTL.CANCEL of a queue with a run. -/
def execCancel (queue : Nat) (s : State) : Host.Outcome State Fault Refusal :=
  .next (match (s.queue queue).run with
    | none => s
    | some r => onlyIf (s.up && !s.mover.fenced) (fun s => (s.cancelQueue queue).countCancel r.ctx) s)

/-- CANCEL_COMPLETE (R438): every transfer of the scope has retired or been discarded; the queue takes its slot (R443). -/
def execCancelComplete (queue : Nat) (s : State) : Host.Outcome State Fault Refusal :=
  .next (onlyIf (s.up && (s.queue queue).cancelling && (s.queue queue).out.isEmpty) (State.nextRun queue) s)

-- Retiring (R418, R427, R429, R430).

/-- A hand-over point after block b takes effect (R427 to R430): a SEMA chain is signalled, a FUSED one exchanges a credit, and
the entries delivered to a PORT pass on. -/
def State.handOver (q : Nat) (r : Run) (b : Nat) (s : State) : State :=
  let mine := (List.range (b + 1)).filter (fun i => decide (r.handed ≤ i))
  let usesPort (dst : Bool) : Bool := mine.any (fun i =>
    let k := r.blocks.getD i []
    (if dst then blkDp k else blkSp k) == 3 && blkBits k (if dst then 71 else 7) (if dst then 64 else 0) == 9)
  let out := (s.mover.ports.filter (fun p => p.1 == q && p.2.1 == 9)).flatMap (fun p => p.2.2)
  let s := s.onMover (fun m => { m with ports := m.ports.filter (fun p => p.1 != q) })
  match descChain r.desc with
  | 2 =>
    let s := match srcPair r.desc with
      | some p => let s := s.semSignal (2 * p + 1); if usesPort false then s.releaseEntry p else s
      | none => s
    match dstPair r.desc with
    | some p => let s := s.semSignal (2 * p); if usesPort true then s.sendEntry r.ctx p out else s
    | none => s
  | 1 => match srcPair r.desc with
    | some p => s.onCtx r.ctx (fun x => { x with credit := match (s.workMap r.ctx).entries p with
        | some n => if x.credits p < n then modify 0 p (· + 1) x.credit else x.credit
        | none => x.credit })
    | none => s
  | _ => s

/-- Every hand-over point of a run that is due takes effect, in order (R427). -/
def State.handOvers (q : Nat) (s : State) : State :=
  match (s.queue q).run with
  | none => s
  | some r0 =>
    each ((List.range r0.blocks.length).filter (fun b => decide (r0.handed ≤ b) && blkHand (r0.blocks.getD b []))) (fun b s =>
      match (s.queue q).run with
      | none => s
      | some r =>
        let done := decide (b < r.blk) && (s.queue q).out.all (fun x => match x.kind with
          | .stream _ _ _ _ _ _ k => decide (b < k)
          | _ => true)
        if done && decide (r.handed ≤ b) && !(s.queue q).cancelling then
          (s.handOver q r b).onQueue q (fun x => { x with run := x.run.map (fun y => { y with handed := b + 1 }) })
        else s) s

/-- Writes what a stream's transfer brought at its destination (R423, R427). -/
def State.land (q : Nat) (x : Xfer) (s : State) : State :=
  match x.kind with
  | .stream src dst sp dp _ dag _ =>
    let d := x.data.take x.len
    let s := match (if sp = 0 then (s.curMap x.ctx).streamAtAddr (galObj src.toNat) (galOff src.toNat) else none) with
      | some l => s.stageFetch x.ctx l x.len
      | none => s
    match dp with
    | 0 => ((pieces 64 d).foldl (fun (a : State × Nat) p =>
        (a.1.freeBit.2.swatchAccess 2 x.ctx (galObj dst.toNat) (galOff dst.toNat + 64 * a.2)
          (.write ((galOff dst.toNat + 64 * a.2) % 16384 / 64) (lineOf p)) a.1.freeBit.1, a.2 + 1)) (s, 0)).1
    | 2 => s.writeLines dag x.ctx (bits dst.toNat 20 13) (bits dst.toNat 12 0) d
    | 3 => s.onMover (fun m => { m with ports := m.ports ++ [(q, dst.toNat % 256, d)] })
    | _ => s
  | .fetch c f p off =>
    let s := match s.task c f.toNat p with
      | some t => s.onTask t.cmd.seq (fun u => { u with payload := slice u.payload 0 off ++ x.data.take x.len ++ u.payload.drop (off + x.len) })
      | none => s
    let more := s.mover.queues.any (fun k => k.2.jobs.any (fun j => match j.kind with
        | .fetch c2 f2 p2 _ => c2 == c && f2 == f && p2 == p | _ => false) ||
      k.2.out.any (fun y => y.id != x.id && (match y.kind with
        | .fetch c2 f2 p2 _ => c2 == c && f2 == f && p2 == p | _ => false)))
    match s.task c f.toNat p with
    | some t => if more then s else (s.onTask t.cmd.seq (fun u => { u with ready := true })).passPacket t.cmd
    | none => s
  | _ => s

/-- No transfer of the same queue to a PORT was issued before this one and is still outstanding (R426). -/
def State.firstPort (s : State) (x : Xfer) : Bool :=
  s.mover.queues.all (fun q => !q.2.out.any (fun y => y.id == x.id) || q.2.out.all (fun y => decide (x.id ≤ y.id) || y.dropped ||
    (match y.kind with | .stream _ _ _ dp _ _ _ => dp != 3 | _ => true)))

/-- The promotion that a write to the Gallery queues has its tokens, or its context hands over for their lack (R366, R59, R67). -/
def State.canLand (s : State) (x : Xfer) (dst : Nat) : Bool :=
  let o := galObj dst
  let i := galOff dst / 16384
  match (s.obj o).bind Obj.copyTier, s.sw.copy o i with
  | some _, none => (s.ctx x.ctx).bind.realtime || decide (s.promoCost o i x.ctx ≤ (s.ctx x.ctx).tok.bytes)
  | _, _ => true

/-- The transfer may retire (R418, R435): a read's bytes have arrived, no frame of a write waits for its ACK, a promotion has
ended; deliveries to a PORT keep their order (R426); one that a cancel discards may always. -/
def State.retires (s : State) (x : Xfer) : Bool :=
  let acked := match x.upto with | some n => s.link.tx.all (fun f => f.seq != n) | none => true
  match x.kind with
  | .fetch _ _ _ _ => x.dropped || x.whole
  | .post _ _ _ _ => acked
  | .stream _ dst _ dp _ _ _ =>
    if dp = 1 then acked && (x.dropped || x.upto.isSome)
    else x.dropped || x.whole && (dp != 3 || s.firstPort x) && (dp != 0 || s.canLand x dst.toNat)
  | .pref o i => x.dropped || (match s.sw.copy o i with | some (_, e) => e.st != SwState.promoting | none => true)

/-- Removes an outstanding transfer. -/
def State.dropXfer (q id : Nat) (s : State) : State := s.onQueue q (fun x => { x with out := x.out.filter (fun y => y.id != id) })

/-- The task to which a transfer belongs (R445). -/
def State.xferTask (s : State) (x : Xfer) : Option Task :=
  match x.kind with
  | .fetch c f p _ | .post c f p _ => (s.task c f.toNat p).filter Task.unposted
  | .stream _ _ _ _ _ _ _ => s.streamTask x.ctx x.tick
  | .pref _ _ => none

/-- A mid-stream fault of a transfer (R445). -/
def State.midStream (q : Nat) (x : Xfer) (cause : Nat) (s : State) : State :=
  let s := s.dropXfer q x.id
  s.midFault q x.ctx x.tick (s.xferTask x) cause

/-- TRANSFER_RETIRE (R418): the transfer's bytes are written at its destination, or it ends in a mid-stream fault of R444:
1 LINK, 2 LIST, 3 CHANNEL; the last fences the channel. -/
def execTransferRetire (queue id : Nat) (fault : Option Nat) (s : State) : Host.Outcome State Fault Refusal :=
  .next (match (s.queue queue).out.find? (fun x => x.id == id) with
    | none => s
    | some x => onlyIf (s.up && !s.mover.fenced) (fun s =>
      match fault with
      | some k =>
        let s := s.midStream queue x k
        if k = 3 then s.fenceChannel queue else s
      | none =>
        if !s.retires x then s
        else
          let s := if x.dropped then s else
            (((s.land queue x).onQueue queue (fun y => { y with bytes := y.bytes + x.len })).onCtx x.ctx (fun c =>
              { c with cnt := { c.cnt with movBytes := c.cnt.movBytes + x.len } }))
          ((s.dropXfer queue id).handOvers queue).runCheck queue) s)

/-- The bytes of a command's payload on a command queue (R415): the lowest unfenced one counts them (R613). -/
def State.commandBytes (n : Nat) (s : State) : State :=
  let q := ([4, 5, 6, 7].find? (fun x => !(s.queue x).fenced)).getD 4
  s.onQueue q (fun x => { x with bytes := x.bytes + n })

end Sys2Proof.Machine
end

