-- ==== Sys2Proof/Machine/Window.lean ====
section
/-! DEFINITION. The Window (R327 to R336): its words and their code, port-A and port-B accesses and their collisions. -/

namespace Sys2Proof.Machine

/-- A word with valid check bits (R328). -/
def validWord (d : Nat) : WWord := { data := BitVec.ofNat 64 d, check := BitVec.ofNat 16 (carefulWord (d % 2 ^ 64)) }

/-- Stores a word. -/
def State.winStore (w : Nat) (v : WWord) (s : State) : State := s.onWin (fun x => { x with words := put {} w v x.words })

/-- A port-B write: the word whole, with valid check bits. -/
def State.winPut (w : Nat) (d : DWord) (s : State) : State := s.winStore w (validWord d.toNat)

/-- Reads a word through its checker (R314, R328): a corrected word is counted and written back, an uncorrectable or
poisoned one is counted. Answers the word and whether it is good. -/
def State.winRead (w : Nat) (s : State) : DWord × Bool × State :=
  let v := look {} s.win.words w
  let r := decodeWord v.data.toNat v.check.toNat
  match r.1 with
  | 0 => (v.data, true, s)
  | 1 | 2 => (BitVec.ofNat 64 r.2, true, (s.winPut w (BitVec.ofNat 64 r.2)).onWin (fun x => { x with corr := satInc x.corr }))
  | _ => (v.data, false, s.onWin (fun x => { x with uncorr := satInc x.uncorr }))

/-- Bytes of a word replaced where given (R328); a merge into a word that fails its check keeps it poisoned (R299). -/
def State.winMerge (w : Nat) (bs : List (Option Byte)) (s : State) : State :=
  let whole := bs.length == 8 && bs.all Option.isSome
  let r := if whole then (0, true, s) else s.winRead w
  let d := natOf ((List.range 8).map (fun i => (bs.getD i none).getD ((bytesOf 8 r.1.toNat).getD i 0)))
  let v := validWord d
  r.2.2.winStore w (if r.2.1 then v else { v with check := v.check ||| 0x8000 })

/-- A port-B access overlaps the array cycle of the port-A line at cycle k (R331): HLP cycles of 1,667 ps, EAS of 1,000. -/
def portBOverlaps (b : PortB) (k : Nat) : Bool :=
  let d := b.dps - 1667 * (k : Int)
  decide (d < 1667 ∧ 0 < d + 1000)

/-- A port-B access comes before the port-A line at cycle k. -/
def portBBefore (b : PortB) (k : Nat) : Bool := decide (b.dps - 1667 * (k : Int) + 1000 ≤ 0)

/-- Port A is the later port (R334). -/
def laterA (b : PortB) (k : Nat) : Bool := decide (b.dps - 1667 * (k : Int) ≤ 250)

/-- Port-A cycle of a word in an access that begins at word w0. -/
def cycleOf (w0 w : Nat) : Nat := w / 8 - w0 / 8

/-- A port-B access on its own. -/
def State.winB (b : PortB) (s : State) : State :=
  match b.wr with
  | some d => s.winPut b.word d
  | none => let r := s.winRead b.word; r.2.2.onWin (fun x => { x with loads := x.loads ++ [(r.1, false)] })

/-- What a port-A access meets: a colliding write, and a warning of port A or B (R332, R333). -/
structure Meet where
  coll : Bool := false
  warnA : Bool := false
deriving DecidableEq, Repr

/-- A warning of the later port (R333 to R335). -/
def State.winWarn (b : PortB) (k : Nat) (m : Meet) (s : State) : Meet × State :=
  if laterA b k then ({ m with warnA := true }, s.onWin (fun x => { x with busy := true, aWarn := true }))
  else (m, s.onWin (fun x => { x with bWarn := true, collB := satInc x.collB }))

/-- Counts a port-A access that received COLLIDED or a warning (R339). -/
def State.winCountA (m : Meet) (s : State) : State :=
  onlyIf (m.coll || m.warnA) (State.onWin (fun x => { x with collA := satInc x.collA })) s

/-- The mode that decides a collision (R336): the one in force when the earlier of its two array cycles began. -/
def Window.modeOf (w : Window) (b : PortB) (k : Nat) : Bool := if b.before && decide (b.dps < 1667 * (k : Int)) then w.was else w.compat

/-- Accesses of port B in the order of their edges. -/
def inOrder (bs : List PortB) : List PortB :=
  bs.foldl (fun a b => a.takeWhile (fun x => decide (x.dps ≤ b.dps)) ++ [b] ++ a.dropWhile (fun x => decide (x.dps ≤ b.dps))) []

/-- The words of an access of n bytes at an offset. -/
def winWords (off n : Nat) : List Nat := (List.range ((off + n + 7) / 8 - off / 8)).map (fun i => off / 8 + i)

/-- The access of port B touches a word of the port-A access while its array cycle overlaps (R331). -/
def portBMeets (b : PortB) (ws : List Nat) (w0 : Nat) : Bool := ws.contains b.word && portBOverlaps b (cycleOf w0 b.word)

/-- Accesses of port B that come before the port-A access, and the others, each in order. -/
def splitB (ws : List Nat) (w0 : Nat) (bs : List PortB) : List PortB × List PortB :=
  let first (b : PortB) : Bool := !portBMeets b ws w0 && portBBefore b (cycleOf w0 b.word)
  ((inOrder bs).filter first, (inOrder bs).filter (fun b => !first b))

/-- A port-A read with the port-B accesses around it (R331 to R334): bytes, the meeting, the state. -/
def State.winReadA (off n : Nat) (bs : List PortB) (s : State) : List Byte × Meet × State :=
  let ws := winWords off n
  let w0 := off / 8
  let hits (b : PortB) : Bool := b.wr.isSome && portBMeets b ws w0
  let p := splitB ws w0 bs
  let s := each p.1 State.winB s
  let r := ws.foldl (fun (a : List Byte × State) w =>
    if bs.any (fun b => hits b && b.word == w && a.2.win.modeOf b (cycleOf w0 w)) then
      let f := a.2.freeWord
      (a.1 ++ bytesOf 8 f.1.toNat, f.2)
    else
      let r := a.2.winRead w
      (a.1 ++ bytesOf 8 r.1.toNat, r.2.2)) ([], s)
  let m := p.2.foldl (fun (a : Meet × State) b =>
    let c := if hits b && a.2.win.modeOf b (cycleOf w0 b.word) then a.2.winWarn b (cycleOf w0 b.word) a.1 else a
    (c.1, c.2.winB b)) ({}, r.2)
  ((r.1.drop (off % 8)).take n, m.1, m.2.winCountA m.1)

/-- A port-A write with the port-B accesses around it (R328, R331 to R334): a colliding read of port B sees the word as it was, a colliding write
stands over port A's. -/
def State.winWriteA (off : Nat) (data : List Byte) (bs : List PortB) (s : State) : Meet × State :=
  let ws := winWords off data.length
  let w0 := off / 8
  let reads (b : PortB) : Bool := b.wr.isNone && portBMeets b ws w0
  let p := splitB ws w0 bs
  let s := each p.1 State.winB s
  let m := (p.2.filter reads).foldl (fun (a : Meet × State) b =>
    if a.2.win.modeOf b (cycleOf w0 b.word) then
      let c := a.2.winWarn b (cycleOf w0 b.word) a.1
      let f := c.2.freeWord
      (c.1, f.2.onWin (fun x => { x with loads := x.loads ++ [(f.1, !laterA b (cycleOf w0 b.word))] }))
    else (a.1, a.2.winB b)) ({}, s)
  let s := each ws (fun w s => s.winMerge w ((List.range 8).map (fun i =>
    if off ≤ 8 * w + i then data[8 * w + i - off]? else none))) m.2
  let s := each (p.2.filter (fun b => !reads b)) State.winB s
  let m : Meet := { m.1 with coll := bs.any (fun b => b.wr.isSome && portBMeets b ws w0) }
  (m, s.winCountA m)

/-- WIN_CFG takes effect (R336). -/
def State.winCommit (s : State) : State := s.onWin (fun w => { w with compat := w.shadow, was := w.compat })

/-- WIN_COMMIT (R336). -/
def execWinCommit (s : State) : Host.Outcome State Fault Refusal := .next (onlyIf s.reaches State.winCommit s)

/-- WIN_BUSY_EXPIRY (R335): WIN_BUSY_N is released. -/
def execWinBusyExpiry (s : State) : Host.Outcome State Fault Refusal :=
  .next (onlyIf (!s.dead) (State.onWin (fun w => { w with busy := false })) s)

end Sys2Proof.Machine
end

