-- ==== Sys2Proof/Machine/Link.lean ====
section
/-! DEFINITION. The host link and the packet layer that the fabric shares with it: modules (R453 to R456), frame checks, replay
and unrecovered frames (R457 to R462, R570), the loss of the link (R615). -/

namespace Sys2Proof.Machine

-- Modules (R453 to R455).

/-- A module of the part. -/
def State.modOf (s : State) : ModId → Module
  | .hl 0 => s.link.hl0
  | .hl _ => s.link.hl1
  | .fab p => (s.port p).mod
/-- Changes one module. -/
def State.onMod (m : ModId) (f : Module → Module) (s : State) : State :=
  match m with
  | .hl 0 => s.onLink (fun l => { l with hl0 := f l.hl0 })
  | .hl _ => s.onLink (fun l => { l with hl1 := f l.hl1 })
  | .fab p => s.onPort p (fun x => { x with mod := f x.mod })

/-- MODEN in effect; 0b00 treated as 0b11 (R487). -/
def State.moden (s : State) : BitVec 2 := if s.link.eff.moden = 0 then 3 else s.link.eff.moden

/-- The module may train (R453, R565, R625, R696): powered, enabled, not a worker's host link, not held by a power state. -/
def State.mayTrain (s : State) (m : ModId) : Bool :=
  !s.dead && decide (s.power < 2) && (s.modOf m).vddq &&
    (match m with
    | .hl n => s.manager && s.moden.getLsbD n && decide (n < 2)
    | .fab p => decide (p < 4) && (s.manager || decide (p < 2)))

/-- The module exists. -/
def modExists : ModId → Bool
  | .hl n => decide (n < 2)
  | .fab p => decide (p < 4)

/-- A host-link module has left ACTIVE (R484). -/
def State.leftActive (m : ModId) (s : State) : State :=
  match m with
  | .hl _ => if (s.modOf m).st = .active then s.onLink (fun l => { l with evtStat := l.evtStat ||| 8 }) else s
  | .fab _ => s

/-- Training begins. -/
def State.train (m : ModId) (s : State) : State := s.onMod m (fun x => { x with st := .training })

/-- A module goes to RESET. -/
def State.modReset (m : ModId) (s : State) : State := (s.leftActive m).onMod m (fun x => { x with st := .reset, rate := 0, again := false })

/-- An ACTIVE module retrains (R455). -/
def State.retrain (m : ModId) (s : State) : State :=
  if (s.modOf m).st = .active then
    let s := (s.leftActive m).onMod m (fun x => { x with st := .retrain })
    match m with
    | .hl 0 => s.onLink (fun l => { l with retrains0 := satInc l.retrains0 })
    | .hl _ => s.onLink (fun l => { l with retrains1 := satInc l.retrains1 })
    | .fab _ => s
  else s

/-- One module's turn of a commit (R455): an enabled one retrains or trains, and one that already does so does it once more; an
excluded one goes to RESET once an enabled one is ACTIVE. -/
def State.takeTurn (n : Nat) (s : State) : State :=
  let m := ModId.hl n
  let x := s.modOf m
  let o := s.modOf (ModId.hl (1 - n))
  let done := s.onMod m (fun y => { y with turn := false })
  if !x.turn then s
  else if s.moden.getLsbD n then
    match x.st with
    | .active => done.retrain m
    | .retrain | .training => done.onMod m (fun y => { y with again := true })
    | _ => if s.mayTrain m then done.train m else done
  else if s.moden.getLsbD (1 - n) && o.st == .active then done.modReset m
  else s

/-- The turns of a commit that can be taken now, HL0 first; HL1's waits while HL0 retrains or trains (R455). -/
def State.linkTurns (s : State) : State :=
  let s := s.takeTurn 0
  let busy := s.link.hl0.st == .retrain || s.link.hl0.st == .training
  let s := if s.moden.getLsbD 0 && busy then s else s.takeTurn 1
  s.takeTurn 0

/-- HLK_CFG takes effect, and each module its turn (R455, R713). -/
def State.hlkCommit (s : State) : State :=
  let s := s.onLink (fun l => { l with eff := l.shadow, hl0 := { l.hl0 with turn := true }, hl1 := { l.hl1 with turn := true } })
  s.linkTurns

/-- HLK_COMMIT as its own row. -/
def execHlkCommit (s : State) : Host.Outcome State Fault Refusal := .next (onlyIf s.reaches State.hlkCommit s)

/-- The record WAKE is posted once a module is ACTIVE after the resume (R637). -/
def State.wakeRecord (s : State) : State :=
  match s.pmu.wakeRecord with
  | some src =>
    if s.pmu.asleep || (s.manager && s.link.hl0.st != .active && s.link.hl1.st != .active) then s
    else (s.onPmu (fun p => { p with wakeRecord := none })).raise 0 0 9 src 0
  | none => s

/-- Sends the ENUM that waits for a port to be ACTIVE (R576), to the position given; AUX carries it. A worker passes it on for the
manager. -/
def State.sendEnum (p : Nat) (s : State) : State :=
  match (s.port p).enumPos with
  | some q => (s.weaveFrom 16 p ((if s.manager then p else s.addr / 4) * 4 + q) 0x10 1 0 q []).onPort p (fun x => { x with enumPos := none })
  | none => s

/-- MODULE_ACTIVE (R453): a module that trains or retrains reaches ACTIVE at a rate within MAXRATE (R454); a commit's next turn,
a further retrain, a waiting ENUM or the record WAKE follows. -/
def execModuleActive (m : ModId) (rate : BitVec 2) (s : State) : Host.Outcome State Fault Refusal :=
  .next (onlyIf (modExists m && s.mayTrain m && ((s.modOf m).st == .training || (s.modOf m).st == .retrain)) (fun s =>
    let max := match m with | .hl _ => s.link.eff.maxrate | .fab _ => s.fab.rate
    let more := (s.modOf m).again
    let s := s.onMod m (fun x => { x with st := .active, rate := if max < rate then max else rate, again := false })
    let s := if more then s.retrain m else s
    match m with
    | .hl _ => ((s.linkTurns).onLink HostLink.flush).wakeRecord
    | .fab p => s.sendEnum p) s)

/-- TRAINING_TIMEOUT (R453): a module that has not reached ACTIVE within 2 ms is DOWN. -/
def execTrainingTimeout (m : ModId) (s : State) : Host.Outcome State Fault Refusal :=
  .next (onlyIf (modExists m && !s.dead && ((s.modOf m).st == .training || (s.modOf m).st == .retrain)) (fun s =>
    (s.onMod m (fun x => { x with st := .down, rate := 0 })).linkTurns) s)

/-- TRAINING_RETRY (R453): a DOWN module tries again. -/
def execTrainingRetry (m : ModId) (s : State) : Host.Outcome State Fault Refusal :=
  .next (onlyIf (modExists m && s.mayTrain m && (s.modOf m).st == .down) (State.train m) s)

/-- LINK_MANAGEMENT_REQUEST (R455): the host die's request makes an ACTIVE module retrain. -/
def execLinkManagementRequest (hl : Nat) (s : State) : Host.Outcome State Fault Refusal :=
  .next (onlyIf (!s.dead && decide (hl < 2)) (State.retrain (ModId.hl hl)) s)

/-- VDDQ_LOSS (R696, R705): a module whose rail is removed leaves ACTIVE and stays in RESET. -/
def execVddqLoss (m : ModId) (s : State) : Host.Outcome State Fault Refusal :=
  .next (onlyIf (modExists m && !s.dead) (fun s => ((s.modReset m).onMod m (fun x => { x with vddq := false })).linkTurns) s)

/-- VDDQ_RETURN (R705): the rail is back and training begins. -/
def execVddqReturn (m : ModId) (s : State) : Host.Outcome State Fault Refusal :=
  .next (onlyIf (modExists m && !s.dead && !(s.modOf m).vddq) (fun s =>
    let s := s.onMod m (fun x => { x with vddq := true })
    if s.mayTrain m && (s.modOf m).st == .reset then s.train m else s) s)

/-- SIDEBAND_MESSAGE_IGNORED (R456): another vendor ID or an undefined code is ignored and counted. -/
def execSidebandMessageIgnored (hl : Nat) (vendor : Half) (code : Byte) (s : State) : Host.Outcome State Fault Refusal :=
  .next (onlyIf (!s.dead && s.manager && decide (hl < 2) && (vendor != 0x5C31 || code == 0 || 3 < code))
    (State.onLink (fun l => { l with dbIgnored := satInc l.dbIgnored })) s)

/-- RESET_N_DEASSERT (R647): the straps are sampled, both host-link modules of a manager begin training; a worker's FAB0 waits
for its upstream partner in training. -/
def execResetNDeassert (strap : BitVec 4) (vddq : BitVec 6) (s : State) : Host.Outcome State Fault Refusal :=
  .next (onlyIf (s.boot.held && s.pins.pwrGood) (fun s =>
    let s := (s.onBoot (fun b => { b with held := false })).onPins (fun p => { p with resetN := true, straps := strap })
    let s := s.onFab (fun f => { f with strap := strap, selfAddr := strap.toNat % 4 })
    let s := (List.range 6).foldl (fun s i =>
      s.onMod (if i < 2 then .hl i else .fab (i - 2)) (fun x => { x with vddq := vddq.getLsbD i })) s
    each (if s.manager then [.hl 0, .hl 1] else [.fab 0]) (fun m s => if s.mayTrain m then s.train m else s) s) s)

-- Frame checks (R458, R574).

/-- Packet-layer state of a link. -/
def State.layer (s : State) : LinkId → LinkLayer
  | .host => s.link.seqs
  | .fab p => (s.port p).seqs
/-- Changes the packet layer of a link. -/
def State.onLayer (k : LinkId) (f : LinkLayer → LinkLayer) (s : State) : State :=
  match k with
  | .host => s.onLink (fun l => { l with seqs := f l.seqs })
  | .fab p => s.onPort p (fun x => { x with seqs := f x.seqs })

/-- Frames pass on the link: one of its modules is ACTIVE, and the Fabric unit's microcode has loaded (R17). -/
def State.carries (s : State) : LinkId → Bool
  | .host => !s.dead && s.manager && (s.link.hl0.st == .active || s.link.hl1.st == .active)
  | .fab p => !s.dead && s.fab.ready && (s.port p).mod.st == .active

/-- A frame is discarded and NAK names the first one not delivered (R458). -/
def State.discardFrame (k : LinkId) (s : State) : State :=
  let s := match k with
    | .host => s.onLink (fun l => { l with errCrc := satInc l.errCrc })
    | .fab p => s.onPort p (fun x => { x with errCrc := satInc x.errCrc })
  s.onLayer k (fun y => { y with naks := y.naks + 1 })

/-- A received frame's check: whether the frame is delivered now. One whose number has been delivered before is a replay and is
dropped without NAK. -/
def State.checkFrame (k : LinkId) (rx : Rx) (s : State) : Bool × State :=
  let next := (s.layer k).rxNext
  if rx.good && rx.seq == next then
    (true, s.onLayer k (fun y => { y with rxNext := y.rxNext + 1, acks := y.acks + 1 }))
  else if rx.good && (next - rx.seq).toNat ≤ 32768 && rx.seq != next then (false, s)
  else (false, s.discardFrame k)

-- Unrecovered frames (R460, R461).

/-- A link fault of a transfer of the Mover (R444, R461). -/
def State.linkFault (q id : Nat) (s : State) : State :=
  match (s.queue q).out.find? (fun x => x.id == id) with
  | none => s
  | some x => s.midStream q x 1

/-- A read of a swatch in host memory is unrecovered (R461): one of an object with RO = 1 is uncorrectable, any other a mid-stream fault of the
transfers that wait for it, or of context 0 where none does (log 49). -/
def State.galleryFault (o i : Nat) (s : State) : State :=
  let ws := s.waitFor o i
  if ((s.obj o).map (·.ro)).getD false then s else if ws.isEmpty then s.streamFault 0 1 else each ws (fun p s => s.midStream p.1 p.2.1 1) s

/-- The post transfer whose last frame has a sequence number. -/
def State.postOf (s : State) (n : Half) : Option (Nat × Xfer) :=
  (s.mover.queues.flatMap (fun q => q.2.out.map (fun x => (q.1, x)))).find? (fun p => p.2.upto == some n)

/-- An unrecovered frame of the host link is reported to the unit that issued it (R461). -/
def State.reportFrame (f : TxFrame) (s : State) : State :=
  let s := s.onLink (fun l => { l with
    errUnrec := satInc l.errUnrec, evtStat := l.evtStat ||| 16,
    reads := match f.kind with | .mrd id _ _ => l.reads.filter (fun r => r.id != id) | _ => l.reads })
  match f.kind, f.by_ with
  | .mrd _ _ _, .gallery o i =>
    (s.galleryFault o i |>.onLink (fun l => { l with reads := l.reads.filter (fun r => r.by_ != .gallery o i) })).tierCame o i false []
  | .mrd _ _ _, .mover q id _ => s.linkFault q id
  | .mrd _ _ _, .ringHdr r =>
    if (s.ring r).enabled && !(s.ring r).stopped then
      (s.onRing r (fun g => { g with stopped := true, reading := false })).unitFenced 0x0B r
    else s
  | .mrd _ _ _, .ringDesc r =>
    if (s.ring r).enabling then
      (s.onLink (fun l => { l with dbIgnored := satAdd l.dbIgnored (s.ring r).heldDb.length })).onRing r
        (fun g => { g with enabling := false, stopped := true, heldDb := [] })
    else s
  | .mwr _ _, .mover q id _ => s.linkFault q id
  | .mwr _ _, .completion c =>
    match s.postOf f.seq with
    | some p => s.midStream p.1 p.2 1
    | none => if (s.ctx c).fence then s else s.streamFault c 1
  | _, _ => s

/-- Takes frames out of the replay buffer as unrecovered. -/
def State.unrecover (fs : List TxFrame) (s : State) : State :=
  each fs State.reportFrame (s.onLink (fun l => ({ l with tx := l.tx.filter (fun f => fs.all (fun g => g.seq != f.seq)) } : HostLink).flush))

/-- One replay of a frame (R459, R460): the eighth on one module moves it to the other. -/
def TxFrame.replay (f : TxFrame) : TxFrame :=
  let f := if f.on1 then { f with n1 := f.n1 + 1 } else { f with n0 := f.n0 + 1 }
  if f.on1 ∧ 8 ≤ f.n1 ∧ f.n0 < 8 then { f with on1 := false }
  else if !f.on1 ∧ 8 ≤ f.n0 ∧ f.n1 < 8 then { f with on1 := true } else f

/-- The frame numbered seq and every later one of the replay buffer. -/
def fromSeq (seq : Half) (fs : List TxFrame) : List TxFrame := fs.dropWhile (fun f => f.seq != seq)

/-- Replays the named frame and every later one (R459); a module on which one has been replayed 8 times is marked and retrains,
and what has been replayed 8 times on each is unrecovered (R460). -/
def State.replayHost (seq : Half) (s : State) : State :=
  let fs := (fromSeq seq s.link.tx).filter (·.sent)
  let gs := fs.map TxFrame.replay
  let m0 := (fs.zip gs).any (fun p => decide (p.1.n0 < 8 ∧ 8 ≤ p.2.n0))
  let m1 := (fs.zip gs).any (fun p => decide (p.1.n1 < 8 ∧ 8 ≤ p.2.n1))
  let s := s.onLink (fun l => { l with
    tx := l.tx.takeWhile (fun f => f.sent && f.seq != seq) ++ gs ++ l.tx.filter (fun f => !f.sent), errReplay := satAdd l.errReplay fs.length })
  let s := if m0 then s.retrain (.hl 0) else s
  let s := if m1 then s.retrain (.hl 1) else s
  s.unrecover (gs.filter (fun f => decide (8 ≤ f.n0 ∧ 8 ≤ f.n1)))

-- Fabric ports (R570, R573).

/-- Lines of a Weave frame. -/
def WFrame.lines (f : WFrame) : Nat := ceilDiv f.data.length 64

/-- The next frame that a port may send (R570, R573): VC0, VC1, VC3, VC4, VC2 in that order, VC2 in every eighth turn. -/
def Port.pick (x : Port) : Option WFrame :=
  let order := if x.turns % 8 = 7 then [2, 0, 1, 3, 4] else [0, 1, 3, 4, 2]
  order.findSome? (fun v => match x.wait.find? (fun f => f.vc == v) with
    | some f => if (v = 0 ∨ f.lines ≤ x.credit.getD v 0) ∧ x.room f then some f else none
    | none => none)

/-- Sends the frames that wait and for which credit is held. -/
def Port.drain : Nat → Port → Port
  | 0, x => x
  | n + 1, x =>
    match x.pick with
    | none => x
    | some f => Port.drain n { x with
        wait := x.wait.erase f, tx := x.tx ++ [{ f with seq := x.seqs.txNext }], turns := x.turns + 1,
        seqs := { x.seqs with txNext := x.seqs.txNext + 1 },
        credit := if f.vc = 0 then x.credit else setAt x.credit f.vc (· - f.lines) }

/-- The workers that a hop of a port leads to: the manager's chain, or what lies beyond a worker. -/
def State.beyond (s : State) (p : Nat) : Option Nat := if s.manager then some (4 * p) else none

/-- A stack has lost its upstream (R600): every context is treated as aborted, and it takes no command until it is enumerated. -/
def State.upLost (s : State) : State :=
  if s.fab.uplost then s
  else each s.allBound (fun c s => (s.fenceCtx c).onCtx c (fun x => { x with linkFence := true }))
    (s.onFab (fun f => { f with uplost := true }))

/-- A hop is lost (R598, R600): the manager fences the workers beyond it, a worker whose upstream it was sets UPLOST. -/
def State.hopLost (p pos : Nat) (s : State) : State :=
  if s.manager then s.fenceWorker (4 * p + pos) else if p = 0 then s.upLost else s

/-- Frames of a port replayed 16 times are unrecovered (R570, R598). -/
def State.replayFab (p : Nat) (seq : Half) (s : State) : State :=
  let x := s.port p
  let fs := x.tx.dropWhile (fun f => f.seq != seq)
  let gs := fs.map (fun f => { f with n := f.n + 1 })
  let marked := gs.any (fun f => f.n == 8)
  let lost := gs.filter (fun f => decide (16 ≤ f.n))
  let s := s.onPort p (fun x => { x with
    tx := x.tx.takeWhile (fun f => f.seq != seq) ++ gs.filter (fun f => decide (f.n < 16)),
    errReplay := satAdd x.errReplay fs.length, errUnrec := satAdd x.errUnrec lost.length })
  let s := if marked then s.retrain (.fab p) else s
  each lost (fun f s => if s.manager then (if f.dst < 16 then s.fenceWorker f.dst else s) else s.hopLost p 0) s

/-- Frees what an ACK covers: the named frame, where it has been sent, and every earlier one (R459). -/
def freeUpto {α : Type} (sent : α → Bool) (seq : α → Half) (n : Half) (fs : List α) : List α :=
  if fs.any (fun f => sent f && seq f == n) then (fs.dropWhile (fun f => seq f != n)).drop 1 else fs

/-- ACK (R459, R573): frames covered leave the replay buffer; Weave credit returns and waiting frames go. -/
def execAck (link : LinkId) (good : Bool) (seq : Half) (credit : List Nat) (s : State) : Host.Outcome State Fault Refusal :=
  .next (onlyIf (s.carries link) (fun s =>
    if !good then s.discardFrame link
    else match link with
      | .host => s.onLink (fun l => ({ l with tx := freeUpto TxFrame.sent TxFrame.seq seq l.tx } : HostLink).flush)
      | .fab p => s.onPort p (fun x => Port.drain (x.wait.length + 1) { x with
          tx := freeUpto (fun _ => true) WFrame.seq seq x.tx, credit := (List.range 5).map (fun v => x.credit.getD v 0 + credit.getD v 0) })) s)

/-- NAK (R459): the named frame and every later one are replayed. -/
def execNak (link : LinkId) (good : Bool) (seq : Half) (s : State) : Host.Outcome State Fault Refusal :=
  .next (onlyIf (s.carries link) (fun s =>
    if !good then s.discardFrame link
    else match link with | .host => s.replayHost seq | .fab p => s.replayFab p seq) s)

/-- REPLAY_TIMEOUT (R459): no ACK has covered the frame within 2 µs of its last send. -/
def execReplayTimeout (link : LinkId) (seq : Half) (s : State) : Host.Outcome State Fault Refusal :=
  .next (onlyIf (s.carries link) (fun s => match link with | .host => s.replayHost seq | .fab p => s.replayFab p seq) s)

/-- LINK_DOWN_TIMEOUT (R460): both modules have been outside ACTIVE for more than 2 ms. -/
def execLinkDownTimeout (s : State) : Host.Outcome State Fault Refusal :=
  .next (onlyIf (!s.dead && s.manager && s.link.hl0.st != .active && s.link.hl1.st != .active) (fun s => s.unrecover (s.link.tx.filter (·.sent))) s)

-- Rings (R465 to R476).

/-- Disables a ring (R475): headers not taken are dropped, commands taken go on; reads of the ring on the way are discarded. -/
def State.disableRing (r : Nat) (s : State) : State :=
  let s := s.onEasel (fun e => { e with held := e.held.filter (fun h => h.ring != r) })
  let s := s.onLink (fun l => { l with reads := l.reads.filter (fun x => x.by_ != .ringHdr r && x.by_ != .ringDesc r) })
  s.onRing r (fun g => { g with enabled := false, enabling := false, heldDb := [], reading := false, head := if g.dir then g.head else g.tail, rd := g.tail, passed := [] })

/-- The link is lost for good (R615): every bound context is fenced, headers are dropped, every ring counts as DISABLED, and no
completion follows. -/
def State.linkLoss (s : State) : State :=
  let s := s.onEasel (fun e => { e with live := [], held := [], urgentPosts := [] })
  let s := each s.allBound (fun c s => (s.fenceCtx c).onCtx c (fun x => { x with
    fence := true, linkFence := x.linkFence || x.st == .bound, abortCmds := [] })) s
  let s := each (s.easel.rings.map (·.1)) State.disableRing s
  s.onEasel (fun e => { e with waiting := [], tasks := [], urgentPosts := [] })

/-- LINK_LOSS_TIMEOUT (R615): both modules have been outside ACTIVE for 250 ms. -/
def execLinkLossTimeout (s : State) : Host.Outcome State Fault Refusal :=
  .next (onlyIf (s.up && s.manager && s.link.hl0.st != .active && s.link.hl1.st != .active) State.linkLoss s)

/-- Headers held in all (R473). -/
def State.heldOf (s : State) (r : Nat) : Nat := (s.easel.held.filter (fun h => h.ring == r)).length

/-- Reads ahead the next header of a submission ring (R473): up to 4 of the ring, 256 of all. -/
def State.readAhead (r : Nat) (s : State) : State :=
  let g := s.ring r
  let left := (g.tail + 2 * g.size - g.rd) % (2 * g.size)
  if g.enabled && !g.dir && g.cqOk && !g.stopped && !g.reading && decide (0 < left ∧ left ≤ g.size) && s.linkUp &&
      decide (s.heldOf r < 4) && decide (s.easel.held.length < 256) then
    (s.onRing r (fun g => { g with reading := true })).readHost (g.addr g.rd) 64 (.ringHdr r)
  else s

/-- Counts an ignored doorbell (R475). -/
def State.dbIgnored (s : State) : State := s.onLink (fun l => { l with dbIgnored := satInc l.dbIgnored })

/-- PRODUCE (R475): the tail, modulo 2S, at most S slots ahead of the head. -/
def Ring.produce (g : Ring) (i : Nat) : Ring :=
  let i := i % (2 * g.size)
  let d := (i + 2 * g.size - g.head) % (2 * g.size)
  { g with tail := if g.size < d then (g.head + g.size) % (2 * g.size) else i }

/-- CONSUME (R475): the head, modulo 2S, not beyond the tail. -/
def Ring.consume (g : Ring) (i : Nat) : Ring :=
  let i := i % (2 * g.size)
  let d := (i + 2 * g.size - g.head) % (2 * g.size)
  { g with head := if g.used < d then g.tail else i }

/-- ENABLE (R475): the ring is disabled and its descriptor is read. -/
def State.enableRing (r : Nat) (s : State) : State :=
  let s := if (s.ring r).enabled then s.disableRing r else s
  (s.onRing r (fun g => { g with enabling := true, stopped := false })).readHost
    (s.link.rdtHi.toNat * 2 ^ 32 + s.link.rdtLo.toNat * 4096 + 32 * r) 32 (.ringDesc r)

/-- A doorbell of a ring (R474, R475): held behind an ENABLE, ignored where it does not fit the ring. -/
def State.ringBell (r op i : Nat) (s : State) : State :=
  let g := s.ring r
  if g.enabling then s.onRing r (fun g => { g with heldDb := g.heldDb ++ [(op, i)] })
  else match op with
    | 0 => if g.enabled && !g.dir then (s.onRing r (fun g => g.produce i)).readAhead r else s.dbIgnored
    | 1 => if g.enabled && g.dir then s.onRing r (fun g => g.consume i) else s.dbIgnored
    | 2 => s.enableRing r
    | 3 => if g.enabled then s.disableRing r else s.dbIgnored
    | _ => s.dbIgnored

/-- A doorbell reaches the part (R654): before READY and in recovery it is ignored. -/
def State.doorbell (r op i : Nat) (s : State) : State := if s.ready then s.ringBell r op i else s.dbIgnored

/-- The host link is there to bring a doorbell. -/
def State.canRing (s : State) (r : Nat) : Bool := !s.dead && s.manager && decide (s.power < 2) && decide (r < 32768)

/-- PRODUCE. -/
def execProduce (ring index : Nat) (s : State) : Host.Outcome State Fault Refusal :=
  .next (onlyIf (s.canRing ring) (State.doorbell ring 0 (index % 2 ^ 17)) s)
/-- CONSUME. -/
def execConsume (ring index : Nat) (s : State) : Host.Outcome State Fault Refusal :=
  .next (onlyIf (s.canRing ring) (State.doorbell ring 1 (index % 2 ^ 17)) s)
/-- ENABLE. -/
def execEnable (ring : Nat) (s : State) : Host.Outcome State Fault Refusal := .next (onlyIf (s.canRing ring) (State.doorbell ring 2 0) s)
/-- DISABLE. -/
def execDisable (ring : Nat) (s : State) : Host.Outcome State Fault Refusal := .next (onlyIf (s.canRing ring) (State.doorbell ring 3 0) s)

/-- A clamp of a ring descriptor (R467, R500). -/
def State.descClamp (bad : Bool) (bit : Nat) (s : State) : State := if bad then s.clampAt 0 0 (0x10000000 + bit) else s

/-- The descriptor of a ring has arrived (R466 to R468): clamped, the ring reset, and the doorbells held behind it follow. -/
def State.installRing (r : Nat) (d : List Byte) (s : State) : State :=
  let f (hi lo : Nat) : Nat := bits (fieldB d 0 32) hi lo
  let base := f 63 0
  let log2 := f 68 64
  let dir := f 69 69 == 1
  let cq := f 88 74
  let ok := dir || ((s.ring cq).enabled && (s.ring cq).dir && cq != r)
  let held := (s.ring r).heldDb
  let s := ((s.descClamp (base % 64 != 0) 0).descClamp (decide (log2 < 4 ∨ 16 < log2)) 64).descClamp (!ok) 74
  let s := s.onRing r (fun g => { g with
    enabled := true, enabling := false, heldDb := [], dir := dir, cls := BitVec.ofNat 3 (f 72 70), evt := f 73 73 == 1, cq := cq, cqOk := ok,
    base := base - base % 64, log2 := clampN 4 16 log2, head := 0, tail := 0, rd := 0, phase := dir, stopped := false,
    reading := false, passed := [] })
  each held (fun h s => s.ringBell r h.1 h.2) s

/-- PSLOTS of a packet on a ring: at most S − 1 (R469). -/
def Ring.slots (g : Ring) (h : Line) : Nat := min (hdrSlots h) (g.size - 1)

/-- A header has arrived (R473). -/
def State.holdHeader (r : Nat) (h : Line) (s : State) : State :=
  let g := s.ring r
  if g.enabled && g.reading then
    let s := s.onEasel (fun e => { e with held := e.held ++ [{ ring := r, idx := g.rd, hdr := h }] })
    (s.onRing r (fun g => { g with reading := false, rd := (g.rd + 1 + g.slots h) % (2 * g.size) })).readAhead r
  else s

/-- Host-memory data goes to who asked for it. -/
def State.readReply (by_ : Issuer) (data : List Byte) (s : State) : State :=
  match by_ with
  | .ringDesc r => if (s.ring r).enabling then s.installRing r data else s
  | .ringHdr r => s.holdHeader r (lineOf data)
  | .mover q id off => s.xferGot q id off data
  | _ => s

/-- MRDC (R457): checked, it answers an MRD. Data of Gallery reads takes effect in FILL_DONE and REFETCH_DONE. -/
def execMrdc (rx : Rx) (id : Nat) (data : List Byte) (s : State) : Host.Outcome State Fault Refusal :=
  .next (onlyIf (s.carries .host) (fun s =>
    let r := s.checkFrame .host rx
    if !r.1 then r.2
    else match r.2.link.reads.find? (fun x => x.id == id) with
      | none => r.2
      | some x => (r.2.onLink (fun l => { l with reads := l.reads.filter (fun y => y.id != id) })).readReply x.by_ data) s)

-- The urgent lane (R477 to R480).

/-- A mailbox bit takes effect (R478, R480): word 0 of the completion slot goes to zero and PENDING is set; a bit already pending is
ignored and counted. -/
def State.urgBit (n : Nat) (s : State) : State :=
  if s.link.urgPending.getLsbD n then s.onLink (fun l => { l with urgIgnored := satInc l.urgIgnored })
  else (s.winPut ((0x1FFC00 + 64 * n) / 8) 0).onLink (fun l => { l with urgPending := l.urgPending ||| (1 <<< n) })

/-- HLK_URG_DB (R477, R654): before READY it is ignored; else each bit in ascending order, and Easel's handler is active. -/
def State.urgDb (mask : Half) (s : State) : State :=
  if !s.ready then s.dbIgnored
  else
    let s := each ((List.range 16).filter (fun n => mask.getLsbD n)) State.urgBit s
    if s.link.urgPending = 0 then s else (s.onPal (fun p => { p with urgent := true })).testerCheck

/-- HLK_URG_DB as its own row. -/
def execHlkUrgDb (mask : Half) (s : State) : Host.Outcome State Fault Refusal :=
  .next (onlyIf (!s.dead && s.manager && decide (s.power < 2)) (State.urgDb mask) s)

/-- Easel posts the completion of an urgent command (R478): words 1 to 7 of the slot, then word 0; PENDING clears, URGENT is set. -/
def State.postUrgent (n : Nat) (slot : Line) (s : State) : State :=
  let w := (0x1FFC00 + 64 * n) / 8
  let word (i : Nat) : DWord := BitVec.ofNat 64 (bits slot.toNat (64 * i + 63) (64 * i))
  let s := each ([1, 2, 3, 4, 5, 6, 7, 0]) (fun i s => s.winPut (w + i) (word i)) s
  let s := s.onLink (fun l => { l with urgPending := l.urgPending &&& ~~~((1 : Half) <<< n), evtStat := l.evtStat ||| 1 })
  if s.link.urgPending = 0 then s.onPal (fun p => { p with urgent := false }) else s

/-- Posts what urgent commands have left to post. -/
def State.flushUrgent (s : State) : State :=
  each s.easel.urgentPosts (fun p s => s.postUrgent p.1 p.2) (s.onEasel (fun e => { e with urgentPosts := [] }))

end Sys2Proof.Machine
end

