-- ==== Sys2Proof/Machine/Commands.lean ====
section
/-! DEFINITION. How Easel takes a command (R473, R481, R489 to R491, R529 to R531, R578), and the commands of contexts (R502 to
R506) with ABORT (R69 to R73, R518). -/

namespace Sys2Proof.Machine

-- Which header is taken next.

/-- Context-state commands (R530). -/
def ctxStateOp (op : Nat) : Bool := [0x01, 0x02, 0x03, 0x20, 0x21, 0x32].contains op
/-- Commands that wait for the context-state commands before them (R530). -/
def runOp (op : Nat) : Bool := [0x30, 0x31, 0x50].contains op
/-- Object commands (R531). -/
def objOp (op : Nat) : Bool := [0x10, 0x11, 0x12, 0x13].contains op
/-- Opcodes of the table of R488. -/
def knownOp (op : Nat) : Bool :=
  [0x01, 0x02, 0x03, 0x10, 0x11, 0x12, 0x13, 0x20, 0x21, 0x22, 0x23, 0x30, 0x31, 0x32, 0x40, 0x41, 0x50, 0x60, 0x61, 0x70, 0x80, 0x81,
    0x90, 0x91].contains op

/-- The worker to which a ring is routed (R578). -/
def State.workerOf (s : State) (r : Nat) : Option Nat :=
  if s.manager then
    (List.range 16).find? (fun d =>
      let w := look 0 s.fab.routes d
      w.getLsbD 31 && decide (bits w.toNat 14 0 ≤ r ∧ r < bits w.toNat 14 0 + min 32768 (bits w.toNat 30 15)))
  else none

/-- The whole packet of a header lies below the tail (R473); a routed one has come with its payload. -/
def Ring.covers (g : Ring) (h : Held) : Bool :=
  h.payload.isSome || (let left := (g.tail + 2 * g.size - h.idx) % (2 * g.size)
    decide (1 + g.slots h.hdr ≤ left ∧ left ≤ g.size))

/-- Nothing taken before holds the command back (R529 to R531, R350, R602). -/
def State.mayStart (s : State) (h : Held) : Bool :=
  let op := hdrOp h.hdr
  let mine := s.easel.live.filter (fun l => s.fab.routed.all (fun p => p.2.seq != l.cmd.seq))
  let ordered := hdrBits h.hdr 8 8 == 0 || s.easel.live.all (fun l => l.cmd.sq != h.ring)
  let waits (l : Live) : Bool :=
    let o := hdrOp l.cmd.hdr
    ((ctxStateOp op || runOp op) && ctxStateOp o && hdrCtx l.cmd.hdr == hdrCtx h.hdr && !(op == 0x21 && o == 0x21)) ||
      ((op == 0x60 || op == 0x61) && (o == 0x60 || o == 0x61)) || (objOp op && (o == 0x10 || o == 0x13 || (op == 0x10 && objOp o)) && hdrBits l.cmd.hdr 147 128 == hdrBits h.hdr 147 128)
  ordered && ((s.workerOf h.ring).isSome || mine.all (fun l => !waits l))

/-- Easel takes headers: in ACTIVE, no POWER entry under way, not in the swap, a worker joined to its manager (R568, R600, R628). -/
def State.takes (s : State) : Bool :=
  s.up && s.pmu.entering.isNone && s.boot.phase != 11 && (s.manager || (s.fab.joinedSelf && !s.fab.uplost))

/-- The first header held of each ring that Easel could take, in the order of arrival (R473, R667). -/
def State.candidates (s : State) : List Held :=
  ((s.easel.held.map (·.ring)).eraseDups.filterMap (fun r => s.easel.held.find? (fun h => h.ring == r))).filter (fun h =>
    (s.ring h.ring).covers h && s.mayStart h && (s.boot.settle != 2 || [0x30, 0x31, 0x32].contains (hdrOp h.hdr)))

/-- The header that Easel takes next (R481); a worker takes routed ones as they came. -/
def State.nextHeader (s : State) : Option Held :=
  if !s.takes then none
  else if !s.manager || s.easel.taken % 16 == 15 then s.candidates.head?
  else
    let cls (h : Held) : Nat := (s.ring h.ring).cls.toNat
    let top := (s.candidates.map cls).foldl max 0
    let best := s.candidates.filter (fun h => cls h == top)
    match nextAfter (look 0 s.easel.rrRing top) (best.map (·.ring)) with
    | some r => best.find? (fun h => h.ring == r)
    | none => none

-- Taking it.

/-- A command taken to be performed here: its payload slots with their bytes, and the clamp of PSLOTS (R469). -/
structure Taken where
  cmd : Cmd
  slots : Nat
  payload : List Byte
  ws : List Nat
deriving DecidableEq, Repr

/-- Context of a command. -/
def Taken.ctx (t : Taken) : Nat := hdrCtx t.cmd.hdr
/-- A field of the header. -/
def Taken.f (t : Taken) (hi lo : Nat) : Nat := hdrBits t.cmd.hdr hi lo

/-- A clamp at a place where a condition holds. -/
def bad (b : Bool) (w : Nat) : List Nat := if b then [w] else []

/-- A payload shorter or longer than the command needs (R491, R500). -/
def Taken.lengthClamp (t : Taken) (need : Nat) : List Nat := bad (t.slots != need) (0x8000 + 64 * min t.slots need)

/-- The clamps of a command's own fields, after that of PSLOTS, in order (R497, R499). -/
def State.clamps (t : Taken) (ws : List Nat) (s : State) : State :=
  each (t.ws ++ ws) (fun w s => s.clampAt t.ctx (hdrOp t.cmd.hdr) w) s

/-- A command for a fenced worker, or for the workers of a fenced Fabric unit (R599). -/
def State.workerGone (c : Cmd) (s : State) : State := if runOp (hdrOp c.hdr) then s.complete c 2 0 0 [] else s.notPerformed c

/-- Forwards header and payload to a worker in CMD frames (R578); the payload goes over the ring queue of its class. -/
def State.forward (d : Nat) (c : Cmd) (payload : List Byte) (s : State) : State :=
  if s.fab.fenced || s.fab.mask.getLsbD d then s.workerGone c
  else
    let q := s.ringQueue (s.ring c.sq).cls.toNat
    let s := (s.passPacket c).onQueue q (fun x => { x with bytes := x.bytes + payload.length })
    (s.onFab (fun f => { f with routed := f.routed ++ [(d, c)] })).weave d 0x12 1 c.sq 0 (lineBytes c.hdr ++ payload)

/-- Takes a header: its command is numbered and in progress, the ring reads ahead (R473, R481, R529). -/
def State.takeHeader (h : Held) (c : Cmd) (s : State) : State :=
  let far := h.payload.isSome
  let s := s.onEasel (fun e => { e with
    held := e.held.erase h, nextSeq := e.nextSeq + 1, taken := e.taken + 1, live := e.live ++ [{ cmd := c }],
    rrRing := if far then e.rrRing else putRaw (s.ring h.ring).cls.toNat h.ring e.rrRing })
  if far then s else (s.onRing h.ring (fun g => { g with passed := g.passed ++ [(c.seq, c.head, false)] })).readAhead h.ring

/-- Easel takes the packet if its header is the one that is next and is of the row's kind. Answers the command where it is to be
performed here: a whole-stack fence drops all but DIAG and ATTEST (R616), a route forwards it (R578). The payload of RUN_SLICE and
RUN_FRAME is fetched later (R473). -/
def State.take (p : Packet) (ok : Line → Bool) (s : State) : Option Taken × State :=
  match s.nextHeader with
  | none => (none, s)
  | some h =>
    if h.ring ≠ p.ring ∨ h.hdr ≠ p.hdr ∨ !ok h.hdr then (none, s)
    else
      let g := s.ring h.ring
      let far := h.payload.isSome
      let slots := match h.payload with | some d => d.length / 64 | none => g.slots h.hdr
      let c : Cmd := {
        src := if far then .fabric h.ring else .ring h.ring, hdr := h.hdr, seq := s.easel.nextSeq,
        head := if far then 0 else (h.idx + 1 + slots) % (2 * g.size) }
      let t : Taken := {
        cmd := c, slots := slots, payload := slice (h.payload.getD p.payload) 0 (64 * slots),
        ws := bad (!far && decide (g.size - 1 < hdrSlots h.hdr)) 64 }
      let s := s.takeHeader h c
      if s.easel.wholeFence && !underFence (hdrOp h.hdr) then (none, s.retire c)
      else match s.workerOf h.ring with
        | some d => (none, if s.easel.wholeFence then s.retire c else s.forward d c t.payload)
        | none =>
          if hdrOp h.hdr = 0x30 ∨ hdrOp h.hdr = 0x31 then (some t, s)
          else (some t, if far then s else (s.passPacket c).commandBytes (64 * slots))

/-- One command row: the packet is taken, and the command performed. -/
def State.command (p : Packet) (ok : Line → Bool) (body : Taken → State → State) (s : State) : State :=
  match s.take p ok with
  | (some t, s) => body t s
  | (none, s) => s

/-- The header has an opcode. -/
def isOp (op : Nat) (h : Line) : Bool := hdrOp h == op

/-- UNSUPPORTED (R489): an undefined opcode, or a FAB_ command on a worker. -/
def execUnsupported (p : Packet) (s : State) : Host.Outcome State Fault Refusal :=
  .next (s.command p (fun h => !knownOp (hdrOp h) || (!s.manager && (hdrOp h == 0x60 || hdrOp h == 0x61)))
    (fun t s => s.complete t.cmd 8 0 0 []))

-- CTX_OPEN (R503).

/-- CTX_OPEN of a CLOSED context starts it afresh: counters, clamp record and maps cleared. -/
def State.ctxOpen (t : Taken) (s : State) : State :=
  if (s.ctx t.ctx).st = .closed then
    let s := s.onCtx t.ctx (fun _ => { st := .open_, even := t.f 143 143 == 1, evq := BitVec.ofNat 15 (t.f 142 128) })
    (s.clamps t (t.lengthClamp 0)).complete t.cmd 0 0 0 []
  else (s.clamps t (t.lengthClamp 0)).notPerformed t.cmd

/-- CTX_OPEN. -/
def execCtxOpen (p : Packet) (s : State) : Host.Outcome State Fault Refusal := .next (s.command p (isOp 0x01) State.ctxOpen)

-- CTX_BIND (R52 to R58, R504, R505, R558, R640).

/-- Settings of the Tick unit at the next edge (R505). -/
def TickUnit.nextCfg (k : TickUnit) : TickCfg := k.latched.getD k.eff
/-- Slices per tick at the next edge. -/
def TickUnit.nextSlices (k : TickUnit) : Nat := k.nextCfg.slices.toNat + 1
/-- Nominal period at the next edge, within its range (R26). -/
def TickUnit.nextNom (k : TickUnit) : Nat := k.nextCfg.nomIn

/-- The bind that a context will have at the next edge. -/
def Ctx.coming (x : Ctx) : Option Bind := match x.next with | some b => some b | none => if x.bindLive then some x.bind else none

/-- REALTIME budgets of the other contexts at the next edge (R558). -/
def State.otherBudgets (s : State) (c : Nat) : List Budget :=
  s.easel.ctxs.filterMap (fun p => if p.1 ≠ c ∧ p.2.st = .bound then
    (match p.2.coming with | some b => if b.realtime then some b.budget else none | none => none) else none)

/-- The fallback that a context will have at the next edge: of a bind still pending, and frame repeat in place of a context that is closing
(R58, R506). -/
def State.comingFb (s : State) (d : Nat) : Fallback :=
  match ((s.ctx d).coming.map (·.fb)).getD (s.ctx d).bind.fb with
  | .ctx e => if (s.ctx e).st = .closing then .frameRepeat else .ctx e
  | p => p

/-- Follows the chain of fallbacks from a bind, on those in effect at its edge: it ends in a classical path within four steps and
returns to no context (R58). -/
def State.chainOk (s : State) : Nat → List Nat → Fallback → Bool
  | _, _, .lanczos | _, _, .frameRepeat | _, _, .blend => true
  | 0, _, .ctx _ => false
  | n + 1, seen, .ctx d =>
    !seen.contains d && s.chainOk n (seen ++ [d]) (s.comingFb d)

/-- Energy of a budget in pJ (R639, R646). -/
def Pmu.energy (m : Pmu) (b : Budget) : Nat :=
  10 * m.coefS.toNat * sumN (b.strike.map (·.2)) + 10 * m.coefC.toNat * sumN (b.cycle.map (·.2)) + m.coefB.toNat * b.bytes

/-- The cap in W that will be in force at the next edge; none yet set counts as 75 (R520, R646). -/
def Pmu.comingCap (m : Pmu) : Nat := if m.next ≠ 0 then m.next.toNat else if m.cap = 0 then 75 else m.cap.toNat

/-- Scales every token count by f ÷ 1,024, rounded down. -/
def Budget.scale (b : Budget) (f : Nat) : Budget :=
  { strike := b.strike.map (fun p => (p.1, p.2 * f / 1024)), cycle := b.cycle.map (fun p => (p.1, p.2 * f / 1024)), bytes := b.bytes * f / 1024 }

/-- The factor in 1/1,024 under the power cap (R640); 1,024 where P_est stays within it. A tick of NOM × 10 ns holds
NOM × 10,000 pJ per W, and the base of 9.5 W takes NOM × 95,000 pJ. -/
def Pmu.factor (m : Pmu) (nom others new : Nat) : Nat :=
  let allow := m.comingCap * nom * 10000
  if 95000 * nom + others + new ≤ allow then 1024
  else if new = 0 then 1024 else 1024 * (allow - 95000 * nom - others) / new

/-- P_est in 10 mW (R639). -/
def Pmu.estimate (nom energy : Nat) : Half := satNat 16 (950 + energy / (100 * max 1 nom))

/-- The REALTIME energy admitted now (R639). -/
def State.admitted (s : State) : Nat := sumN ((s.otherBudgets 1024).map s.pmu.energy)

/-- Writes PMU_EST from the admitted budgets. -/
def State.noteEst (s : State) : State :=
  s.onPmu (fun m => { m with est := Pmu.estimate s.tick.nextNom s.admitted })

/-- One token field: limit of the field, capacity left, place of its clamps; answers the tokens and the clamps of field and
admission. -/
def grantBudget (asked limit left place : Nat) : Nat × List Nat × List Nat :=
  let v := min asked limit
  (min v left, bad (decide (limit < asked)) place, bad (decide (left < v)) place)

/-- The budget table of a CTX_BIND (R503) admitted under R53 to R55: the budget, clamps of fields, clamps of admission. -/
def State.admission (s : State) (t : Taken) (realtime : Bool) : Budget × List Nat × List Nat :=
  let nom := s.tick.nextNom
  let others := s.otherBudgets t.ctx
  let left (cap used : Nat) : Nat := if realtime then cap - used else cap
  let st := (List.range 32).map (fun g => (g, grantBudget (fieldB t.payload (4 * g) 4) 4194303
    (left (nom / 4) (sumN (others.map (fun b => look 0 b.strike g)))) (0x8000 + 4 * g)))
  let cy := (List.range 16).map (fun e => (e, grantBudget (fieldB t.payload (128 + 4 * e) 4) 134217727
    (left (8 * nom) (sumN (others.map (fun b => look 0 b.cycle e)))) (0x8000 + 128 + 4 * e)))
  let by_ := grantBudget (fieldB t.payload 192 8) (2 ^ 40 - 1) (left (5120 * nom) (sumN (others.map (·.bytes)))) (0x8000 + 192)
  ({ strike := (st.map (fun p => (p.1, p.2.1))).filter (fun p => p.2 != 0),
     cycle := (cy.map (fun p => (p.1, p.2.1))).filter (fun p => p.2 != 0), bytes := by_.1 },
   st.flatMap (fun p => p.2.2.1) ++ cy.flatMap (fun p => p.2.2.1) ++ by_.2.1,
   st.flatMap (fun p => p.2.2.2) ++ cy.flatMap (fun p => p.2.2.2) ++ by_.2.2)

/-- Easel has lines written to a bank of the Mover by the Mover (R301, R420). -/
def State.easelLines (bank line : Nat) (data : List Byte) (s : State) : State := s.writeLines 2 noCtx bank line data

/-- The bank of the stream descriptors, taken from PAL at the first need (R420). -/
def State.ensureDesc (s : State) : State :=
  match s.mover.descBank with
  | some _ => s
  | none => let r := s.takeBanks 1 2 true false; r.2.onMover (fun m => { m with descBank := r.1.head? })

/-- Lines of the ring of stream queue q: 64 descriptors. -/
def descLine (q : Nat) : Nat := 64 * (q - 8)

/-- A block list goes to the bank that its descriptor names, which becomes the Mover's where it is free (R421, R422). -/
def State.placeList (d : Line) (blocks : List (List Byte)) (s : State) : State :=
  let b := hdrBits d 7 0
  let s := onlyIf ((s.freeBanks true).contains b) (State.takeBank 2 true false b) s
  if (s.bank b).owner = 2 then s.easelLines b (hdrBits d 20 8) blocks.flatten else s

/-- OUTMAX and RATE of a descriptor for its queue (R421, R449). -/
def descLimit (d : Line) : QLimit :=
  { rate := BitVec.ofNat 12 (hdrBits d 100 89)
    outmax := BitVec.ofNat 7 (if hdrBits d 88 82 = 0 then 16 else min 64 (hdrBits d 88 82)) }

/-- Streams in order with their block lists, COUNT blocks each. -/
def listsOf : List Line → List (List Byte) → List (Line × List (List Byte))
  | [], _ => []
  | d :: ds, bs => (d, bs.take (hdrBits d 35 21)) :: listsOf ds (bs.drop (hdrBits d 35 21))

/-- Stream queues in no context's hands. -/
def State.freeQueues (s : State) : List Nat :=
  ((List.range 56).map (· + 8)).filter (fun q => (s.queue q).owner.isNone && !(s.queue q).fenced)

/-- Easel assigns stream queues to a context's streams (R416, R449): descriptors and lists are written, limits committed; surplus
streams lie behind the first queue's own. Answers how many are surplus. -/
def State.assignStreams (c : Nat) (m : CMap) (s : State) : Nat × State :=
  if m.streams.isEmpty then (0, s)
  else
    let s := s.ensureDesc
    let qs := s.freeQueues.take m.streams.length
    let ls := listsOf m.streams m.blocks
    let s := each ls (fun l s => s.placeList l.1 l.2) s
    let bank := s.mover.descBank.getD 0
    let extra := m.streams.length - qs.length
    let s := each (qs.zip m.streams) (fun p s =>
      (if s.mover.descBank.isSome then s.easelLines bank (descLine p.1) (lineBytes p.2) else s).onQueue p.1 (fun x => { x with
        owner := some c, bank := BitVec.ofNat 8 bank, line := BitVec.ofNat 13 (descLine p.1), log2 := 6, shadow := descLimit p.2,
        extra := 0 })) s
    let s := match qs.head? with
      | some q => ((if s.mover.descBank.isSome then
          s.easelLines bank (descLine q + 1) ((m.streams.drop qs.length).flatMap lineBytes) else s).onQueue q (fun x => { x with extra := extra }))
      | none => s
    (extra, (s.onCtx c (fun x => { x with queues := qs })).movCommit)

/-- Starting values of the semaphores and credits of the manifest's buffers (R49, R431). -/
def State.setPairs (c : Nat) (m : CMap) (s : State) : State :=
  each m.buffers (fun b s =>
    (s.onMover (fun v =>
      let put2 (t : SMap Half) : SMap Half := putRaw (2 * b.1) 0 (putRaw (2 * b.1 + 1) (BitVec.ofNat 16 b.2.2) t)
      { v with sems := put2 v.sems, semInit := put2 v.semInit })).onCtx c (fun x => { x with
        sems := x.sems ++ [b.1], credit := putRaw b.1 b.2.2 x.credit })) s

/-- TENSORs of the other bound contexts (R265). -/
def State.otherTensors (s : State) (c : Nat) : List Nat :=
  s.easel.ctxs.flatMap (fun p => if p.1 = c ∨ p.2.st ≠ .bound then [] else
    ((p.2.maps.cur.orElse (fun _ => p.2.maps.a)).getD {}).glaze.map (fun g => g.2.1))

/-- Gives the tensors that another bound context uses the lowest TENSOR that none uses (R265): the tensors, and the records changed. -/
def refitTensors (others : List Nat) : List (Bool × Nat × Nat) → Nat → List Nat → List (Bool × Nat × Nat) × List Nat
  | [], _, _ => ([], [])
  | g :: gs, i, mine =>
    if others.contains g.2.1 then
      let n := ((List.range 0xFF00).find? (fun x => !others.contains x && !mine.contains x)).getD g.2.1
      let r := refitTensors others gs (i + 1) (mine ++ [n])
      ((g.1, n, g.2.2) :: r.1, i :: r.2)
    else let r := refitTensors others gs (i + 1) mine; (g :: r.1, r.2)

/-- The first CTX_BIND of a context (R504): references, stream queues and semaphores; surplus streams count as clamps (R416). -/
def State.firstBind (t : Taken) (s : State) : State :=
  match (s.ctx t.ctx).maps.a with
  | none => s
  | some m =>
    let s := each m.objects (fun o s => s.onObj o (fun b => { b with ref := b.ref + 1 })) s
    let s := s.onCtx t.ctx (fun x => { x with refs := m.objects, firstBind := true })
    let g := refitTensors (s.otherTensors t.ctx) m.glaze 0 (m.glaze.map (fun g => g.2.1))
    let s := s.onCtx t.ctx (fun x => { x with maps := { x.maps with a := some { m with glaze := g.1 } } })
    let s := each g.2 (fun i s => s.clampAt t.ctx 0x02 (0x20000000 + m.glazeAt + 4 * i)) s
    let a := s.assignStreams t.ctx m
    let s := a.2.setPairs t.ctx m
    let n := m.streams.length
    each ((List.range n).filter (fun i => decide (n - a.1 ≤ i))) (fun i s =>
      s.clampAt t.ctx 0x02 (0x20000000 + m.streamAt + 64 * i)) s

/-- CTX_BIND: the budget table is admitted and takes effect at the next edge. -/
def State.ctxBind (t : Taken) (s : State) : State :=
  let x := s.ctx t.ctx
  let mode := t.f 129 128
  let d := t.f 135 130
  let w := t.f 148 136
  let top := s.tick.nextSlices - 1
  let realtime := mode != 1
  let w2 := if w = 0 then 128 else clampN 16 4096 w
  let adm := s.admission t realtime
  let heads := bad (decide (1 < mode)) 128 ++ bad (decide (top < d)) 130 ++ bad (w != w2) 136
  let tail := adm.2.1 ++ t.lengthClamp 4
  if !(x.st == .bound || (x.st == .open_ && x.maps.a.isSome)) then (s.clamps t (heads ++ tail)).notPerformed t.cmd
  else
    let fctx := t.f 163 154
    let kind := t.f 153 152
    let lost := kind == 0 && (fctx == t.ctx || (s.ctx fctx).st != .bound)
    let fb : Fallback := match kind with
      | 0 => if lost then .frameRepeat else .ctx fctx
      | 1 => .lanczos
      | 2 => .frameRepeat
      | _ => .blend
    let s := s.clamps t (heads ++ bad lost 152 ++ bad (!s.chainOk 3 [t.ctx] fb) 152 ++ tail ++ adm.2.2)
    let others := sumN ((s.otherBudgets t.ctx).map s.pmu.energy)
    let f := if realtime then s.pmu.factor s.tick.nextNom others (s.pmu.energy adm.1) else 1024
    let s := if f < 1024 then s.clampAt t.ctx 0x02 0x8000 else s
    let b : Bind := { realtime := realtime, d := min d top, w := 16 * w2, fb := fb, budget := if f < 1024 then adm.1.scale f else adm.1 }
    let s := if x.st = .open_ then s.firstBind t else s
    let s := (s.onCtx t.ctx (fun y => { y with st := .bound, next := some b, maps := { y.maps with everBound := true } })).noteEst.fitPool
    s.complete t.cmd 0 (s.tick.count + 1).toNat 0 []

/-- CTX_BIND. -/
def execCtxBind (p : Packet) (s : State) : Host.Outcome State Fault Refusal := .next (s.command p (isOp 0x02) State.ctxBind)

-- CTX_CLOSE (R506).

/-- CTX_CLOSE fences the context as ABORT does; the rest follows at the next edge. -/
def State.ctxClose (t : Taken) (s : State) : State :=
  let s := s.clamps t (t.lengthClamp 0)
  let st := (s.ctx t.ctx).st
  if st = .open_ ∨ st = .bound then
    (s.onCtx t.ctx (fun x => { x with st := .closing, next := none, closeCmd := some t.cmd, closeFence := true })).fenceCtx t.ctx
  else s.notPerformed t.cmd

/-- CTX_CLOSE. -/
def execCtxClose (p : Packet) (s : State) : Host.Outcome State Fault Refusal := .next (s.command p (isOp 0x03) State.ctxClose)

-- ABORT (R69 to R73, R480, R518).

/-- ABORT of a context: one fence for all that run at once (R533); CLOSING completes at once (R502). -/
def State.abort (c : Cmd) (s : State) : State :=
  let x := s.ctx (hdrCtx c.hdr)
  match x.st with
  | .bound =>
    let s := if x.abortCmds.isEmpty then s.fenceCtx (hdrCtx c.hdr) else s
    s.onCtx (hdrCtx c.hdr) (fun y => { y with abortCmds := y.abortCmds ++ [c] })
  | .closing => s.complete c 0 0 0 []
  | _ => s.notPerformed c

/-- Mailbox slots whose command Easel has taken and not completed. -/
def State.urgentTaken (s : State) : List Nat :=
  s.easel.ctxs.flatMap (fun p => p.2.abortCmds.filterMap (fun c => match c.src with | .urgent n => some n | _ => none))

/-- Easel's urgent handler takes the lowest mailbox slot that waits (R479); only an ABORT is performed (R480). -/
def State.urgentAbort (n : Nat) (s : State) : State :=
  let wait := (List.range 16).filter (fun i => s.link.urgPending.getLsbD i && !s.urgentTaken.contains i)
  if wait.head? ≠ some n then s
  else
    let r := (List.range 8).foldl (fun (a : Nat × State) i =>
      let w := a.2.winRead ((0x1FF800 + 64 * n) / 8 + i)
      (a.1 + w.1.toNat * 2 ^ (64 * i), w.2.2)) (0, s)
    let c : Cmd := { src := .urgent n, hdr := BitVec.ofNat 512 r.1, head := 0, seq := s.easel.nextSeq }
    let s := r.2.onEasel (fun e => { e with nextSeq := e.nextSeq + 1 })
    (if hdrOp c.hdr = 0x32 then s.abort c else s.notPerformed c).flushUrgent

/-- ABORT from a ring, or from a mailbox slot. -/
def execAbort (p : Packet) (urgent : Option Nat) (s : State) : Host.Outcome State Fault Refusal :=
  .next (match urgent with
    | some n => onlyIf (s.serving && s.manager) (State.urgentAbort n) s
    | none => s.command p (isOp 0x32) (fun t s => (s.clamps t (t.lengthClamp 0)).abort t.cmd))

/-- No engine computes a tile of the context (R70). -/
def State.atBoundary (s : State) (c : Nat) : Bool :=
  s.liner.engs.all (fun e => match e.2.tile with | some t => !(t.ctx == c && t.computing) | none => true)

/-- Every ABORT of a context ends and the fence bits clear, so that the context takes tokens from the next edge (R72, R496). -/
def State.abortEnds (ctx : Nat) (s : State) : State :=
  let cs := (s.ctx ctx).abortCmds
  let s := s.onLiner (fun u => { u with engs := u.engs.map (fun p =>
    match p.2.tile with
    | some t => if t.ctx = ctx ∧ t.dead then (p.1, { p.2 with tile := none, phase := p.2.idlePhase }) else p
    | none => p) })
  let s := s.onCtx ctx (fun x => { x with abortCmds := [], fence := x.closeFence || x.linkFence || x.powerFence })
  each cs (fun c s => s.complete c 0 0 0 []) s

/-- Every ABORT of a context completes, and those of the mailbox post their answers (R478). -/
def State.abortDone (ctx : Nat) (s : State) : State := (s.abortEnds ctx).flushUrgent

/-- ABORT_COMPLETION (R72): the units have reached safe boundaries. -/
def execAbortCompletion (ctx : Nat) (s : State) : Host.Outcome State Fault Refusal :=
  .next (onlyIf (s.serving && !(s.ctx ctx).abortCmds.isEmpty && s.atBoundary ctx) (State.abortDone ctx) s)

end Sys2Proof.Machine
end

