-- ==== Sys2Proof/Machine/Objects.lean ====
section
/-! DEFINITION. The object commands (R341, R348 to R352, R374, R507 to R510). -/

namespace Sys2Proof.Machine

-- What a swatch holds.

/-- What a command finds of a swatch: data, tag, whether it can be read and verifies (R344, R396), whether its bank is dark (R310). -/
structure SwatchView where
  data : List Byte
  tag : List Byte
  good : Bool := true
  dark : Bool := false
deriving DecidableEq, Repr

/-- Reads an entry's own slot. -/
def State.slotNow (e : Entry) (s : State) : SwatchView × State :=
  let r := s.readSlot e.bank e.slot
  ({ data := r.1.1, tag := r.1.2.1, good := !r.1.2.2, dark := !(s.bank e.bank).on }, r.2)

/-- What comes from beyond the stack. -/
def farView (o i : Nat) (far : List Byte) : SwatchView :=
  let d := slice far 0 16384
  let t := slice far 16384 64
  { data := d, tag := t, good := tagOk o i d t }

/-- What the home tier holds of a swatch. Tiers beyond the stack answer with `far`; so does a read that cannot be corrected. -/
def State.homeNow (o i : Nat) (far : List Byte) (s : State) : SwatchView × State :=
  let h := s.homeOf o i
  match h.1, s.sw.homeEntry o i with
  | 1, some p => s.slotNow p.2
  | 4, _ =>
    let d := s.tierData o i h.1 h.2 true far
    (if d.1.2.2 then { data := d.1.1, tag := d.1.2.1, good := tagOk o i d.1.1 d.1.2.1 } else { farView o i far with good := false }, d.2)
  | _, _ => (farView o i far, s)

/-- What a command reads of a swatch (R347): its RESIDENT copy, else its home, with the writes that wait for a fill. -/
def State.swatchNow (o i : Nat) (far : List Byte) (s : State) : SwatchView × State :=
  match s.sw.copy o i with
  | some (_, e) =>
    if e.st = .resident ∨ e.st = .evicting then
      (if e.t2 then (let v := farView o i far; { v with data := patch v.data e.writes }, s) else s.slotNow e)
    else match e.fresh with
      | some f => ({ data := patch f.1 e.writes, tag := f.2 }, s)
      | none => let d := s.homeNow o i far; ({ d.1 with data := patch d.1.data e.writes }, d.2)
  | none =>
    let d := s.homeNow o i far
    let ws := (s.sw.homeWr.filter (fun x => x.1 == o && x.2.1 == i)).map (fun x => (x.2.2.1, x.2.2.2))
    ({ d.1 with data := patch d.1.data ws }, d.2)

/-- The bytes of swatch i of those that the row brings from index `first` on. -/
def farOf (remote : List Byte) (first i : Nat) : List Byte := slice remote (16448 * (i - first)) 16448

-- OBJ_DEFINE (R507, R508).

/-- Service mode of the Plan chest keeps OBJ_ commands off objects homed in T4 (R408). -/
def State.serviceBars (s : State) (home : Nat) : Bool := s.chest.eff.service && home == 4

/-- HOME with an undefined value as T3 (R349). -/
def homeField (x : Nat) : Nat := if x = 0 ∨ 5 < x then 3 else x
/-- DCLASS with 3 as FRAME. -/
def classField (x : Nat) : Nat := if x = 3 then 1 else x

/-- Bytes of the user space of the Plan chest that are not lent (R595). -/
def State.userSpace (s : State) : Nat := 2 ^ 34 - s.fab.lend.chest.toNat * 2 ^ 30

/-- The largest SIZE of an object homed in T3 to T5 (R341): data and tags of an object in T4 fit the user space left, in T5 the region that the lender's
last HEARTBEAT told of, or 16 GiB before it has told of one (log 112). -/
def State.homeSize (s : State) (home base size : Nat) : Nat :=
  match home with
  | 4 => min size (s.userSpace / 16448)
  | 5 => max 1 (min size ((min (2 ^ 34) (look 16 s.sw.lent5 (base / 2 ^ 59 % 32) * 2 ^ 30) - base % 2 ^ 34) / 16448))
  | _ => size

/-- BASE of an object homed in T4 (R385, R595): a multiple of 16 KiB whose data and tags end in the user space left. -/
def State.baseField (s : State) (home size base : Nat) : Nat :=
  if home = 4 then min (base / 16384 * 16384) ((s.userSpace - size * 16448) / 16384 * 16384) else base

/-- Easel gets a record bank for the object's range where it has none (R720); false where no bank is free. -/
def State.recordBank (o : Nat) (s : State) : Bool × State :=
  if s.sw.records.any (fun p => p.1 == o / 16384) then (true, s)
  else
    let r := s.takeBanks 1 6 true false
    match r.1.head? with
    | some b => (true, r.2.onSw (fun w => { w with records := putRaw (o / 16384) b w.records }))
    | none => (false, s)

/-- The record bank of a range goes back with the last object of the range. -/
def State.freeRecord (o : Nat) (s : State) : State :=
  if s.sw.objs.any (fun p => p.1 / 16384 == o / 16384) then s
  else
    let bs := (s.sw.records.filter (fun p => p.1 == o / 16384)).map (·.2)
    (s.onSw (fun w => { w with records := eraseKey (o / 16384) w.records })).giveBanks bs

/-- OBJ_DEFINE of an object that no bound context names. -/
def State.objDefine (t : Taken) (s : State) : State :=
  let o := t.f 147 128
  let size0 := max 1 (t.f 177 148)
  let home := homeField (t.f 180 178)
  let heads := bad (t.f 180 178 != home) 178 ++ bad (t.f 187 186 == 3) 186
  let heads0 := bad (t.f 177 148 == 0) 148 ++ heads
  let tail := t.lengthClamp 0
  let old := s.obj o
  let referenced := match old with | some b => decide (0 < b.ref) | none => false
  let barred := s.serviceBars home || s.serviceBars ((old.map (fun b => b.home.toNat)).getD 0)
  if referenced || barred then (s.clamps t (heads0 ++ tail)).notPerformed t.cmd
  else
    let t1 := s.dropObj o
    let size := if home ≤ 2 then t1.sw.homeFit o size0 0 (t1.sw.freeSlots (home == 2)) [] else t1.homeSize home (t.f 255 192) size0
    let r := t1.recordBank o
    if size = 0 ∨ !r.1 then (s.clamps t (heads0 ++ tail)).notPerformed t.cmd
    else
      let base := s.baseField home size (t.f 255 192)
      let s := r.2.clamps t (bad (t.f 177 148 != size) 148 ++ heads ++ bad (t.f 255 192 != base) 192 ++ tail)
      let b : Obj := {
        home := BitVec.ofNat 3 home, allow := BitVec.ofNat 5 (t.f 185 181), dclass := BitVec.ofNat 2 (classField (t.f 187 186))
        pin := t.f 188 188 == 1, ro := t.f 189 189 == 1, size := size, base := BitVec.ofNat 64 base, master := BitVec.ofNat 64 (t.f 319 256) }
      let s := s.onSw (fun w => { w with objs := putRaw o b w.objs, placing := w.placing ++ [{ cmd := t.cmd, obj := o }] })
      (if home ≤ 2 then each (List.range size) (fun i s => s.takeHome o i (home == 2)) s else s).settle

/-- OBJ_DEFINE. -/
def execObjDefine (p : Packet) (s : State) : Host.Outcome State Fault Refusal :=
  .next (s.command p (fun h => isOp 0x10 h && hdrBits h 9 9 == 0) State.objDefine)

/-- The units that an undefined object covered read as zeros (R392), in the lender's user space too. -/
def State.clearHome (b : Obj) (s : State) : State :=
  let n := b.size * 16448
  match b.home.toNat with
  | 4 => s.chestClear b.base.toNat n
  | 5 =>
    let a := b.base.toNat % 2 ^ 34
    each ((List.range ((a + n + 16383) / 16384 - a / 16384)).map (fun i => a / 16384 + i)) (fun u s =>
      s.weave (b.base.toNat / 2 ^ 59) 0x42 4 (u * 256) 1 (List.replicate 16384 0)) s
  | _ => s

/-- OBJ_DEFINE with UNDEF undefines the object and ignores its other fields. -/
def State.objUndefine (t : Taken) (s : State) : State :=
  let o := t.f 147 128
  let s := s.clamps t (t.lengthClamp 0)
  match s.obj o with
  | none => s.complete t.cmd 0 o 0 []
  | some b =>
    if 0 < b.ref ∨ s.serviceBars b.home.toNat then s.notPerformed t.cmd
    else
      let s := (s.dropObj o).onSw (fun w => { w with objs := eraseKey o w.objs })
      ((s.clearHome b).freeRecord o).complete t.cmd 0 o 0 []

/-- OBJ_DEFINE with UNDEF. -/
def execObjDefineUndef (p : Packet) (s : State) : Host.Outcome State Fault Refusal :=
  .next (s.command p (fun h => isOp 0x10 h && hdrBits h 9 9 == 1) State.objUndefine)

-- OBJ_WRITE (R347, R373, R509).

/-- OBJ_WRITE stores a swatch in its home and in any RESIDENT copy; a whole one verifies a POISONED swatch (R373). -/
def State.storeSwatch (c : Cmd) (o i : Nat) (whole : Bool) (data tag : List Byte) (s : State) : State :=
  let n := s.chest.buffer.length
  let s := ((s.writeHome o i (hdrCtx c.hdr) data tag).markWrites n c.seq).onSw (fun w => { w with
    homeWr := w.homeWr.filter (fun x => !(x.1 == o && x.2.1 == i)) })
  match s.sw.copy o i with
  | none => s
  | some (k, e) =>
    match e.st with
    | .resident => (s.entryPut e data tag).onEntry k (fun x => { x with
        dirty := false, rewrite := false, fresh := if x.wb || x.whole then some (data, tag) else none })
    | .poisoned => if whole then s.verified k e data tag else s
    | .promoting => s.onEntry k (fun x => { x with writes := [], fresh := some (data, tag) })
    | .evicting => (s.entryPut e data tag).onEntry k (fun x => { x with fresh := some (data, tag) })

/-- The swatches of an OBJ_WRITE without TAGS: index, data, tag, whether it is written whole, bytes (R390, R344). -/
def State.writeItems (s : State) (o size off : Nat) (data remote : List Byte) : List (Nat × List Byte × List Byte × Bool × Nat) :=
  let stop := min (off + data.length) (size * 16384)
  (List.range ((stop + 16383) / 16384 - off / 16384)).map (fun k =>
    let i := off / 16384 + k
    let lo := max off (16384 * i)
    let hi := min stop (16384 * (i + 1))
    let old := (s.swatchNow o i (farOf remote (off / 16384) i)).1
    let d := old.data.take (lo - 16384 * i) ++ slice data (lo - off) (hi - lo) ++ old.data.drop (hi - 16384 * i)
    (i, d, makeTag o i 0 (tagGen old.tag + 1) d, hi - lo == 16384, hi - lo))

/-- Swatches of which an OBJ_WRITE stores a part are read first; their lines are checked as they are read (R316, R390). -/
def State.readParts (o off : Nat) (items : List (Nat × List Byte × List Byte × Bool × Nat)) (remote : List Byte) (s : State) : State :=
  each (items.filter (fun x => !x.2.2.2.1)) (fun x s => (s.swatchNow o x.1 (farOf remote (off / 16384) x.1)).2) s

/-- The swatches of an OBJ_WRITE with TAGS. -/
def tagItems (size off : Nat) (data : List Byte) : List (Nat × List Byte × List Byte × Bool × Nat) :=
  ((List.range (data.length / 16448)).map (fun k =>
    let u := slice data (16448 * k) 16448
    (off / 16384 + k, u.take 16384, u.drop 16384, true, 16448))).filter (fun x => decide (x.1 < size))

/-- OBJ_WRITE. -/
def State.objWrite (remote : List Byte) (t : Taken) (s : State) : State :=
  let o := t.f 147 128
  let tags := t.f 9 9 == 1
  let unit := if tags then 16384 else 64
  let off := t.f 191 148 / unit * unit
  let s := s.clamps t (bad (t.f 191 148 != off) 148)
  match s.obj o with
  | none => s.notPerformed t.cmd
  | some b =>
    if s.serviceBars b.home.toNat then s.notPerformed t.cmd
    else if b.home.toNat = 4 ∧ !s.chestWritable then s.complete t.cmd 3 0 0 []
    else
      let rest := if tags then t.payload.length % 16448 else 0
      let s := if rest ≠ 0 then s.clampAt t.ctx 0x11 (0x8000 + (t.payload.length - rest)) else s
      let items := if tags then tagItems b.size off t.payload else s.writeItems o b.size off t.payload remote
      let bytes := sumN (items.map (fun x => x.2.2.2.2))
      let s := if tags then s else s.readParts o off items remote
      let s := if bytes < t.payload.length - rest then s.unmapped else s
      let s := each items (fun x s => s.storeSwatch t.cmd o x.1 x.2.2.2.1 x.2.1 x.2.2.1) s
      let far := b.home.toNat == 5 || b.home.toNat == 2
      if far && !items.isEmpty then s.onSw (fun w => { w with acks := w.acks ++ [(t.cmd, o, items.map (·.1), bytes / 64)] })
      else (s.onChest (fun c => { c with waits := c.waits ++ [(t.cmd, bytes / 64)] })).durable

/-- OBJ_WRITE. -/
def execObjWrite (p : Packet) (remote : List Byte) (s : State) : Host.Outcome State Fault Refusal :=
  .next (s.command p (isOp 0x11) (State.objWrite remote))

/-- A swatch of an OBJ_WRITE has been acknowledged by its far tier: answers whether one waited for it. -/
def State.writeAcked (o i : Nat) (s : State) : Bool × State :=
  match s.sw.acks.find? (fun a => a.2.1 == o && a.2.2.1.contains i) with
  | none => (false, s)
  | some a =>
    let left := a.2.2.1.erase i
    if left.isEmpty then
      (true, (s.onSw (fun w => { w with acks := w.acks.filter (fun x => x.1.seq != a.1.seq) })).complete a.1 0 a.2.2.2 0 [])
    else (true, s.onSw (fun w => { w with acks := w.acks.map (fun x => if x.1.seq = a.1.seq then (x.1, x.2.1, left, x.2.2.2) else x) }))

-- OBJ_READ (R365, R374, R495, R510).

/-- Payload bytes that a completion of the command can carry (R495). -/
def State.dataLimit (s : State) (c : Cmd) : Nat :=
  64 * min 65535 (match c.src with | .ring r => (s.ring (s.ring r).cq).size - 1 | _ => 65535)

/-- A command reads a swatch (R361 to R365): a copy is pinned, and wins over its eviction (R364); a read of the home asks for a promotion; a read of an
object with RO = 1 that fails poisons the swatch (R368). -/
def State.noteAccess (o i : Nat) (ok : Bool) (s : State) : State :=
  let ro := ((s.obj o).map (·.ro)).getD false
  match s.sw.copy o i, s.obj o with
  | some (k, e), _ =>
    if e.st = .poisoned then s
    else if !ok && ro && (e.t2 || e.st == .promoting) then s.poison o i (!(e.st == .resident || e.st == .evicting))
    else
      let s := s.onEntry k (fun x => { x with ppin := true, use := true })
      if e.st = .evicting then s.raceWon k else s
  | none, some b =>
    if !ok then (if b.ro && b.home != 1 then s.poison o i true else s)
    else match b.copyTier with
      | none => s
      | some t2 =>
        let r := s.newEntry o i t2 true
        if r.1.isSome then r.2.queueMove { kind := .demand, obj := o, idx := i, cls := b.dclass.toNat } else r.2
  | none, none => s

/-- The swatches of a range read in order: bytes, whether one was POISONED, whether one was dark, the state. -/
def State.readSwatches (o first : Nat) (remote : List Byte) : List Nat → State → List Byte × Bool × Bool × State
  | [], s => ([], false, false, s)
  | i :: is, s =>
    let was := s.poisoned o i
    let d := if was then ({ data := [], tag := [] }, s) else s.swatchNow o i (farOf remote first i)
    let s := d.2.noteAccess o i d.1.good
    let pois := was || s.poisoned o i
    let r := State.readSwatches o first remote is s
    ((if pois then List.replicate 16384 0 else slice d.1.data 0 16384) ++ r.1, pois || r.2.1, (!pois && d.1.dark) || r.2.2.1, r.2.2.2)

/-- A context's trained copies as the object that holds them (R230): the FP32 masters of A and B, their momenta, the BF16 copies in use (log 117). -/
def LowRank.bytes (w : LowRank) : List Byte :=
  (w.a ++ w.b ++ w.ma ++ w.mb).flatMap (fun x => bytesOf 4 x.toNat) ++ (w.useA ++ w.useB).flatMap (fun x => bytesOf 2 x.toNat)

/-- The trained copies that an object number stands for, if it does (R230). -/
def State.trained (s : State) (o : Nat) : Option (List Byte) :=
  s.easel.ctxs.findSome? (fun p => (p.2.low.find? (fun w => (Config.retouchObj p.1 w.1).toNat == o)).map (fun w => w.2.bytes))

/-- OBJ_READ of n bytes of an object that holds trained copies; what lies beyond them reads as unmapped (R342). -/
def State.readTrained (c : Cmd) (bs : List Byte) (off n : Nat) (s : State) : State :=
  (if bs.length < off + n then s.unmapped else s).complete c 0 (n / 64) 0 (slice bs off n)

/-- OBJ_READ returns LEN bytes; a POISONED swatch reads as zero. -/
def State.objRead (remote : List Byte) (t : Taken) (s : State) : State :=
  let o := t.f 147 128
  let off := t.f 191 148 / 64 * 64
  let len := clampN 64 4194304 ((t.f 214 192 + 63) / 64 * 64)
  let s := s.clamps t (bad (t.f 191 148 != off) 148 ++ bad (t.f 214 192 != len) 192 ++ t.lengthClamp 0)
  match s.obj o with
  | none => (match s.trained o with
    | some bs => let lim := s.dataLimit t.cmd; (if lim < len then s.clampAt t.ctx 0x12 192 else s).readTrained t.cmd bs off (min len lim)
    | none => s.notPerformed t.cmd)
  | some b =>
    if s.serviceBars b.home.toNat then s.notPerformed t.cmd
    else
      let lim := s.dataLimit t.cmd
      let s := if lim < len then s.clampAt t.ctx 0x12 192 else s
      let len := min len lim
      let stop := min (off + len) (b.size * 16384)
      let first := off / 16384
      let s := if b.size * 16384 < off + len then s.unmapped else s
      let r := State.readSwatches o first remote ((List.range ((stop + 16383) / 16384 - first)).map (first + ·)) s
      let data := slice (slice r.1 (off % 16384) (stop - off)) 0 len
      r.2.2.2.complete t.cmd (if r.2.1 then 4 else if r.2.2.1 then 6 else 0) (len / 64) 0 data

/-- OBJ_READ. -/
def execObjRead (p : Packet) (remote : List Byte) (s : State) : Host.Outcome State Fault Refusal :=
  .next (s.command p (isOp 0x12) (State.objRead remote))

-- OBJ_PLACE (R350 to R352).

/-- The new home place can be had: it is another, no bound context names the object, and T1 or T2 has slots and ways. -/
def State.canMove (s : State) (o home : Nat) (b : Obj) : Bool :=
  b.ref == 0 && (decide (2 < home) || s.sw.homeFit o b.size 0 (s.sw.freeSlots (home == 2)) [] == b.size)

/-- OBJ_PLACE. -/
def State.objPlace (t : Taken) (s : State) : State :=
  let o := t.f 147 128
  let home := homeField (t.f 180 178)
  let size := s.objSize o
  let base := s.baseField home size (t.f 255 192)
  let s := s.clamps t (bad (t.f 180 178 != home) 178 ++ bad (t.f 187 186 == 3) 186 ++
    bad ((s.obj o).isSome && t.f 255 192 != base) 192 ++ t.lengthClamp 0)
  match s.obj o with
  | none => s.notPerformed t.cmd
  | some b =>
    if s.serviceBars b.home.toNat || s.serviceBars home then s.notPerformed t.cmd
    else
      let s := s.fitPool.onObj o (fun x => { x with
        allow := BitVec.ofNat 5 (t.f 185 181), dclass := BitVec.ofNat 2 (classField (t.f 187 186)), pin := t.f 188 188 == 1
        master := BitVec.ofNat 64 (t.f 319 256) })
      let other := b.home.toNat != home || (decide (2 < home) && b.base.toNat != base)
      let go := other && s.canMove o home b
      let s := if other && !go then s.clampAt t.ctx 0x13 178 else s
      let all := List.range b.size
      let p : Placing := {
        cmd := t.cmd, obj := o, left := if go then all else [], oldHome := b.home, oldBase := b.base, pins := t.f 188 188 == 1 }
      let s := s.onSw (fun w => { w with placing := w.placing ++ [p] })
      let s := if go then
          let s := s.onObj o (fun x => { x with home := BitVec.ofNat 3 home, base := BitVec.ofNat 64 base })
          each all (fun i s => s.queueMove { kind := .homeMove, obj := o, idx := i, cls := classField (t.f 187 186) }) s
        else s.sendAway
      s.settle

/-- OBJ_PLACE. -/
def execObjPlace (p : Packet) (s : State) : Host.Outcome State Fault Refusal := .next (s.command p (isOp 0x13) State.objPlace)

end Sys2Proof.Machine
end

