-- ==== Sys2Proof/Machine/Models.lean ====
section
/-! DEFINITION. Canvas manifests and MODEL_STAGE (R84, R104, R117, R169, R170, R205, R239, R265, R424, R511, R534 to R551), and
MODEL_SWITCH (R171, R511, R561). -/

namespace Sys2Proof.Machine

-- Sections (R535 to R537, R546).

/-- WHERE of a clamp in a manifest (R500): the offset of a header, directory entry or record. -/
def atMan (off : Nat) : Nat := 0x20000000 + off

/-- Record size and limit of a section type (R537, R546); a TYPE without limit has a high one. -/
def sectionOf (ty : Nat) : Option (Nat × Nat) :=
  let none_ := 2 ^ 32
  match ty with
  | 1 => some (8, 512)
  | 2 => some (4, none_)
  | 3 => some (32, 1024)
  | 4 => some (8, 16384)
  | 5 => some (8, 1048576)
  | 6 => some (64, 1024)
  | 7 => some (256, 256)
  | 8 => some (4, 1024)
  | 9 => some (8, none_)
  | 10 => some (64, 56)
  | 11 => some (32, 65536)
  | 12 => some (8, none_)
  | 13 => some (8, none_)
  | 14 => some (2048, none_)
  | 15 => some (16, 16)
  | 16 => some (4, 256)
  | 17 => some (256, none_)
  | _ => none

/-- A section as read: its type, its offset and its whole records. -/
structure Sect where
  ty : Nat
  off : Nat
  count : Nat
deriving DecidableEq, Repr

/-- One directory entry (R537): the section, the first of its TYPE, and its clamps. -/
def dirEntry (man : List Byte) (i : Nat) (a : List Sect × List Nat) : List Sect × List Nat :=
  let e := fieldB man (64 + 16 * i) 16
  let loc := atMan (64 + 16 * i)
  match sectionOf (bits e 15 0) with
  | none => (a.1, a.2 ++ [loc])
  | some (size, limit) =>
    if a.1.any (fun x => x.ty == bits e 15 0) then a
    else
      let have_ := min (bits e 111 80) (man.length - bits e 79 48)
      let count := bits e 47 16
      let n := if have_ < count * size then have_ / size else count
      (a.1 ++ [{ ty := bits e 15 0, off := bits e 79 48, count := min n limit }], a.2 ++ bad (n != count) loc ++ bad (decide (limit < n)) loc)

/-- Entries of the directory: 1 to 32 (R535). -/
def dirCount (man : List Byte) : Nat := clampN 1 32 (fieldB man 7 1)

/-- The sections of a manifest and the clamps of header and directory. -/
def sectionsOf (man : List Byte) : List Sect × List Nat :=
  (List.range (dirCount man)).foldl (fun a i => dirEntry man i a) ([], bad (fieldB man 7 1 != dirCount man) (atMan 0))

/-- The first PLACE entry: its place in the directory, OFFSET and LEN. -/
def placeOf (man : List Byte) : Option (Nat × Nat × Nat) :=
  ((List.range (dirCount man)).map (fun i => (64 + 16 * i, fieldB man (64 + 16 * i) 16))).findSome? (fun p =>
    if bits p.2 15 0 = 2 then some (p.1, bits p.2 79 48, bits p.2 111 80) else none)

/-- Bytes off to off + n as zeros. -/
def zeroAt (bs : List Byte) (off n : Nat) : List Byte := bs.take off ++ List.replicate (min n (bs.length - off)) 0 ++ bs.drop (off + n)

/-- The bytes without the PLACE section (R535, R678). -/
def withoutPlace (man : List Byte) (bs : List Byte) : List Byte :=
  match placeOf man with | some p => bs.take p.2.1 ++ bs.drop (p.2.1 + p.2.2) | none => bs

/-- MCRC as computed (R535). -/
def manifestCrc (man : List Byte) : Nat :=
  let z := zeroAt man 8 4
  crc32 (withoutPlace man (match placeOf man with | some p => zeroAt z p.1 16 | none => z))

/-- The records of a section, with their offsets, as numbers. -/
def recsOf (man : List Byte) (ss : List Sect) (ty : Nat) : List (Nat × Nat) :=
  match ss.find? (fun x => x.ty == ty), sectionOf ty with
  | some x, some (size, _) => (List.range x.count).map (fun i => (x.off + size * i, fieldB man (x.off + size * i) size))
  | _, _ => []

-- Records (R539 to R545).

/-- The nearest multiple of 8, the lower one on a tie (R84, R205). -/
def near8 (v : Nat) : Nat := if 4 < v % 8 then v / 8 * 8 + 8 else v / 8 * 8

/-- A column record (R543). -/
def colRec (r : Nat) : ColRec := { k := signed 32 r, scale := BitVec.ofNat 16 (bits r 47 32), bias := BitVec.ofNat 16 (bits r 63 48) }

/-- A segment record with its fields clamped (R84, R541); the place in it is the image's (R545), no place drops it. -/
def segOf (images : List Nat) (place : List Nat) (layer ord : Nat) (twin : Bool) (r : Nat) : Seg :=
  let row0 := bits r 19 10
  let col0 := min 248 (near8 (bits r 38 31))
  let img := bits r 63 48
  let pl := place.getD img 0
  { layer := layer, ord := ord, twin := twin, img := { obj := images.getD img 0 / 2 ^ 44, off := images.getD img 0 % 2 ^ 44 }
    grp := bits pl 8 4, slot := bits pl 3 0, replica := bits r 5 2, rowseg := bits r 9 6, row0 := row0
    rows := clampN 1 (1024 - row0) (bits r 30 20), col0 := col0, cols := clampN 8 (256 - col0) (near8 (bits r 47 39))
    dropped := decide (images.length ≤ img ∨ place.length ≤ img) }

/-- Clamps of a segment record. -/
def segClamps (r : Nat × Nat) : List Nat :=
  let g := segOf [] [] 0 0 false r.2
  bad (g.rows != bits r.2 30 20) (atMan r.1) ++ bad (g.col0 != bits r.2 38 31) (atMan r.1) ++ bad (g.cols != bits r.2 47 39) (atMan r.1)

/-- Segments n records from first, with the offsets of their records and the records; records that are not there are left out. -/
def pickSegs (images place : List Nat) (recs : List (Nat × Nat)) (layer first n : Nat) (twin : Bool) : List (Seg × Nat × Nat) :=
  (List.range n).filterMap (fun k => (recs[first + k]?).map (fun r => (segOf images place layer k twin r.2, r)))

/-- A panel layer record (R542) without its table: NLT holds for the formats of the activation unit alone (R101, R102). -/
def playerOf (segRecs cols : List (Nat × Nat)) (r : Nat) : PLayer :=
  let out := if 5 < bits r 3 1 then 0 else bits r 3 1
  let mine := (segRecs.drop (bits r 159 144)).take (bits r 175 160)
  let twins := (segRecs.drop (bits r 191 176)).take (bits r 175 160)
  { window := BitVec.ofNat 2 (bits r 7 6), abits4 := bit r 5, asigned := bit r 4, out := BitVec.ofNat 3 out
    ckta := bits r 15 8, cktr := min 256 (bits r 24 16), twin := bit r 25 && twins.length == bits r 175 160, subst := bit r 26
    substLe := bits r 30 27, noTable := decide (mine.length < bits r 175 160)
    cols := ((cols.drop (bits r 239 208)).take (sumN (mine.map (fun x => (segOf [] [] 0 0 false x.2).cols)))).map (fun x => colRec x.2) }

/-- Clamps of a panel layer record (R84, R117). -/
def playerClamps (r : Nat × Nat) : List Nat := bad (decide (5 < bits r.2 3 1)) (atMan r.1) ++ bad (decide (256 < bits r.2 24 16)) (atMan r.1)

/-- The table that a panel layer applies, if its format takes one: index in TABLES. -/
def tableIndex (r : Nat) : Option Nat := if bit r 0 && decide (bits r 3 1 < 4 ∨ 5 < bits r 3 1) then some (bits r 207 192) else none

/-- ESET of a Liner layer: PLACE's where it is not 0, else the record's, 0 as the substitute's engine of HIGHSRC or LE0 (R205,
R545). -/
def esetOf (players : List PLayer) (place r : Nat) : Nat :=
  let own := bits r 367 352
  let h := players.getD (bits r 283 274) {}
  if place % 65536 ≠ 0 then place % 65536
  else if own ≠ 0 then own
  else if h.subst then 2 ^ h.substLe else 1

/-- TCOST and TCOSTW of a layer whose tile would compute for more than 512 cycles, its vector count cut (R197): a tile of v vectors loads v × K
activations, none where the layer adds parts alone (R210), and computes v times the cycles of one vector on one block of 64 columns (R210, R225; log
92). No attention tile computes for longer (R213). -/
def LLayer.fitCost (l : LLayer) : LLayer :=
  let per := l.cyclesOf 1 1 1
  let load := if l.kind = 3 then 0 else l.k * l.aBits / 8
  let v := (l.tcost - 64) * 256 / max 1 (load + 256 * per)
  if decide (512 < v * per) then
    let n := max 1 (512 / per)
    let cost := 64 + ceilDiv (n * load) 256 + n * per
    { l with tcost := cost, tcostw := l.tcostw - (l.tcost - cost) }
  else l

/-- A Liner layer record (R204, R205, R544), but for the clamp of R197. -/
def llayerRec (players : List PLayer) (cols : List (Nat × Nat)) (place r : Nat) : LLayer :=
  let enum (x top d : Nat) : Nat := if top < x then d else x
  { kind := BitVec.ofNat 3 (enum (bits r 214 212) 5 0), fmt := BitVec.ofNat 3 (enum (bits r 217 215) 5 0), fp8w := bit r 218, fp8a := bit r 219
    wsign := bit r 220, asign := bit r 221, stream := bit r 222, stateful := bit r 223, mask := bit r 224
    headdim := BitVec.ofNat 2 (enum (bits r 226 225) 2 1), kw := max 1 (bits r 229 227), kh := max 1 (bits r 232 230)
    rank := clampN 8 64 (near8 (bits r 239 233)), groups := clampN 1 1024 (bits r 250 240), stagger := bits r 260 251
    win := clampN 1 4096 (bits r 273 261), highsrc := bits r 283 274, m := bits r 299 284, k := bits r 319 300
    tcostw := bits r 335 320, tcost := bits r 351 336, eset := BitVec.ofNat 16 (esetOf players place r), swwait := bits r 383 368
    alpha := BitVec.ofNat 16 (bits r 399 384), loop := bits r 211 208, waddr := BitVec.ofNat 64 (bits r 511 448)
    cols := ((cols.drop (bits r 447 416)).take (bits r 299 284)).map (fun x => colRec x.2) }

/-- A Liner layer record with its clamps (R197, R205). -/
def llayerOf (players : List PLayer) (cols : List (Nat × Nat)) (place r : Nat) : LLayer := (llayerRec players cols place r).fitCost

/-- Clamps of a Liner layer record, one for each field changed (R205), and one for a tile cut to 512 cycles (R197). DESIGN CHOICE (log 116): an ESET of
0 in the record counts even where PLACE then names the set (R545). -/
def llayerClamps (r : Nat × Nat) : List Nat :=
  let l := llayerOf [] [] 0 r.2
  [l.kind.toNat != bits r.2 214 212, l.fmt.toNat != bits r.2 217 215, l.headdim.toNat != bits r.2 226 225, l.kw != bits r.2 229 227,
    l.kh != bits r.2 232 230, l.rank != bits r.2 239 233, l.groups != bits r.2 250 240, l.win != bits r.2 273 261,
    bits r.2 367 352 == 0, (llayerRec [] [] 0 r.2).tcost != l.tcost].flatMap (fun b => bad b (atMan r.1))

/-- A number with bits hi..lo replaced. -/
def putBits (x hi lo v : Nat) : Nat := x - bits x hi lo * 2 ^ lo + v % 2 ^ (hi + 1 - lo) * 2 ^ lo

/-- COUNT of a stream descriptor: blocks that fit in its bank (R424). -/
def streamCount (r : Nat) : Nat := min (clampN 1 16384 (bits r 35 21)) (2 * (8192 - bits r 20 8))

/-- CHAIN of a stream descriptor, 3 as SEMA (R421). -/
def streamChain (r : Nat) : Nat := if bits r 55 54 = 3 then 2 else bits r 55 54

/-- Clamps of a stream descriptor. -/
def streamClamps (r : Nat × Nat) : List Nat :=
  bad (streamCount r.2 != bits r.2 35 21) (atMan r.1) ++ bad (bits r.2 55 54 == 3) (atMan r.1)

/-- A block descriptor with its fields clamped (R424): byte addresses are rounded down to a line, LEN up. -/
def blockOf (r : Nat) : Nat :=
  let line (sp a : Nat) : Nat := if sp ≤ 1 then a / 64 * 64 else a
  let r1 := putBits r 63 0 (line (bits r 152 151) (bits r 63 0))
  let r2 := putBits r1 127 64 (line (bits r 154 153) (bits r 127 64))
  putBits r2 150 128 (clampN 64 4194304 ((bits r 150 128 + 63) / 64 * 64))

/-- A PREF block that does not read the Gallery is removed (R424). -/
def badPref (r : Nat) : Bool := bit r 172 && bits r 152 151 != 0

/-- Clamps of a block descriptor. -/
def blockClamps (r : Nat × Nat) : List Nat :=
  let b := blockOf r.2
  bad (bits b 63 0 != bits r.2 63 0) (atMan r.1) ++ bad (bits b 127 64 != bits r.2 127 64) (atMan r.1) ++
    bad (bits b 150 128 != bits r.2 150 128) (atMan r.1) ++ bad (badPref r.2) (atMan r.1)

/-- Descriptors with the blocks of their lists, COUNT each from the first block on; removed blocks leave the list. -/
def streamLists (ctx : Nat) : List (Nat × Nat) → List (Nat × Nat) → List (Line × List (List Byte))
  | [], _ => []
  | r :: rs, bs =>
    let mine := ((bs.take (streamCount r.2)).map (·.2)).filter (fun b => !badPref b)
    let d := putBits (putBits (putBits r.2 35 21 mine.length) 55 54 (streamChain r.2)) 73 64 ctx
    (BitVec.ofNat 512 d, mine.map (fun b => bytesOf 32 (blockOf b))) :: streamLists ctx rs (bs.drop (streamCount r.2))

/-- A block that bars its chain from FUSED (R432): a HOST side, a PALETTE side acting for Easel, or a PORT of the Fabric unit. -/
def barsFused (b : List Byte) : Bool :=
  let side (sp agent addr : Nat) : Bool := sp == 1 || (sp == 2 && agent == 1) || (sp == 3 && addr % 256 == 9)
  side (blkSp b) (blkBits b 162 155) (blkBits b 63 0) || side (blkDp b) (blkBits b 170 163) (blkBits b 127 64)

/-- A chain that is installed as SEMA whatever its streams say: they differ in mode (R428), or FUSED is not allowed (R432). -/
def semaChain (ls : List (Line × List (List Byte))) (id : Nat) : Bool :=
  let mine := ls.filter (fun l => hdrBits l.1 63 56 == id)
  let modes := (mine.map (fun l => hdrBits l.1 55 54)).eraseDups
  decide (1 < modes.length) || (modes == [1] && mine.any (fun l => l.2.any barsFused))

/-- The streams of a map with the modes that their chains receive. -/
def fixChains (ls : List (Line × List (List Byte))) : List (Line × List (List Byte)) :=
  ls.map (fun l => if semaChain ls (hdrBits l.1 63 56) then (BitVec.ofNat 512 (putBits l.1.toNat 55 54 2), l.2) else l)

/-- Clamps of chains: one for each that is installed otherwise than its streams say, at its first stream. -/
def chainClamps (ls : List (Line × List (List Byte))) (rs : List (Nat × Nat)) : List Nat :=
  ((ls.map (fun l => hdrBits l.1 63 56)).eraseDups.filter (semaChain ls)).map (fun id =>
    atMan (((rs.find? (fun r => bits r.2 63 56 == id)).map (·.1)).getD 0))

/-- A WARP record (R239, R538). -/
def warpOf (r : Nat) : WarpRec :=
  { mode := bit r 0, filter := bit r 1, edge := BitVec.ofNat 2 (if bits r 3 2 = 3 then 0 else bits r 3 2), fill := BitVec.ofNat 16 (bits r 19 4)
    flowsub := bits r 21 20, phase := min 256 (bits r 30 22), blend := bit r 31
    shuf := BitVec.ofNat 2 (if bits r 33 32 = 3 then 0 else bits r 33 32) }

/-- Clamps of a WARP record (R239). -/
def warpClamps (r : Nat × Nat) : List Nat := bad (bits r.2 3 2 == 3) (atMan r.1) ++ bad (decide (256 < bits r.2 30 22)) (atMan r.1)

/-- Channels of a map, in stream order: the pair of a stream with a PORT destination of the Fabric unit, and whether a block of it takes a pixel
payload from the Pixel unit (R264, R592). -/
def channelsOf (ls : List (Line × List (List Byte))) : List (Nat × Bool) :=
  (ls.filterMap (fun l =>
    let port (k : List Byte) : Bool := blkDp k == 3 && blkBits k 71 64 == 9
    let pixel (k : List Byte) : Bool := (blkSp k == 3 && blkBits k 7 0 == 3) || (blkSp k == 2 && blkBits k 162 155 == 3)
    if l.2.any port then (dstPair l.1).map (fun p => (p, l.2.any pixel)) else none)).eraseDups

/-- A GLAZE record, GLZ dropped for traffic that Glaze never codes (R264, R265): the pixel payload of its channel (log 115). -/
def glazeOf (never : Bool) (r : Nat) : Bool × Nat × Nat :=
  (bit r 0 && !never, min 0xFEFF (bits r 16 1), if bits r 18 17 = 3 then 0 else bits r 18 17)

/-- Clamps of a GLAZE record (R265). -/
def glazeClamps (never : Bool) (r : Nat × Nat) : List Nat :=
  bad (bit r.2 0 && never) (atMan r.1) ++ bad (decide (0xFF00 ≤ bits r.2 16 1)) (atMan r.1) ++ bad (bits r.2 18 17 == 3) (atMan r.1)

/-- A PIXEL record (R538). -/
def pixelOf (r : Nat) : PixChan :=
  let h (lo : Nat) : Half := BitVec.ofNat 16 (bits r (lo + 15) lo)
  { ascale := h 0, abias := h 16, oscale := h 32, obias := h 48 }

-- The staged map (R84, R169, R170, R550).

/-- Two segments are identical (R169, R550): the same image address and the same segment fields. -/
def Seg.same (a b : Seg) : Bool :=
  a.img.obj == b.img.obj && a.img.off == b.img.off && a.replica == b.replica && a.rowseg == b.rowseg && a.row0 == b.row0 &&
    a.rows == b.rows && a.col0 == b.col0 && a.cols == b.cols

/-- The map staged and not yet in use. -/
def CtxMaps.staged (m : CtxMaps) : Option CMap := m.other

/-- Segments of a map that hold a slot of a panel group. -/
def CMap.at (m : CMap) (grp slot : Nat) : List Seg := m.segs.filter (fun g => !g.dropped && g.grp == grp && g.slot == slot)

/-- Segments of other contexts' current and staged maps in a slot (R550). -/
def State.othersAt (s : State) (c grp slot : Nat) : List Seg :=
  s.easel.ctxs.flatMap (fun p => if p.1 = c then [] else (p.2.maps.a.toList ++ p.2.maps.b.toList).flatMap (fun m => m.at grp slot))

/-- Cuts a column range lo..hi to exclude the ranges installed earlier (R84), taken in ascending order. -/
def cutCols : List (Nat × Nat) → Nat × Nat → Nat × Nat
  | [], r => r
  | (a, b) :: rs, (lo, hi) =>
    if a < hi ∧ lo < b then (if a ≤ lo then cutCols rs (min b hi, hi) else cutCols rs (lo, a)) else cutCols rs (lo, hi)

/-- Checks one segment of the map being built against the current map, other contexts and the segments before it; answers the
segment and its clamps, one for each field changed (R84), but for a field of its record `raw` that a clamp has changed before (segClamps). Where the current map has several segments on the panel, its first replaces one
that differs from all of them (R170; log 91). -/
def State.checkSeg (s : State) (c : Nat) (done : List Seg) (g : Seg) (off raw : Nat) : Seg × List Nat :=
  if g.dropped then (g, [])
  else
    let own := (s.curMap c).at g.grp g.slot
    let swap := !own.isEmpty && own.all (fun x => !x.same g)
    let g := if swap then (match own with
      | x :: _ => { g with img := x.img, replica := x.replica, rowseg := x.rowseg, row0 := x.row0, rows := x.rows, col0 := x.col0, cols := x.cols }
      | [] => g) else g
    let w := bad swap (atMan off)
    if (s.othersAt c g.grp g.slot).any (fun x => !x.same g) then ({ g with dropped := true }, w ++ [atMan off])
    else
      let before := (done.filter (fun x => !x.dropped && x.grp == g.grp && x.slot == g.slot)).map (fun x => (x.col0, x.col0 + x.cols))
      let r := cutCols (before.mergeSort (fun x y => x.1 ≤ y.1)) (g.col0, g.col0 + g.cols)
      if r = (g.col0, g.col0 + g.cols) then (g, w)
      else if r.2 ≤ r.1 then ({ g with dropped := true }, w ++ [atMan off])
      else
        let asked := segOf [] [] 0 0 false raw
        ({ g with col0 := r.1, cols := r.2 - r.1 }, w ++ bad (r.1 != g.col0 && asked.col0 == bits raw 38 31) (atMan off) ++
          bad (r.2 - r.1 != g.cols && asked.cols == bits raw 47 39) (atMan off))

/-- Checks every segment in order. -/
def State.checkSegs (s : State) (c : Nat) (gs : List (Seg × Nat × Nat)) : List Seg × List Nat :=
  gs.foldl (fun a g => let r := s.checkSeg c a.1 g.1 g.2.1 g.2.2; (a.1 ++ [r.1], a.2 ++ r.2)) ([], [])

-- Tables (R103, R104).

/-- Groups that hold a layer of a map. -/
def CMap.groupsOf (m : CMap) (l : Nat) : List Nat := ((m.segs.filter (fun g => g.layer == l && !g.dropped)).map (·.grp)).eraseDups

/-- A place that holds tables: a panel group by its number, an engine as 0x50 + e. -/
def tablePlaces (place : Nat) : Nat := if place < 0x50 then 64 else 16

/-- Places that hold a panel layer's table: its groups, and the engine of its substitute, which applies NLT too (R104, R201, R211). -/
def CMap.placesOf (m : CMap) (l : Nat) : List Nat := m.groupsOf l ++ (if (m.pl l).subst then [0x50 + (m.pl l).substLe] else [])

/-- (place, table) pairs of a map: a table for each group or engine that holds its layer or its substitute (R104, R201). -/
def CMap.tableUse (m : CMap) : List (Nat × List Byte) :=
  (List.range m.players.length).flatMap (fun l => match (m.pl l).table with
    | some t => (m.placesOf l).map (fun g => (g, t))
    | none => []) ++
  m.llayers.flatMap (fun l => match l.table with
    | some t => (engsOf l.eset).map (fun e => (0x50 + e, t))
    | none => [])

/-- Tables in use by every map but a context's staged one, which the new one replaces; identical tables share a slot. -/
def State.tableUse (s : State) (skip : Option Nat) : List (Nat × List Byte) :=
  (s.easel.ctxs.flatMap (fun p =>
    let m := p.2.maps
    let ms := if skip = some p.1 then m.cur.toList ++ m.old.toList else m.a.toList ++ m.b.toList ++ m.old.toList
    ms.flatMap CMap.tableUse)).eraseDups

/-- Gives layers their tables in order, each with the places that hold it, the offset of its record and the table it asks for; one left without
a slot runs with its table bypassed, with one clamp (R104, R201). Answers tables and clamps. -/
def fitTables : List (List Nat × Nat × Option (List Byte)) → List (Nat × List Byte) → List (Option (List Byte)) × List Nat
  | [], _ => ([], [])
  | (_, _, none) :: rest, use => let r := fitTables rest use; (none :: r.1, r.2)
  | (gs, off, some t) :: rest, use =>
    if gs.any (fun g => !use.contains (g, t) && decide (tablePlaces g ≤ (use.filter (fun u => u.1 == g)).length)) then
      let r := fitTables rest use
      (none :: r.1, atMan off :: r.2)
    else
      let r := fitTables rest ((use ++ gs.map (fun g => (g, t))).eraseDups)
      (some t :: r.1, r.2)

/-- The layers of a map with their tables (R546): a panel layer whose table is missing routes its replicas, a Liner layer without one ignores its
index (R544; log 21). Answers the map and the clamps. -/
def State.withTables (s : State) (c : Nat) (m : CMap) (tables : List (List Byte)) (pr lr : List (Nat × Nat)) : CMap × List Nat :=
  let want (r : Nat × Nat) : Option (List Byte) := (tableIndex r.2).bind (fun k => tables[k]?)
  let missing (r : Nat × Nat) : Bool := (tableIndex r.2).isSome && (want r).isNone
  let asked := ((List.range pr.length).zip pr).map (fun p => (m.placesOf p.1, p.2.1, want p.2)) ++
    (lr.zip m.llayers).map (fun p => ((engsOf p.2.eset).map (0x50 + ·), p.1.1, tables[bits p.1.2 415 400]?))
  let fit := fitTables asked (s.tableUse (some c))
  ({ m with
    players := ((m.players.zip pr).zip fit.1).map (fun p => { p.1.1 with table := p.2, noTable := p.1.1.noTable || missing p.1.2 })
    llayers := (m.llayers.zip (fit.1.drop pr.length)).map (fun p => { p.1 with table := p.2 }) }, fit.2)

-- Dispatch space (R548).

/-- Pieces of 64 KiB in use. -/
def State.usedPieces (s : State) : List (Nat × Nat) := s.easel.ctxs.flatMap (fun p => p.2.bothMaps.flatMap (·.pieces))

/-- Takes n pieces, with banks from PAL where the dispatch banks do not have them; none where PAL has too few. -/
def State.takePieces (n : Nat) (s : State) : Option (List (Nat × Nat)) × State :=
  let used := s.usedPieces
  let slots (bs : List Nat) : List (Nat × Nat) := bs.flatMap (fun b => (List.range 8).map (fun i => (b, i)))
  let free := (slots (s.easel.dispatch.filter (fun b => !(s.bank b).fenced))).filter (fun p => !used.contains p)
  if n ≤ free.length then (some (free.take n), s)
  else
    let k := ceilDiv (n - free.length) 8
    let r := s.takeBanks k 1 true false
    if r.1.length < k then (none, s)
    else (some ((free ++ slots r.1).take n), r.2.onEasel (fun e => { e with dispatch := e.dispatch ++ r.1 }))

-- MODEL_STAGE (R511, R547).

/-- The map that a manifest describes for a context, with the clamps of its installation in order (R547, steps 4 to 6). -/
def State.buildMap (s : State) (c : Nat) (man : List Byte) (ss : List Sect) (pieces : List (Nat × Nat)) : CMap × List Nat :=
  let rs := recsOf man ss
  let images := (rs 1).map (fun r => r.2 / 16384 * 16384)
  let place := (rs 2).map (·.2)
  let pimg := place.take images.length
  let plin := place.drop images.length
  let segRecs := rs 4
  let players := (rs 3).map (fun r => playerOf segRecs (rs 5) r.2)
  let llayers := ((rs 6).zip (List.range (rs 6).length)).map (fun p => llayerOf players (rs 5) (plin.getD p.2 0) p.1.2)
  let picked := ((rs 3).zip (List.range (rs 3).length)).flatMap (fun p =>
    let r := p.1.2
    pickSegs images pimg segRecs p.2 (bits r 159 144) (bits r 175 160) false ++
      (if bit r 25 then pickSegs images pimg segRecs p.2 (bits r 191 176) (bits r 175 160) true else []))
  let checked := s.checkSegs c picked
  let grain := bits (fieldB man 0 64) 48 48 == 1
  let grainBad := grain && !players.isEmpty
  let asked := streamLists c (rs 10) (rs 11)
  let lists := fixChains asked
  let chans := channelsOf lists
  let grecs := (rs 16).zip ((List.range (rs 16).length).map (fun i => ((chans[i]?).map (·.2)).getD false))
  let offOf (ty : Nat) : Nat := ((ss.find? (fun x => x.ty == ty)).map (·.off)).getD 0
  let m : CMap := {
    modelId := BitVec.ofNat 64 (fieldB man 16 8), grainSlice := grain && !grainBad, msize := man.length
    digest := Config.shake256 (withoutPlace man man), segs := checked.1, players := players, llayers := llayers
    objects := ((rs 8).map (fun r => bits r.2 19 0)).eraseDups
    buffers := (rs 9).map (fun r => (bits r.2 15 0, bits r.2 31 16, bits r.2 47 32))
    streams := lists.map (·.1), streamAt := offOf 10, blocks := lists.flatMap (·.2), pixel := (rs 12).map (fun r => pixelOf r.2)
    warp := (rs 13).map (fun r => warpOf r.2)
    tone := ((rs 14).take 1).flatMap (fun r => (List.range 1024).map (fun i => BitVec.ofNat 16 (bits r.2 (16 * i + 15) (16 * i))))
    loops := (rs 15).map (fun r => (bits r.2 3 0 + 1, min (bits r.2 7 4 + 1) (bits r.2 3 0 + 1), bits r.2 39 8))
    glaze := grecs.map (fun r => glazeOf r.2 r.1.2), glazeAt := offOf 16, channels := chans.map (·.1), pieces := pieces }
  let tabs := (rs 7).map (fun r => bytesOf 256 r.2)
  let fit := s.withTables c m tabs (rs 3) (rs 6)
  (fit.1,
    (rs 1).flatMap (fun r => bad (r.2 % 16384 != 0) (atMan r.1)) ++ segRecs.flatMap segClamps ++ (rs 3).flatMap playerClamps ++
      (rs 6).flatMap llayerClamps ++ (rs 15).flatMap (fun r => bad (decide (bits r.2 3 0 < bits r.2 7 4)) (atMan r.1)) ++
      (rs 10).flatMap streamClamps ++ (rs 11).flatMap blockClamps ++ chainClamps asked (rs 10) ++ (rs 13).flatMap warpClamps ++ grecs.flatMap (fun r => glazeClamps r.2 r.1) ++
      bad grainBad (atMan 0) ++ checked.2 ++ fit.2)

/-- A manifest that MODEL_STAGE performs (R536), with `room` the bytes of its object from its start. -/
def manifestOk (hdr : List Byte) (room : Nat) : Bool :=
  fieldB hdr 0 4 == 0x5C4E7CA5 && fieldB hdr 4 1 == 2 && decide (64 ≤ fieldB hdr 12 4 ∧ fieldB hdr 12 4 ≤ min room (2 ^ 24))

/-- MODEL_STAGE reads and checks a manifest and installs it as the staged map (R547). -/
def State.stageManifest (t : Taken) (o off : Nat) (b : Obj) (remote : List Byte) (s : State) : State :=
  let first := off / 16384
  let h := State.readSwatches o first remote [first] s
  let s := h.2.2.2
  let hdr := h.1.take 64
  if b.size * 16384 ≤ off ∨ h.2.1 ∨ !manifestOk hdr (b.size * 16384 - off) then s.notPerformed t.cmd
  else
    let size := fieldB hdr 12 4
    let r := State.readSwatches o first remote ((List.range (ceilDiv size 16384)).map (first + ·)) s
    let s := r.2.2.2
    let man := r.1.take size
    if r.2.1 ∨ manifestCrc man ≠ fieldB hdr 8 4 then s.notPerformed t.cmd
    else
      let ss := sectionsOf man
      let s := each ss.2 (fun w s => s.clampAt t.ctx 0x20 w) s
      if (recsOf man ss.1 8).any (fun x => (s.obj (bits x.2 19 0)).isNone) then s.notPerformed t.cmd
      else
        match s.takePieces (ceilDiv size 65536) with
        | (none, _) => s.notPerformed t.cmd
        | (some ps, s) =>
          let m := s.buildMap t.ctx man ss.1 ps
          let s := each m.2 (fun w s => s.clampAt t.ctx 0x20 w) s
          let onB := (s.ctx t.ctx).maps.stageB
          (s.onCtx t.ctx (fun x => { x with maps := x.maps.setOther (some m.1) })).complete t.cmd 0 (if onB then 1 else 0) 0 []

/-- MODEL_STAGE. -/
def State.modelStage (remote : List Byte) (t : Taken) (s : State) : State :=
  let o := t.f 147 128
  let off := t.f 191 148 / 16384 * 16384
  let s := s.clamps t (bad (t.f 191 148 != off) 148 ++ t.lengthClamp 0)
  let st := (s.ctx t.ctx).st
  match s.obj o with
  | some b => if st = .open_ ∨ st = .bound then s.stageManifest t o off b remote else s.notPerformed t.cmd
  | none => s.notPerformed t.cmd

/-- MODEL_STAGE. -/
def execModelStage (p : Packet) (remote : List Byte) (s : State) : Host.Outcome State Fault Refusal :=
  .next (s.command p (isOp 0x20) (State.modelStage remote))

/-- MODEL_SWITCH waits for its batch boundary (R171, R176, R561); a second one of the context joins it. -/
def State.modelSwitch (t : Taken) (s : State) : State :=
  let s := s.clamps t (t.lengthClamp 0)
  let x := s.ctx t.ctx
  if x.st = .bound ∧ x.maps.live ∧ x.maps.staged.isSome then
    s.onCtx t.ctx (fun y => { y with maps := { y.maps with switching := y.maps.switching ++ [t.cmd] } })
  else s.notPerformed t.cmd

/-- MODEL_SWITCH. -/
def execModelSwitch (p : Packet) (s : State) : Host.Outcome State Fault Refusal := .next (s.command p (isOp 0x21) State.modelSwitch)

end Sys2Proof.Machine
end

