-- ==== Sys2Proof/Machine/Programs.lean ====
section
/-! DEFINITION. Panel programs (R147 to R168, R180 to R185, R374, R512). -/

namespace Sys2Proof.Machine

-- Records (R163, R183).

/-- Easel saves the record of a panel in the Plan chest: wear, source, slot; the saved trims stay (R145, R163). -/
def State.savePanel (p : Nat) (s : State) : State :=
  let x := s.panel p
  (s.recPanels).onBoot (fun b =>
    let old := look {} b.nv.panels p
    { b with nv := { b.nv with panels := putRaw p { x with
        w0 := old.w0.trims, w1 := old.w1.trims, w2 := old.w2.trims, w3 := old.w3.trims, req := none } b.nv.panels } })

/-- PNL_LAST of a panel (R186). -/
def Panel.lastWord (p : Panel) : Nat :=
  p.result.toNat * 2 ^ 30 + p.kind.toNat * 2 ^ 28 + p.pulses.toNat * 2 ^ 20 + p.time.toNat

/-- The spare of a group takes the slot and the source record of one of its panels (R168, R180); the panel record notes it (R183). -/
def State.takeSlot (p spare : Nat) (s : State) : State :=
  let slot := (s.panel p).slot
  let src := (s.panel p).src
  let s := (s.onPanel spare (fun x => { x with slot := slot, src := src, takes := true })).onPanel p (fun x => { x with slot := 16 })
  let s := s.onGroup (p / 17) (fun g => { g with spareUsed := true })
  let s := s.onBoot (fun b => { b with nv := { b.nv with subst := putRaw p 16 (putRaw spare slot b.nv.subst) } })
  (s.savePanel p).savePanel spare

-- Queues (R157, R159, R160).

/-- The order in which a group's requests are taken: spare rewrites, re-primes, programs. -/
def Req.cls (r : Req) : Nat := match r.kind with | 2 => 0 | 0 => 2 | _ => 1

/-- Pumps taken (R157). -/
def State.pumps (s : State) : Nat := (s.panels.panels.filter (fun p => p.2.req.isSome)).length

/-- Panels that program now (R186): PROGRAMMING with a pump. A panel that has passed its verify is counted no longer (log 94). -/
def State.active (s : State) : Nat := (s.panels.panels.filter (fun p => p.2.req.isSome && p.2.st == .programming)).length

/-- The panel of a group that has a program under way. -/
def State.running (s : State) (g : Nat) : Option Nat := (List.range 17).findSome? (fun i =>
  if (s.panel (17 * g + i)).req.isSome then some (17 * g + i) else none)

/-- The source of a request: a re-prime writes the image that its panel holds, by the panel's source record (R150, R151). -/
def State.srcOf (s : State) (r : Req) : Src := if r.kind = 1 then (s.panel r.panel).src.getD r.src else r.src

/-- The nine swatches of an image. -/
def Src.swatches (x : Src) : List Nat := (List.range 9).map (fun k => x.off / 16384 + k)

/-- A request waits because a source swatch of its image has been poisoned and the object's POISON is not clear (R374). -/
def State.reqPoisoned (s : State) (r : Req) : Bool :=
  r.kind != 3 && (match s.obj (s.srcOf r).obj with | some b => b.pois && (s.srcOf r).swatches.any (b.bad.contains ·) | none => false)

/-- A request that begins only at a tick edge (R142, R180). -/
def State.atEdge (s : State) (r : Req) : Bool := r.kind == 2 || s.inCurrentMap r.panel

/-- The request of a group that is taken next (R159). -/
def State.nextReq (s : State) (g : Nat) : Option Req :=
  ((s.group g).queue.filter (fun r => !s.reqPoisoned r)).foldl (fun (a : Option Req) r => match a with
    | none => some r
    | some b => if r.cls < b.cls then some r else some b) none

/-- Places left under MAXPAR (R157, R656). -/
def State.pumpsFree (s : State) (r : Req) : Nat := (if r.kind = 3 then 32 else s.panels.maxpar.toNat) - s.pumps

/-- The group's pump is free and its next request may begin now. -/
def State.groupReady (s : State) (edge : Bool) (g : Nat) : Bool :=
  (s.running g).isNone && (match s.nextReq g with | some r => s.atEdge r == edge | none => false)

/-- Removes the first request equal to one. -/
def dropReq (r : Req) : List Req → List Req
  | [] => []
  | x :: xs => if x = r then xs else x :: dropReq r xs

/-- A request not performed (R152, R159, R166, R168, R185): OK and a clamp. -/
def State.refuseReq (c : Option Cmd) (p : Nat) (s : State) : State :=
  match c with
  | none => s
  | some c => (s.clampAt (hdrCtx c.hdr) (hdrOp c.hdr) whereWhole).complete c 0 p (s.panel p).lastWord []

/-- Adds a command's request to its group's queue, which is up to 64 deep (R159). -/
def State.queueReq (r : Req) (s : State) : State :=
  if 64 ≤ (s.group (r.panel / 17)).queue.length then s.refuseReq r.cmd r.panel
  else s.onGroup (r.panel / 17) (fun g => { g with queue := g.queue ++ [r] })

-- Beginning a program.

/-- A worn panel's request goes to the spare of its group, which takes the slot (R168); none where no spare remains. -/
def State.wornReq (r : Req) (s : State) : Option Req × State :=
  if r.kind = 3 ∨ (s.panel r.panel).prog.toNat < 3000 then (some r, s)
  else
    let s := s.onPanels (fun u => { u with worn := satInc u.worn })
    match s.spareOf (r.panel / 17) with
    | some sp =>
      if r.kind = 2 ∨ (s.panel r.panel).slot = 16 then (none, s.refuseReq r.cmd r.panel)
      else
        let s := ((s.takeSlot r.panel sp).onPanel r.panel (fun x => { x with st := .fenced })).savePanel r.panel
        (some { r with panel := sp }, s.reroute true)
    | none => (none, s.refuseReq r.cmd r.panel)

/-- A request is taken from its queue: it has the group's pump (R157). A panel in a current map is PROGRAMMING from here (R142), a MARKED one too,
which is MARKED no longer; a PANEL_REPRIME is performed although its panel has become EMPTY since it was accepted (R132, R152; log 94). A verify
that has passed before makes it serve no more (R161). What the program buffer holds for a request that is not performed goes with it (R148). -/
def State.grantReq (r : Req) (s : State) : State :=
  let g := r.panel / 17
  let edge := s.atEdge r
  let src := s.srcOf r
  let drop (s : State) : State := s.onGroup g (fun x => { x with buf := x.buf.filter (fun b => b.1 != r.panel) })
  let s := s.onGroup g (fun x => { x with queue := dropReq r x.queue })
  if r.kind ≠ 3 ∧ (s.obj src.obj).isNone then (drop s).refuseReq r.cmd r.panel
  else if (s.panel r.panel).st = .fenced then
    (match r.cmd with | some c => (drop s).complete c 3 r.panel (s.panel r.panel).lastWord [] | none => drop s)
  else
    match s.wornReq r with
    | (none, s) => drop s
    | (some r2, s) =>
      let s := s.onPanel r2.panel (fun x => { x with
        req := some ({ r2 with src := src, back := x.st }, false), st := if edge then .programming else x.st, verified := false })
      let s := if r2.kind = 2 then s.onPanels (fun u => { u with spareCnt := satInc u.spareCnt }) else s
      if edge then s.reroute true else s

/-- At an edge, requests for panels of current maps and spare rewrites begin, in ascending group order (R142, R160, R180). -/
def State.edgePrograms (s : State) : State :=
  if !s.up || s.pmu.entering.isSome then s
  else each (List.range 32) (fun g s =>
    match s.nextReq g with
    | some r => if s.groupReady true g && decide (0 < s.pumpsFree r) then s.grantReq r else s
    | none => s) s

/-- The image of a request and whether it can be read (R151, R344): through the Swatch Map, each swatch that comes from beyond the stack with its tag
behind it in `fetched`, or from the Plan chest at a start. -/
def State.imageOf (r : Req) (fetched : List Byte) (s : State) : (List Byte × Bool) × State :=
  let x := s.srcOf r
  match r.kind, x.chest with
  | 3, some (base, size) =>
    let get (i : Nat) : List Byte × Bool :=
      let d := s.chest.bytes false (base + 16384 * i) 16384
      let t := s.chest.bytes false (base + 16384 * size + 64 * i) 64
      (d, tagOk x.obj i d t && !s.chest.lostIn false (base + 16384 * i) 16384 && !s.chest.lostIn false (base + 16384 * size + 64 * i) 64)
    let ds := x.swatches.map get
    ((ds.flatMap (·.1), ds.all (·.2)), s)
  | 3, none => (([], false), s)
  | _, _ =>
    x.swatches.foldl (fun (a : (List Byte × Bool) × State) i =>
      let d := a.2.swatchNow x.obj i (farOf fetched (x.off / 16384) i)
      ((a.1.1 ++ slice d.1.data 0 16384, a.1.2 && d.1.good), d.2)) (([], true), s)

/-- The erase step begins (R151, R161, R163): the program is counted and saved before it, a re-prime as one, with the allowance that one of the ROM
takes (R167). -/
def State.beginErase (p : Nat) (r : Req) (retry : Bool) (s : State) : State :=
  let home4 := match s.obj r.src.obj with | some b => if b.home = 4 then some (b.base.toNat, b.size) else none | none => none
  (s.onPanel p (fun x => { x with
    st := .programming, req := some ({ r with begun := true }, retry), prog := satInc x.prog, unfinished := true, cells := []
    reprime := if !retry ∧ (r.kind = 1 ∨ r.kind = 3) then satInc x.reprime else x.reprime
    allow := if !retry ∧ r.kind = 3 ∧ x.allow ≠ 0 then x.allow - 1 else x.allow
    src := if r.kind = 0 ∨ r.kind = 2 then some { obj := r.src.obj, off := r.src.off, chest := home4 } else x.src })).savePanel p

/-- The image of a request: in the program buffer, or carried there now (R148). -/
def State.bufferedImage (g : Nat) (r : Req) (fetched : List Byte) (s : State) : (List Byte × Bool) × State :=
  match (s.group g).buf.find? (fun b => b.1 == r.panel && b.2.1 == s.srcOf r) with
  | some b => ((b.2.2, true), s)
  | none => s.imageOf r fetched

/-- The other place of the program buffer takes the image of the group's next request while the current one is written (R148). -/
def State.prefetchImage (g p : Nat) (src : Src) (image next : List Byte) (s : State) : State :=
  let s := s.onGroup g (fun x => { x with buf := [(p, src, image)] })
  match s.nextReq g with
  | some r =>
    let d := s.imageOf r next
    if d.1.2 then d.2.onGroup g (fun x => { x with buf := x.buf ++ [(r.panel, d.2.srcOf r, slice d.1.1 0 147456)] }) else d.2
  | none => s

/-- Swatches of an image that fail verification poison its object (R368). -/
def State.badImage (r : Req) (fetched : List Byte) (s : State) : State :=
  each (s.srcOf r).swatches (fun i s =>
    s.noteAccess (s.srcOf r).obj i (s.swatchNow (s.srcOf r).obj i (farOf fetched ((s.srcOf r).off / 16384) i)).1.good) s

/-- A request whose source swatch turns out to be poisoned waits in its group's queue again, ahead of its class (R374); its panel is as it was. -/
def State.unGrant (p : Nat) (r : Req) (s : State) : State :=
  let s := (s.onPanel p (fun x => { x with req := none, st := r.back })).onGroup (p / 17) (fun g => { g with queue := r :: g.queue })
  s.reroute true

/-- A program that has its pump begins its erase step once its image can be read. A re-prime of the ROM whose image fails is not made (R151, R184);
one whose image is found poisoned goes back to its queue (R374), and any other waits for its image. -/
def State.startProgram (g p : Nat) (fetched next : List Byte) (s : State) : State :=
  match (s.panel p).req with
  | some (r, false) =>
    if r.begun then s
    else
      let d := s.bufferedImage g r fetched
      let image := slice d.1.1 0 147456
      if d.1.2 then (d.2.beginErase p { r with image := image } false).prefetchImage g p r.src image next
      else if r.kind = 3 then
        ((s.onPanel p (fun x => { x with req := none, src := none, unfinished := false })).savePanel p).onBoot (fun b => { b with
          repQueued := b.repQueued - 1 })
      else
        let s := d.2.badImage r fetched
        onlyIf (s.reqPoisoned r) (State.unGrant p r) s
  | _ => s

/-- PROGRAM_START of a group: a program granted at an edge, or the group's next request, begins its erase step with the image that the
Mover has fetched (R148, R160), and the next image is fetched. An image swatch that fails verification poisons its object (R368). -/
def State.programStart (g : Nat) (fetched next : List Byte) (s : State) : State :=
  match s.running g with
  | some p => s.startProgram g p fetched next
  | none =>
    match s.nextReq g with
    | none => s
    | some r =>
      let before := ((List.range g).filter (s.groupReady false)).length
      if s.groupReady false g && decide (before < s.pumpsFree r) then
        let s := s.grantReq r
        match s.running g with | some p => s.startProgram g p fetched next | none => s
      else s

/-- PROGRAM_START. -/
def execProgramStart (group : Nat) (fetched next : List Byte) (s : State) : Host.Outcome State Fault Refusal :=
  .next (onlyIf (s.serving && s.pmu.entering.isNone && decide (group < 32)) (State.programStart group fetched next) s)

-- Its end (R153 to R156, R162).

/-- The starting trims of window w from the reference codes of its extraction (R154): SPAN strikes on the 8 / 2^w row blocks, each with 2X ÷ L = 192,
then 64 ZERO strikes. None where the span is not positive. -/
def startTrim (w : Nat) (codes : List (Byte × Byte)) : Option (BitVec 16 × BitVec 12) :=
  let n := 8 / 2 ^ w
  let sm := sumZ (codes.map (fun c => c.1.toInt - c.2.toInt))
  let so := sumZ (codes.map (fun c => c.1.toInt + c.2.toInt))
  if codes.length = n + 64 ∧ 0 < sm then
    some (satNat 16 (roundAway (16384 * 192 * n) sm).toNat, BitVec.ofInt 12 (clampZ (-2048) 2047 (roundAway (8 * so) (n + 64 : Nat))))
  else none

/-- A reference code lies within 2 steps of its ideal once trims are applied (R98, R153). -/
def refWithin (t : BitVec 16 × BitVec 12) (code : Byte) (ideal : Int) : Bool :=
  decide (((16 * code.toInt - signed 12 t.2.toNat) * t.1.toNat - ideal * 2 ^ 18).natAbs ≤ 2 * 2 ^ 18)

/-- The reference codes of window w pass the final verify with their trims (R153): 96 steps under SPAN, 0 under ZERO. -/
def refsPass (w : Nat) (t : BitVec 16 × BitVec 12) (codes : List (Byte × Byte)) : Bool :=
  ((List.range codes.length).zip codes).all (fun c =>
    let ideal : Int := if c.1 < 8 / 2 ^ w then 96 else 0
    refWithin t c.2.1 ideal && refWithin t c.2.2 (-ideal))

/-- The starting trims of the four windows where the reference codes pass (R153, R154). -/
def trimsOf (refs : List (List (Byte × Byte))) : Option (List (BitVec 16 × BitVec 12)) :=
  (List.range 4).mapM (fun w =>
    let codes := refs.getD w []
    (startTrim w codes).filter (fun t => refsPass w t codes))

/-- Notes how a program ended in PNL_LAST and frees the pump and its place in the program buffer; the panel stays PROGRAMMING until the edge at
which it serves (R142, R161; log 94). -/
def State.endProgram (p : Nat) (r : Req) (result : BitVec 2) (pulses : BitVec 4) (time : Half) (s : State) : State :=
  let s := s.onPanel p (fun x => { x with req := none, result := result, kind := BitVec.ofNat 2 r.kind, pulses := pulses, time := time })
  let s := (s.onGroup (p / 17) (fun g => { g with buf := g.buf.filter (fun b => b.1 != p) })).savePanel p
  onlyIf (r.kind == 3) (State.onBoot (fun b => { b with repDone := b.repDone + 1, repQueued := b.repQueued - 1 })) s

/-- The final verify of the program under way in a group has ended (R153): with every cell in its level window (`good`) and reference codes that
pass it leaves its starting trims; else it is retried once, or fences the panel (R156). -/
def State.programComplete (g : Nat) (good : Bool) (pulses : BitVec 4) (time : Half) (refs : List (List (Byte × Byte))) (s : State) :
    State :=
  match s.running g with
  | none => s
  | some p =>
    match (s.panel p).req with
    | none => s
    | some (r, retry) =>
      let post (status : Nat) (s : State) : State :=
        match r.cmd with | some c => s.complete c status p (s.panel p).lastWord [] | none => s
      if !r.begun then s
      else
        match (if good then trimsOf refs else none) with
        | some trims =>
          let s := s.onPanel p (fun x => { x with verified := true, unfinished := false, start := trims, cells := r.image })
          post 0 (s.endProgram p r (if retry then 2 else 1) pulses time)
        | none =>
          if !retry then s.beginErase p r true
          else
            let s := s.onPanels (fun u => { u with progFail := satInc u.progFail })
            let s := s.endProgram p r 3 pulses time
            post 3 ((s.onPanel p (fun x => { x with unfinished := false })).fencePanel p)

-- Commands (R152, R165, R166, R512).

/-- The panel that GROUP and SLOT name, and the clamp of SLOT. -/
def State.targetPanel (s : State) (t : Taken) : Option Nat × List Nat :=
  (s.panelAt (t.f 196 192) (min 16 (t.f 201 197)), bad (decide (16 < t.f 201 197)) 197)

/-- PANEL_PROGRAM. -/
def State.panelProgram (t : Taken) (s : State) : State :=
  let off := t.f 191 148 / 16384 * 16384
  let x := s.targetPanel t
  let s := s.clamps t (bad (t.f 191 148 != off) 148 ++ x.2)
  match x.1, s.obj (t.f 147 128) with
  | some p, some _ =>
    if (s.panel p).st = .fenced then (each (t.lengthClamp 0) (fun w s => s.clampAt t.ctx 0x22 w) s).refuseReq (some t.cmd) p
    else
      let s := each (bad (s.inCurrentMap p != (t.f 202 202 == 1)) 202 ++ t.lengthClamp 0) (fun w s => s.clampAt t.ctx 0x22 w) s
      s.queueReq { kind := 0, panel := p, src := { obj := t.f 147 128, off := off }, cmd := some t.cmd }
  | _, _ => (each (t.lengthClamp 0) (fun w s => s.clampAt t.ctx 0x22 w) s).refuseReq (some t.cmd) (x.1.getD 0)

/-- PANEL_PROGRAM. -/
def execPanelProgram (p : Packet) (s : State) : Host.Outcome State Fault Refusal := .next (s.command p (isOp 0x22) State.panelProgram)

/-- PANEL_REPRIME takes an allowance as its request is accepted. -/
def State.panelReprime (t : Taken) (s : State) : State :=
  let x := s.targetPanel t
  let s := s.clamps t (x.2 ++ t.lengthClamp 0)
  match x.1 with
  | none => s.refuseReq (some t.cmd) 0
  | some p =>
    let u := s.panel p
    match u.src with
    | some src =>
      if u.st = .empty ∨ u.st = .spare ∨ u.st = .fenced ∨ (s.obj src.obj).isNone ∨ u.allow = 0 ∨ 64 ≤ (s.group (p / 17)).queue.length then
        s.refuseReq (some t.cmd) p
      else
        ((s.onPanel p (fun x => { x with allow := x.allow - 1 })).savePanel p).queueReq { kind := 1, panel := p, src := src, cmd := some t.cmd }
    | none => s.refuseReq (some t.cmd) p

/-- PANEL_REPRIME. -/
def execPanelReprime (p : Packet) (s : State) : Host.Outcome State Fault Refusal := .next (s.command p (isOp 0x23) State.panelReprime)

end Sys2Proof.Machine
end

