-- ==== Sys2Proof/Machine/Runs.lean ====
section
/-! DEFINITION. Work: RUN_SLICE and RUN_FRAME (R247, R513 to R518), and RETOUCH (R227 to R230). -/

namespace Sys2Proof.Machine

/-- A pixel format with its undefined values replaced (R246, R247); b is the bit of the field. -/
def fixFmt (f b : Nat) : Nat × List Nat :=
  let lay := if bits f 1 0 = 3 then 0 else bits f 1 0
  let dep := if bits f 3 2 = 3 then 1 else bits f 3 2
  let chr := if bits f 5 4 = 3 then 0 else bits f 5 4
  let flat := lay == 2 && chr != 2
  (bits f 11 6 * 64 + chr * 16 + dep * 4 + (if flat then 0 else lay),
   bad (bits f 1 0 == 3) b ++ bad (bits f 3 2 == 3) (b + 2) ++ bad (bits f 5 4 == 3) (b + 4) ++ bad flat b)

/-- The map that a RUN will meet: the one in use, or map A before the first bind takes effect. -/
def Ctx.runMap (x : Ctx) : CMap := (x.maps.cur.orElse (fun _ => x.maps.a)).getD {}

/-- IFMT, OFMT and their clamps; the manifest's own where it declares tensors (R513). -/
def State.runFormats (s : State) (t : Taken) : Nat × Nat × List Nat :=
  if (s.ctx t.ctx).runMap.tensors then (t.f 203 192, t.f 215 204, [])
  else
    let i := fixFmt (t.f 203 192) 192
    let o := fixFmt (t.f 215 204) 204
    (i.1, o.1, i.2 ++ o.2)

/-- The payload of a task is fetched over the ring queue of its class (R415, R473). -/
def State.beginFetch (t : Taken) (u : Task) (s : State) : State :=
  if t.slots = 0 then (s.onTask t.cmd.seq (fun v => { v with ready := true })).passPacket t.cmd
  else s.onQueue (s.ringQueue (s.ring t.cmd.sq).cls.toNat) (fun q => { q with
    jobs := q.jobs ++ [{ kind := .fetch t.ctx u.frame u.part 0, len := 64 * t.slots, ctx := t.ctx, tick := u.tick }] })

/-- A task begins. Under a fence, work of a tick that has begun is aborted at once (R518); work of a handed-over tick passes on (R61). -/
def State.beginTask (t : Taken) (u : Task) (s : State) : State :=
  let s := (s.onEasel (fun e => { e with tasks := e.tasks ++ [u] })).beginFetch t u
  match s.easel.tasks.find? (fun v => v.cmd.seq == t.cmd.seq) with
  | none => s
  | some v => if (s.ctx t.ctx).fence && s.due v then s.abortTask v else s.joinHanded v

/-- The task of a RUN command; its unpack belongs to the tick in which the header is taken, and converts with the tone table in use then (R260). -/
def runTask (t : Taken) (frameCmd : Bool) (part : Nat) (i o : Nat) (tick taken : Word) (tone : List Half) (blocks : Nat) (last : Bool) : Task :=
  { cmd := t.cmd, ctx := t.ctx, frameCmd := frameCmd, frame := BitVec.ofNat 32 (t.f 191 160), part := part, last := last
    ifmt := BitVec.ofNat 12 i, ofmt := BitVec.ofNat 12 o, tick := tick, taken := taken, tone := tone, ready := false, blocks := blocks
    payload := match t.cmd.src with | .fabric _ => t.payload | _ => [] }

/-- RUN_SLICE: the work belongs to the first tick in which the slice has not begun (R514). -/
def State.runSlice (blocks : Nat) (t : Taken) (s : State) : State :=
  let x := s.ctx t.ctx
  let top := s.tick.slices - 1
  let slice := min (t.f 133 128) top
  let s := s.clamps t (bad (decide (top < t.f 133 128)) 128)
  if x.st ≠ .bound then s.notPerformed t.cmd
  else
    let f := s.runFormats t
    let s := each f.2.2 (fun w s => s.clampAt t.ctx 0x30 w) s
    let tick := if s.tick.begun && decide (s.tick.sliceNow.toNat < slice) then s.tick.count else s.tick.count + 1
    if x.runs.contains (tick, slice) then s.notPerformed t.cmd
    else
      (s.onCtx t.ctx (fun x => { x with runs := x.runs ++ [(tick, slice)] })).beginTask t
        (runTask t false slice f.1 f.2.1 tick s.tick.count x.runMap.tone (max 1 blocks) true)

/-- RUN_SLICE. -/
def execRunSlice (p : Packet) (blocks : Nat) (s : State) : Host.Outcome State Fault Refusal :=
  .next (s.command p (isOp 0x30) (State.runSlice blocks))

/-- The earlier parts of a frame that have been taken (R515). -/
def State.partsTaken (s : State) (c frame : Nat) : List Task :=
  s.easel.tasks.filter (fun u => u.ctx == c && u.frameCmd && u.frame.toNat == frame && !u.last)

/-- RUN_FRAME: parts come in order; the work belongs to the tick after the part with LAST (R515). -/
def State.runFrame (blocks : Nat) (t : Taken) (s : State) : State :=
  let x := s.ctx t.ctx
  let s := s.clamps t []
  if x.st ≠ .bound then s.notPerformed t.cmd
  else
    let f := s.runFormats t
    let s := each f.2.2 (fun w s => s.clampAt t.ctx 0x31 w) s
    let frame := t.f 191 160
    let part := t.f 135 128
    let last := t.f 136 136 == 1
    let tick := s.tick.count + 1
    let before := s.partsTaken t.ctx frame
    let u := runTask t true part f.1 f.2.1 tick s.tick.count x.runMap.tone (if last then max 1 blocks else 0) last
    if part ≠ before.length then s.notPerformed t.cmd
    else if last && x.runs.contains (tick, 64) then (s.endParts u).notPerformed t.cmd
    else
      let s := if last then s.onCtx t.ctx (fun x => { x with runs := x.runs ++ [(tick, 64)] }) else s
      s.beginTask t u

/-- RUN_FRAME. -/
def execRunFrame (p : Packet) (blocks : Nat) (s : State) : Host.Outcome State Fault Refusal :=
  .next (s.command p (isOp 0x31) (State.runFrame blocks))

-- RETOUCH.

/-- LR in its range: NaN and negative values become 0, above 1.0 becomes 1.0. -/
def clampLr (x : Nat) : Nat :=
  if 0x7F800000 < x % 2 ^ 31 then 0 else if 2 ^ 31 < x then 0 else if x < 2 ^ 31 ∧ 0x3F800000 < x then 0x3F800000 else x

/-- MOM in its range: NaN and negative values become 0, above 0.999 the greatest FP16 value within it. -/
def clampMom (x : Nat) : Nat :=
  if 0x7C00 < x % 2 ^ 15 then 0 else if 2 ^ 15 < x then 0 else if x < 2 ^ 15 ∧ 0x3BFD < x then 0x3BFD else x

/-- Kind code of a LOWRANK layer (R204). -/
def lowrankKind : Nat := 5

/-- The layer list of a RETOUCH: indexes up to the first 0xFFFF, numbered by place. -/
def layerList (payload : List Byte) : List (Nat × Nat) :=
  ((List.range 32).map (fun i => (i, fieldB payload (2 * i) 2))).takeWhile (fun p => p.2 != 0xFFFF)

/-- RETOUCH begins a run of gradient steps, after those that the context has in progress. -/
def State.retouchCmd (t : Taken) (s : State) : State :=
  let x := s.ctx t.ctx
  let eset := if t.f 143 128 = 0 then 1 else t.f 143 128
  let steps := max 1 (t.f 151 144)
  let lr := clampLr (t.f 223 192)
  let mom := clampMom (t.f 239 224)
  let all := layerList (slice t.payload 0 64)
  let low (p : Nat × Nat) : Bool := (x.runMap.ll p.2).kind.toNat == lowrankKind
  let s := s.clamps t (bad (t.f 143 128 == 0) 128 ++ bad (t.f 151 144 == 0) 144 ++ bad (lr != t.f 223 192) 192 ++
    bad (mom != t.f 239 224) 224 ++ (if x.st = .bound then (all.filter (fun p => !low p)).map (fun p => 0x8000 + 2 * p.1) else []) ++
    t.lengthClamp 1)
  if x.st ≠ .bound ∨ (s.obj (t.f 171 152)).isNone ∨ (s.obj (t.f 191 172)).isNone then s.notPerformed t.cmd
  else if x.fence then s.complete t.cmd 2 0 0 []
  else
    let r : RetouchRun := {
      cmd := t.cmd, layers := (all.filter low).map (·.2), steps := steps, eset := BitVec.ofNat 16 eset, lr := BitVec.ofNat 32 lr
      mom := BitVec.ofNat 16 mom, nsamp := t.f 255 240 + 1, samp := t.f 171 152, tgt := t.f 191 172 }
    s.onCtx t.ctx (fun x => if x.retouch.isNone then { x with retouch := some r } else { x with retouchNext := x.retouchNext ++ [r] })

/-- RETOUCH. -/
def execRetouch (p : Packet) (s : State) : Host.Outcome State Fault Refusal := .next (s.command p (isOp 0x50) State.retouchCmd)

-- Retouch steps (R227 to R230).

/-- n bytes of an object from a byte offset, and whether a swatch of them could not be read. -/
def State.objBytes (o off n : Nat) (remote : List Byte) (s : State) : List Byte × Bool × State :=
  let first := off / 16384
  let r := State.readSwatches o first remote ((List.range ((off + n + 16383) / 16384 - first)).map (first + ·)) s
  (slice r.1 (off % 16384) n, r.2.1, r.2.2.2)

/-- A layer's part of SAMPOBJ, n sample positions: n rows of K activations, then n rows of M values y′ in INT32 (log 117). -/
def LLayer.sampBytes (l : LLayer) (n : Nat) : Nat := n * (l.k + 4 * l.m)
/-- A layer's part of TGTOBJ: n rows of M targets in FP32 (log 117). -/
def LLayer.tgtBytes (l : LLayer) (n : Nat) : Nat := n * (4 * l.m)

/-- Words of four bytes. -/
def words (bs : List Byte) : List Word := (pieces 4 bs).map (fun b => BitVec.ofNat 32 (natOf b))

/-- Rows of n elements, m of them. -/
def rowsFrom {α : Type} (m n : Nat) (xs : List α) : List (List α) := (List.range m).map (fun i => (xs.drop (n * i)).take n)

/-- A and B of a LOWRANK layer as the Canvas holds them (R224), row after row, in FP32. -/
def LLayer.canvasOf (l : LLayer) (bs : List Byte) : List Word :=
  let f := floatFmt l.fmt.toNat l.fp8w
  let n := l.wBits / 8
  (pieces n bs).map (fun b => BitVec.ofNat 32 (fp32.enc false (f.val (natOf b))))

/-- The layers of a step with their places in SAMPOBJ and TGTOBJ, in payload order (log 117). -/
def retouchPlaces (m : CMap) (n : Nat) : List Nat → Nat → Nat → List (Nat × Nat × Nat)
  | [], _, _ => []
  | l :: ls, a, b => (l, a, b) :: retouchPlaces m n ls (a + (m.ll l).sampBytes n) (b + (m.ll l).tgtBytes n)

/-- Reads what a step takes for one layer; the flag tells that something could not be read. -/
def State.retouchLayer (m : CMap) (r : RetouchRun) (inp : RetouchIn) (i : Nat) (p : Nat × Nat × Nat) (s : State) : RetouchData × Bool × State :=
  let l := m.ll p.1
  let x := s.objBytes r.samp p.2.1 (l.sampBytes r.nsamp) inp.samp
  let y := x.2.2.objBytes r.tgt p.2.2 (l.tgtBytes r.nsamp) inp.tgt
  let w := y.2.2.objBytes (galObj l.waddr.toNat) (galOff l.waddr.toNat) l.weightBytes (inp.canvas.getD i [])
  let ab := l.canvasOf w.1
  ({ layer := p.1, a0 := ab.take (l.rank * l.k), b0 := (ab.drop (l.rank * l.k)).take (l.rank * l.m), xs := rowsFrom r.nsamp l.k x.1
     high := (rowsFrom r.nsamp l.m (words (x.1.drop (r.nsamp * l.k)))).map (fun ys => ys.map (fun y => signed 32 y.toNat))
     targets := rowsFrom r.nsamp l.m (words y.1), ascale := inp.ascales.getD i 0 }, x.2.1 || y.2.1 || w.2.1, w.2.2)

/-- Reads what a step takes for every trained layer. -/
def State.retouchReads (m : CMap) (r : RetouchRun) (inp : RetouchIn) : Nat → List (Nat × Nat × Nat) → State → List RetouchData × Bool × State
  | _, [], s => ([], false, s)
  | i, p :: ps, s =>
    let a := s.retouchLayer m r inp i p
    let b := State.retouchReads m r inp (i + 1) ps a.2.2
    (a.1 :: b.1, a.2.1 || b.2.1, b.2.2)

/-- One step on every trained layer (R227); a step whose data cannot be read is not done yet. -/
def State.retouchStep (c : Nat) (r : RetouchRun) (inp : RetouchIn) (s : State) : State :=
  let m := s.curMap c
  let d := s.retouchReads m r inp 0 (retouchPlaces m r.nsamp r.layers 0 0)
  if d.2.1 then d.2.2
  else d.2.2.onCtx c (fun x => { x with
    retouch := some { r with ready := r.ready + 1 }
    low := d.1.foldl (fun t i => modify {} i.layer (fun w => w.step (m.ll i.layer) r i) t) x.low })

/-- RETOUCH_STEP_DONE (R227, R229): a step has its gradients from the samples and targets of the command, and its new copies wait for the edge; a step
that lost its data is discarded (R292, R624). -/
def execRetouchStepDone (ctx : Nat) (inp : RetouchIn) (s : State) : Host.Outcome State Fault Refusal :=
  .next (match (s.ctx ctx).retouch with
    | none => s
    | some r => onlyIf (s.serving && decide (r.done + r.ready < r.steps)) (fun s =>
        if r.spoiled then s.onCtx ctx (fun x => { x with retouch := some { r with done := r.done + 1, spoiled := false } })
        else s.retouchStep ctx r inp) s)

end Sys2Proof.Machine
end

