-- ==== Sys2Proof/Machine/Settings.lean ====
section
/-! DEFINITION. Settings that take effect at an edge (R26 to R28, R146, R713, R714): TICK_CONFIG, CAL_CONTROL (R133, R134, R519) and
the commits of the Tick unit, the Primer and Glaze. -/

namespace Sys2Proof.Machine

-- Registers of shadows (R36, R146, R296). A register writer takes the 32 bits of the register.

/-- TCK_CFG. -/
def TickCfg.putCfg (v : Nat) (k : TickCfg) : TickCfg :=
  { k with slices := BitVec.ofNat 6 (bits v 13 8), holdover := BitVec.ofNat 1 (bits v 2 2), src := BitVec.ofNat 2 v }

/-- PRM_CFG and PRM_LIMITS0 to PRM_LIMITS2, by number. -/
def PrmCfg.put (i v : Nat) (k : PrmCfg) : PrmCfg :=
  match i with
  | 0 => { k with
      mmt := BitVec.ofNat 8 (bits v 31 24), mmn := BitVec.ofNat 4 (bits v 23 20), rngn := BitVec.ofNat 4 (bits v 19 16)
      filt := BitVec.ofNat 3 (bits v 10 8), mode := BitVec.ofNat 2 v }
  | 1 => { k with gainMax := BitVec.ofNat 16 (bits v 31 16), gainMin := BitVec.ofNat 16 v }
  | 2 => { k with
      ofsLim := BitVec.ofNat 12 (bits v 27 16), ofsStep := BitVec.ofNat 8 (bits v 15 8), gainStep := BitVec.ofNat 8 v }
  | _ => { k with mmh := BitVec.ofNat 16 (bits v 31 16), probeMax := BitVec.ofNat 16 v }

/-- GLZ_CFG. -/
def glzFields (rawcut drift histblk mode : Nat) : GlzCfg :=
  { rawcut := BitVec.ofNat 6 rawcut, drift := BitVec.ofNat 8 drift, histblk := BitVec.ofNat 4 histblk, mode := BitVec.ofNat 2 mode }

-- Commits (R28, R713, R714).

/-- TCK_COMMIT: every shadow is latched for the next edge. -/
def State.tckCommit (s : State) : State := s.onTick (fun k => { k with latched := some k.shadow })
/-- PRM_COMMIT. -/
def State.prmCommit (s : State) : State := s.onPrimer (fun p => { p with latched := some p.shadow })
/-- GLZ_COMMIT. -/
def State.glzCommit (s : State) : State := s.onGlaze (fun g => { g with latched := some g.shadow })

/-- TCK_COMMIT. -/
def execTckCommit (s : State) : Host.Outcome State Fault Refusal := .next (onlyIf s.easelRuns State.tckCommit s)
/-- PRM_COMMIT. -/
def execPrmCommit (s : State) : Host.Outcome State Fault Refusal := .next (onlyIf s.easelRuns State.prmCommit s)
/-- GLZ_COMMIT. -/
def execGlzCommit (s : State) : Host.Outcome State Fault Refusal := .next (onlyIf s.easelRuns State.glzCommit s)

-- TICK_CONFIG.

/-- TICK_CONFIG writes the Tick unit's registers and commits them (R26 to R28). -/
def State.tickConfig (t : Taken) (s : State) : State :=
  let src := if t.f 129 128 = 3 then 2 else t.f 129 128
  let nom := clampN 200000 12500000 (t.f 183 160)
  let min_ := clampN 200000 nom (t.f 215 192)
  let s := s.clamps t (bad (t.f 129 128 == 3) 128 ++ bad (nom != t.f 183 160) 160 ++ bad (min_ != t.f 215 192) 192 ++ t.lengthClamp 0)
  let s := s.onTick (fun k => { k with shadow := {
    slices := BitVec.ofNat 6 (t.f 136 131), holdover := BitVec.ofNat 1 (t.f 130 130), src := BitVec.ofNat 2 src
    nom := BitVec.ofNat 24 nom, min := BitVec.ofNat 24 min_ } })
  s.tckCommit.complete t.cmd 0 s.tick.count.toNat 0 []

/-- TICK_CONFIG. -/
def execTickConfig (p : Packet) (s : State) : Host.Outcome State Fault Refusal := .next (s.command p (isOp 0x40) State.tickConfig)

-- CAL_CONTROL.

/-- OP of a CAL_CONTROL: SET where it is undefined. -/
def calOp (h : Line) : Nat := if hdrBits h 129 128 = 3 then 0 else hdrBits h 129 128
/-- A CAL_CONTROL with that OP. -/
def isCal (op : Nat) (h : Line) : Bool := hdrOp h == 0x41 && calOp h == op
/-- PANEL of a CAL_CONTROL. -/
def Taken.panel (t : Taken) : Nat := min 543 (t.f 139 130)
/-- Clamps of a CAL_CONTROL. -/
def Taken.calClamps (t : Taken) : List Nat :=
  bad (t.f 129 128 == 3) 128 ++ bad (decide (543 < t.f 139 130)) 130 ++ t.lengthClamp 0

/-- SET: the registers that MASK selects are written and committed (R519). -/
def State.calSet (t : Taken) (s : State) : State :=
  let s := s.clamps t t.calClamps
  let s := each (List.range 4) (fun i s =>
    onlyIf (bit (t.f 143 140) i) (State.onPrimer (fun p => { p with shadow := p.shadow.put i (t.f (191 + 32 * i) (160 + 32 * i)) })) s) s
  s.prmCommit.complete t.cmd 0 0 0 []

/-- MARK: a SERVING panel is marked with cause MANUAL at the next edge (R134). -/
def State.calMark (t : Taken) (s : State) : State :=
  let s := s.clamps t t.calClamps
  if (s.panel t.panel).st ≠ .serving then s.notPerformed t.cmd
  else (s.onPanel t.panel (fun p => { p with pendCause := if p.pendCause = 0 then 4 else p.pendCause })).complete t.cmd 0 t.panel 0 []

/-- CLEAR: a MARKED panel returns to SERVING at the next edge (R133). -/
def State.calClear (t : Taken) (s : State) : State :=
  let s := s.clamps t t.calClamps
  if (s.panel t.panel).st ≠ .marked then s.notPerformed t.cmd
  else (s.onPanel t.panel (fun p => { p with pendClear := true })).complete t.cmd 0 t.panel 0 []

/-- CAL_CONTROL SET. -/
def execCalControlSet (p : Packet) (s : State) : Host.Outcome State Fault Refusal := .next (s.command p (isCal 0) State.calSet)
/-- CAL_CONTROL MARK. -/
def execCalControlMark (p : Packet) (s : State) : Host.Outcome State Fault Refusal := .next (s.command p (isCal 1) State.calMark)
/-- CAL_CONTROL CLEAR. -/
def execCalControlClear (p : Packet) (s : State) : Host.Outcome State Fault Refusal := .next (s.command p (isCal 2) State.calClear)

end Sys2Proof.Machine
end

