-- ==== Sys2Proof/Machine/Power.lean ====
section
/-! DEFINITION. Power states (R625 to R641): POWER, what a sleep takes away, the wake sources and the resume; the rows that a POWER
entry waits for (R162, R360, R389); trims and allowances (R145, R165). -/

namespace Sys2Proof.Machine

-- Records (R145, R163, R165).

/-- The trims of every panel are saved in the Plan chest (R145), while its controller serves; the allowance is 4 at shipment (R165). -/
def State.saveTrims (s : State) : State :=
  if s.chest.fenced then s
  else (s.recTrims).onBoot (fun b => { b with nv := { b.nv with panels := s.panels.panels.foldl (fun t p =>
    modify { allow := 4 } p.1 (fun r => { r with w0 := p.2.w0.trims, w1 := p.2.w1.trims, w2 := p.2.w2.trims, w3 := p.2.w3.trims }) t) b.nv.panels } })

/-- The record of every panel and the powered hours are saved. -/
def State.savePanels (s : State) : State :=
  (each (s.panels.panels.map (·.1)) State.savePanel s).onBoot (fun b => { b with nv := { b.nv with hours := s.panels.hours.toNat } })

/-- TRIM_SAVE (R145): every 65,536 ticks. -/
def execTrimSave (s : State) : Host.Outcome State Fault Refusal :=
  .next (onlyIf (s.serving && s.tick.begun && s.tick.count.toNat % 65536 == 0) State.saveTrims s)

/-- POWERED_HOUR (R165): the always-on timebase counts while the part has power; PNL_HOURS follows once it has been loaded (R187). -/
def execPoweredHour (s : State) : Host.Outcome State Fault Refusal :=
  .next (onlyIf s.pins.pwrGood (fun s =>
    (s.onPins (fun p => { p with aonHours := p.aonHours + 1 })).onPanels (fun u => { u with
      hours := if s.boot.wearLoaded then satInc u.hours else u.hours })) s)

/-- ALLOWANCE_GAIN (R165): each 2,190 powered hours give every panel one re-prime more, up to 4. -/
def execAllowanceGain (s : State) : Host.Outcome State Fault Refusal :=
  .next (onlyIf (s.ready && !s.dead && s.boot.wearLoaded && decide (s.pins.gains < s.pins.aonHours / 2190)) (fun s =>
    let s := s.onPins (fun p => { p with gains := p.gains + 1 })
    (s.onPanels (fun u => { u with panels := u.panels.map (fun p => (p.1, { p.2 with
      allow := if p.2.allow.toNat < 4 then p.2.allow + 1 else 4 })) })).savePanels) s)

-- Entering a state (R628).

/-- A panel program is in flight: its erase has begun (R628, step 2). -/
def State.programming (s : State) : Bool :=
  s.panels.panels.any (fun p => match p.2.req with | some (r, _) => r.begun | none => false)

/-- Every DIRTY copy is written back and every other copy dropped (R628, step 4), one whose write-back is under way once it has ended; what a PIN still
waited for ends with it. -/
def State.dropCopies (s : State) : State :=
  let s := each (s.sw.table.filter (fun p => !p.2.homeEnt && p.2.st == .resident && !p.2.wb)) (fun p s => s.evict p.1) s
  (s.onSw (fun w => { w with
    table := w.table.filter (fun p => p.2.homeEnt || p.2.st == .evicting || p.2.st == .poisoned || p.2.wb)
    queue := w.queue.filter (fun m => m.kind == .refetch || m.kind == .homeMove || m.kind == .evict)
    flight := w.flight.filter (fun m => m.kind == .refetch || m.kind == .homeMove || m.kind == .evict)
    placing := w.placing.map (fun p => { p with pinLeft := [] }) })).settle

/-- What has been written is on its way to a home tier. -/
def State.writingBack (s : State) : Bool :=
  s.sw.table.any (fun p => p.2.wb || p.2.st == .evicting) || s.sw.homeWr.any (fun x => s.sw.direct.any (fun m => m.obj == x.1 && m.idx == x.2.1))

/-- What urgent doorbells have asked for is served before WAIT (R644). -/
def State.drainUrgent (s : State) : State :=
  let s := each (List.range 16) (fun n s => if s.link.urgPending.getLsbD n then s.urgentAbort n else s) s
  each s.ctxIds (fun c s => if (s.ctx c).abortCmds.isEmpty then s else s.abortDone c) s

/-- A bank goes to RETAIN, or to OFF in REST where it is not pinned (R625); its shadow keeps what it returns to. -/
def Bank.sleep (rest : Bool) (k : Bank) : Bank :=
  if !k.on then k
  else if rest && !k.ctl.pin then
    { k with ctl := { k.ctl with state := 0 }, lines := [], clear := false, conv := none, convWait := none }
  else { k with ctl := { k.ctl with state := 1 } }

/-- All modules. -/
def allModules : List ModId := [.hl 0, .hl 1, .fab 0, .fab 1, .fab 2, .fab 3]

/-- Banks, Window and modules of DOZE, REST and OFF (R625, R329). -/
def State.darken (st : Nat) (s : State) : State :=
  let s := match s.pal.tester.hold with | some (b, _, _) => s.testerYield b | none => s
  let s := s.onPal (fun p => { p with banks := p.banks.map (fun b => (b.1, b.2.sleep (decide (3 ≤ st)))) })
  each allModules State.modReset (s.onWin (fun w => { w with power := 1 }))

/-- Level sources that are asserted, by bit (R633). -/
def State.levels (s : State) : BitVec 3 :=
  s.pmu.en &&& s.pmu.lvl &&& BitVec.ofNat 3 ((if s.pins.wake then 1 else 0) + (if s.pmu.sideLevel then 2 else 0))

/-- WAIT (R628, step 7): the sleep request. A level source that is asserted makes the part leave at once (R634). -/
def State.sleep (st : Nat) (s : State) : State :=
  let now := if st = 4 then 0 else s.levels
  (s.onPmu (fun m => { m with
    mode := BitVec.ofNat 3 st, asleep := true, entering := none, leaving := if now = 0 then none else some now
    immediate := m.immediate || now != 0 })).onBoot (fun b => { b with wdogRun := false })

/-- The steps of a POWER entry as far as they can go now (R628): it waits for programs in flight, for writes of the Plan chest, and
for the write-backs that it starts itself. -/
def State.powerEnter (s : State) : State :=
  match s.pmu.entering with
  | none => s
  | some (st, c) =>
    if s.programming || !s.chest.buffer.isEmpty then s
    else
      let s := each s.allBound (fun x s => if (s.ctx x).powerFence then s
        else (s.onCtx x (fun y => { y with powerFence := true })).fenceCtx x) s
      let s := s.saveTrims
      let s := if 3 ≤ st then s.dropCopies.savePanels else s
      if !s.chest.buffer.isEmpty || s.writingBack then s
      else
        let s := s.drainUrgent
        let s := if st = 4 then s.onFlash (fun f => { f with checkpoints := f.checkpoints + 1 }) else s
        let s := if 2 ≤ st then s.darken st else s
        (s.complete c 0 st 0 []).sleep st

-- POWER (R520, R627, R638).

/-- STATE of a POWER: ACTIVE where it is undefined. -/
def powerState (h : Line) : Nat := if 4 < hdrBits h 130 128 then 0 else hdrBits h 130 128
/-- A POWER with that STATE. -/
def isPower (st : Nat) (h : Line) : Bool := hdrOp h == 0x70 && powerState h == st

/-- WAKEEN and WAKELVL as used (R638): bit 2 of WAKEEN falls with TIMER 0, and no source becomes the WAKE bump at level. -/
def wakeFields (st en lvl timer : Nat) : Nat × Nat :=
  let en := if timer = 0 then en % 4 else en
  if en = 0 ∧ 1 ≤ st ∧ st ≤ 3 then (1, 1) else (en, lvl)

/-- POWER. -/
def State.power_ (t : Taken) (s : State) : State :=
  let st := powerState t.cmd.hdr
  let cap := if t.f 137 131 = 0 then 0 else clampN 25 75 (t.f 137 131)
  let w := wakeFields st (t.f 140 138) (t.f 143 141) (t.f 175 144)
  let s := s.clamps t (bad (decide (4 < t.f 130 128)) 128 ++ bad (cap != t.f 137 131) 131 ++ bad (w.1 != t.f 140 138) 138 ++
    bad (w.2 != t.f 143 141) 141 ++ t.lengthClamp 0)
  if st ≠ 0 ∧ s.boot.trial then s.notPerformed t.cmd
  else
    let s := s.onPmu (fun m => { m with next := if cap = 0 then m.next else BitVec.ofNat 7 cap })
    let s := s.fitPool
    if st = 0 then s.complete t.cmd 0 0 0 []
    else (s.onPmu (fun m => { m with
      en := BitVec.ofNat 3 w.1, lvl := BitVec.ofNat 3 w.2, timer := BitVec.ofNat 32 (t.f 175 144), entering := some (st, t.cmd) })).powerEnter

/-- POWER with STATE ACTIVE. -/
def execPowerActive (p : Packet) (s : State) : Host.Outcome State Fault Refusal := .next (s.command p (isPower 0) State.power_)
/-- POWER with STATE HOLD. -/
def execPowerHold (p : Packet) (s : State) : Host.Outcome State Fault Refusal := .next (s.command p (isPower 1) State.power_)
/-- POWER with STATE DOZE. -/
def execPowerDoze (p : Packet) (s : State) : Host.Outcome State Fault Refusal := .next (s.command p (isPower 2) State.power_)
/-- POWER with STATE REST. -/
def execPowerRest (p : Packet) (s : State) : Host.Outcome State Fault Refusal := .next (s.command p (isPower 3) State.power_)
/-- POWER with STATE OFF. -/
def execPowerOff (p : Packet) (s : State) : Host.Outcome State Fault Refusal := .next (s.command p (isPower 4) State.power_)

-- What an entry waits for.

/-- PROGRAM_COMPLETE (R153 to R156, R162). -/
def execProgramComplete (group : Nat) (good : Bool) (pulses : BitVec 4) (time : Half) (refs : List (List (Byte × Byte)))
    (s : State) : Host.Outcome State Fault Refusal :=
  .next (onlyIf (s.serving && decide (group < 32)) (fun s => (s.programComplete group good pulses time refs).powerEnter) s)

/-- CHEST_WRITE_DONE (R389, R398). -/
def execChestWriteDone (quad blockSet page : Nat) (failed : List Nat) (s : State) : Host.Outcome State Fault Refusal :=
  .next (onlyIf s.up (fun s => (s.chestWriteDone quad blockSet page failed).durable.sendWracks.placingCheck.powerEnter) s)

/-- WRITEBACK_DONE (R360, R364). -/
def execWritebackDone (obj idx : Nat) (s : State) : Host.Outcome State Fault Refusal :=
  .next (onlyIf (s.up && !s.sw.migFenced) (fun s => (s.writebackDone obj idx).powerEnter) s)

-- Waking (R633 to R637).

/-- The part sleeps in a state that a wake source can end, and no exit has begun (R627, R637). -/
def State.wakeable (s : State) : Bool := !s.dead && s.pmu.asleep && s.pmu.leaving.isNone && s.pmu.mode != 4

/-- A wake event of a source: the exit begins (R636), from a lowered VDD_CORE with behaviour unspecified (R690). -/
def State.wakeBy (src : Nat) (coreLow : Bool) (s : State) : Host.Outcome State Fault Refusal :=
  if coreLow && decide (2 ≤ s.power) then .fault .coreBelowActive
  else .next (s.onPmu (fun m => { m with leaving := some (BitVec.ofNat 3 (2 ^ src)) }))

/-- A source fires: at level while asserted, at an edge unless the event comes within 4 EAS cycles of the sleep request (R634). -/
def State.fires (s : State) (src : Nat) (level edge : Bool) (cycles : Nat) : Bool :=
  s.wakeable && s.pmu.en.getLsbD src && (if s.pmu.lvl.getLsbD src then level else edge && decide (4 < cycles))

/-- WAKE_BUMP (R633, R634): the bump goes to a level; a high shorter than 2 AON cycles may be missed by a level source. -/
def execWakeBump (level : Bool) (cycles : Nat) (short coreLow : Bool) (s : State) : Host.Outcome State Fault Refusal :=
  let rise := level && !s.pins.wake
  let s := s.onPins (fun p => { p with wake := level && !short })
  if s.fires 0 level rise cycles then
    if s.pmu.lvl.getLsbD 0 && short then
      let r := s.freeBit
      if r.1 then r.2.wakeBy 0 coreLow else .next r.2
    else s.wakeBy 0 coreLow
  else .next s

/-- WAKE (R633, R456): the sideband message; byte 1 asserts or deasserts the request. -/
def execWake (hl : Nat) (byte1 : Byte) (cycles : Nat) (coreLow : Bool) (s : State) : Host.Outcome State Fault Refusal :=
  if s.dead || 2 ≤ hl || !s.manager then .next s
  else
    let s := s.onPmu (fun m => { m with sideLevel := if byte1 = 1 then true else if byte1 = 0 then false else m.sideLevel })
    if s.fires 1 (byte1 == 1) (byte1 == 1) cycles then s.wakeBy 1 coreLow else .next s

/-- WAKE_TIMER (R633): TIMER µs have passed since the sleep request. -/
def execWakeTimer (us : Nat) (coreLow : Bool) (s : State) : Host.Outcome State Fault Refusal :=
  if us = s.pmu.timer.toNat ∧ us ≠ 0 ∧ s.fires 2 true true 5 then s.wakeBy 2 coreLow else .next s

/-- Home slots that lay in banks without power read as zeros, with valid tags (R630). -/
def State.zeroHomes (lost : List Nat) (s : State) : State :=
  each (s.sw.table.filter (fun p => p.2.homeEnt && !p.2.t2 && lost.contains p.2.bank)) (fun p s =>
    let z : List Byte := List.replicate 16384 0
    s.slotPut p.2.bank p.2.slot z (makeTag p.2.obj p.2.idx 0 0 z)) s

/-- The trims return from the Plan chest (R636). -/
def State.restoreTrims (s : State) : State :=
  s.onPanels (fun u => { u with panels := u.panels.map (fun p =>
    let r := look {} s.boot.nv.panels p.1
    (p.1, { p.2 with w0 := r.w0.trims, w1 := r.w1.trims, w2 := r.w2.trims, w3 := r.w3.trims })) })

/-- What the arithmetic units lose in REST (R626): results, scratches, caches, counters. -/
def State.loseArith (s : State) : State :=
  let s := s.onGlaze (fun g => { shadow := g.shadow, eff := g.eff, fenced := g.fenced, nextId := g.nextId })
  let s := s.onWp (fun w => { wFenced := w.wFenced, pFenced := w.pFenced })
  let s := s.onLiner (fun u => { engs := u.engs.map (fun p => (p.1, { fenced := p.2.fenced })) })
  let s := s.onPrimer (fun p => { shadow := p.shadow, eff := p.eff, fenced := p.fenced })
  s.onPanels (fun u => { u with
    panels := u.panels.map (fun p => (p.1, { p.2 with rngrun := 0, mmrun := 0, mmTick := 0, mmLast := 0, total := 0, probe := 0 }))
    groups := u.groups.map (fun p => (p.1, { fenced := p.2.fenced, spareUsed := p.2.spareUsed, queue := p.2.queue }))
    pnlSel := 0, ctxSel := 0, layerSelCtx := 0, layerSelLayer := 0 })

/-- What the units that store and move lose in REST (R626). -/
def State.loseStores (s : State) : State :=
  let s := s.onTick (fun k => { shadow := k.shadow, eff := k.eff, meas := k.eff.nom, sliceLen := k.eff.nom, gridP := k.eff.nom.toNat, count := k.count })
  let s := s.onPal (fun p => { banks := p.banks.map (fun b => (b.1, { b.2 with check := 0, corr := 0, lost := [], bad := [], chunk := 0, waiting := [] })), tester := { run := true } })
  let s := s.onSw (fun w => { w with
    last1 := 0, last2 := 0, swReady := false, migReady := false, hits := 0, misses := 0, unmapped := 0, objSel := 0, stuck := false
    unpoisonEvent := false, poisonEvent := false, promotes := 0, evicts := 0, writebacks := 0, noslot := 0, races := 0, poisons := 0, refetches := 0
    timeouts := 0, direct := [], parts := [], late := [], homeWr := [] })
  let s := s.onChest (fun c => { c with
    ready := false, uncorrEvent := false, corr := 0, uncorr := 0, retries := 0, relDisturb := 0, relRefresh := 0, wpRefused := 0, maxlat := 0
    suspends := 0, rawPlane := 0, rawBlock := 0, rawPage := 0, rawDone := false, rawStatus := 0, rawMax := 0, rawBlank := false, rawBuf := [] })
  let s := s.onMover (fun m => { m with
    queues := m.queues.map (fun q => (q.1, { q.2 with rearms := 0, lost := 0, bytes := 0, bucket := 196608 })), ready := false, faultEvent := false
    semSat := false, pairStale := false, qSel := 0, semSel := 0, ctxSel := 0, rrReal := 0, rrBest := 0, ports := [] })
  let s := s.onFab (fun f => { f with ready := false, dropped := 0, portSel := 0, chanSel := 0, rmt := {}, shards := 0, retx := 0, nacks := 0, incomplete := 0 })
  s.onEveryCtx (fun _ x => { x with cnt := {}, stats := [], latched := [], pics := [], stateBuf := [], stateNew := [] })

/-- What REST does not keep (R626): all state outside Easel's SRAMs, the Window, the pinned banks and the always-on island, the Signature unit's
expanded key and every helper's microcode among it (R17). Easel writes the settings
of the units again from its SRAMs (log 65), and token tables and semaphores from the dispatch banks (R636). -/
def State.loseVolatile (s : State) : State :=
  let s := s.loseArith.loseStores.restoreTrims
  let s := s.onBoot (fun b => { b with secReady := false, keyReady := false })
  (s.onMover (fun m => { m with sems := m.semInit })).onEveryCtx (fun _ x => { x with tok := {} })

/-- Every helper's microcode has loaded (R17). -/
def State.helpersReady (s : State) : State :=
  let s := s.onLiner (fun u => { u with engs := (List.range 16).foldl (fun t e => modify {} e (fun x => { x with ready := true }) t) u.engs })
  let s := (s.onWp (fun w => { w with wReady := true, pReady := true })).onGlaze (fun g => { g with ready := true })
  let s := (s.onPrimer (fun p => { p with running := true })).onSw (fun w => { w with swReady := true, migReady := true })
  let s := (s.onChest (fun c => { c with ready := true })).onMover (fun m => { m with ready := true })
  let s := s.onTick (fun k => { k with loaded := true })
  ((s.onFab (fun f => { f with ready := true })).onPmu (fun m => { m with ready := true })).onBoot (fun b => { b with secReady := true })

/-- A load of Easel code or microcode whose CRC fails twice ends in a whole-stack fence (R616, R661). -/
def State.startFenced (error : Byte) (a0 : Nat) (s : State) : State :=
  (s.onBoot (fun b => { b with error := error })).stackFence a0

/-- Easel loads every helper's microcode from the active slot (R17, R661); `ok` that its reads came without a fault. -/
def State.reloadHelpers (ok : Bool) (s : State) : State :=
  if ok && s.chest.flash.loads s.boot.slotB [3] then s.helpersReady else s.startFenced 5 0xFF

/-- A module that a power state held in RESET trains again (R636): the host link's, and ports with joined stacks. -/
def State.retrainAll (s : State) : State :=
  each allModules (fun m s =>
    let use_ := match m with
      | .hl _ => true
      | .fab p => if s.manager then (List.range 4).any (fun q => s.fab.joined.getLsbD (4 * p + q)) else p == 0 || s.fab.joinedSelf
    if use_ && s.mayTrain m && (s.modOf m).st == .reset then s.train m else s) s

/-- The lowest source of a set. -/
def lowestSrc (m : BitVec 3) : Nat := if m.getLsbD 0 then 0 else if m.getLsbD 1 then 1 else 2

/-- EASEL_RESUME (R636, R637): the exit ends, WAKE_ACK goes out on both sidebands, and the record WAKE follows with an ACTIVE module;
after DOZE and REST the banks and the Window return, and the Tick unit measures afresh (R29). After REST every helper's microcode is loaded again
(R17); a load that fails twice fences the stack (R661). -/
def execEaselResume (loadOk : Bool) (s : State) : Host.Outcome State Fault Refusal :=
  .next (match s.pmu.leaving with
    | none => s
    | some m => onlyIf (!s.dead && s.pmu.asleep) (fun s =>
      let st := s.power
      let lost := if st = 3 then ((s.pal.banks.filter (fun b => b.2.ctl.state == 0 && b.2.shadow.state.getLsbD 1)).map (·.1)) else []
      let s := s.onPmu (fun p => { p with
        mode := 0, asleep := false, leaving := none, lastSrc := m, lastState := BitVec.ofNat 3 st, wakes := satInc p.wakes
        wakeRecord := some (lowestSrc m) })
      let s := if 2 ≤ st then
          (((s.palCommit).onWin (fun w => { w with power := 2 })).onTick (fun k => { k with
            periods := [], bandPeriods := [], lastReal := none })).retrainAll
        else s
      let s := if st = 3 then ((s.loseVolatile).zeroHomes lost).reloadHelpers loadOk else s
      let s := s.onBoot (fun b => { b with wdogRun := true, wdogKicks := 0 })
      let s := s.onLink (fun l => { l with side := if s.manager then l.side ++ [0, 1] else l.side })
      s.wakeRecord) s)

end Sys2Proof.Machine
end

