-- ==== Sys2Proof/Machine/Boot.lean ====
section
/-! DEFINITION. Resets (R647 to R650), the start (R651 to R657), images and their verification (R658 to R661), boot records and
recovery (R662 to R666), the watchdog (R649). -/

namespace Sys2Proof.Machine

-- Resets.

/-- The strapped role and position (R564, R566). -/
def strapped (strap : BitVec 4) : Fabric := { strap := strap, selfAddr := strap.toNat % 4 }

/-- Modules begin training when a reset ends (R453, R647, R648). -/
def State.trainAtStart (s : State) : State :=
  each (if s.manager then [.hl 0, .hl 1] else [.fab 0]) (fun m s => if s.mayTrain m then s.train m else s) s

/-- An internal reset (R648, R717): everything but the always-on island resets; what the Plan chest holds durably stays (R389). -/
def State.internalReset (cause : BitVec 3) (s : State) : State :=
  let s' : State := {
    State.reset with
    pending := s.pending, freeCtr := s.freeCtr, pins := s.pins, chest := s.chest.kept
    boot := { nv := s.boot.nv, held := false, resets := satInc s.boot.resets, cause := cause }
    dbg := { tap := s.dbg.tap, ir := s.dbg.ir, shift := s.dbg.shift, bscan := s.dbg.bscan }
    link := { hl0 := { vddq := s.link.hl0.vddq }, hl1 := { vddq := s.link.hl1.vddq } }
    fab := { strapped s.fab.strap with ports := s.fab.ports.map (fun p => (p.1, { mod := { vddq := p.2.mod.vddq } })) } }
  s'.trainAtStart

/-- COLD_RESET (R647): while RESET_N is asserted or PWR_GOOD deasserted the part is held with every field at its Reset value. -/
def execColdReset (rstAsserted pwrGood : Bool) (s : State) : Host.Outcome State Fault Refusal :=
  .next (onlyIf (rstAsserted || !pwrGood) (fun s => {
    State.reset with
    pending := s.pending, freeCtr := s.freeCtr, chest := s.chest.kept, boot := { nv := s.boot.nv, held := true }
    dbg := if pwrGood then { tap := s.dbg.tap, ir := s.dbg.ir, shift := s.dbg.shift, bscan := s.dbg.bscan } else {}
    pins := { resetN := !rstAsserted, pwrGood := pwrGood, flWp := s.pins.flWp, straps := s.pins.straps, wake := s.pins.wake } }) s)

/-- WATCHDOG_EXPIRY (R649): 100 ms without a kick while Easel executes instructions. -/
def execWatchdogExpiry (s : State) : Host.Outcome State Fault Refusal :=
  .next (onlyIf (!s.dead && s.boot.wdogRun) (State.internalReset 1) s)

/-- A write to EAS_WDOG restarts the watchdog (R649). -/
def State.kick (value : Word) (s : State) : State :=
  s.onBoot (fun b => { b with wdogKicks := if value.getLsbD 0 then b.wdogKicks + 1 else b.wdogKicks })

/-- EAS_WDOG. -/
def execEasWdog (value : Word) (s : State) : Host.Outcome State Fault Refusal :=
  .next (onlyIf (!s.dead && s.boot.wdogRun) (State.kick value) s)

-- Verification (R660).

/-- Verification (R660); `sig` whether the Falcon signature over D verifies under the embedded key. -/
def State.verifySlot (s : State) (second sig : Bool) : Bool :=
  let f := s.chest.flash
  let key := f.imgBits second 157 156
  f.hasImage second && f.imgBits second 39 32 == 2 && decide (4096 ≤ f.imgLen second ∧ f.imgLen second ≤ 25165824) && f.sectionsOk second &&
    Config.shake256 (f.slotBytes second 64 1793) == Config.romKey key && !s.boot.keyrev.getLsbD key &&
    decide (s.boot.svn.toNat ≤ f.imgBits second 59 54) && sig

-- Boot records (R662).

/-- State of a slot in a record. -/
def BootRec.st (r : BootRec) (second : Bool) : BitVec 2 := if second then r.stB else r.stA
/-- Puts the state of a slot. -/
def BootRec.setSt (r : BootRec) (second : Bool) (v : BitVec 2) : BootRec := if second then { r with stB := v } else { r with stA := v }

/-- The 64 bytes of a boot record (R662), with the VERSION of the image in each slot that holds one. -/
def BootRec.bytes (r : BootRec) (f : Flash) : List Byte :=
  let ver (second : Bool) : Nat := if f.hasImage second then (f.version second).toNat else 0
  let n (b : Bool) (i : Nat) : Nat := if b then 2 ^ i else 0
  let body := bytesOf 60 (0x3A51 + r.seq % 2 ^ 32 * 2 ^ 16 + n r.slotB 48 + n r.trial 49 + r.stA.toNat * 2 ^ 52 + r.stB.toNat * 2 ^ 54 +
    r.kind.toNat * 2 ^ 56 + ver false * 2 ^ 64 + ver true * 2 ^ 96)
  body ++ bytesOf 4 (crc32 body)

/-- Writes the next boot record at the next index of the BOOT region, durable at once (R389, R662) (log 121). -/
def State.writeRec (f : BootRec → BootRec) (s : State) : State :=
  let old := s.boot.nv.rec_.getD {}
  let r := { f old with seq := old.seq + 1 }
  (s.onBoot (fun b => { b with nv := { b.nv with rec_ := some r } })).onChest (fun c => { c with
    recs := putRaw (r.seq % 4096) (c.flash.seq, lineOf (r.bytes c.flash)) c.recs })

-- The start.

/-- Slot that the ROM chooses (R663), none for recovery, with the records it writes. A trial image that the completion of recovery
starts is not a failed trial (R665). -/
def State.chooseSlot (okA okB : Bool) (s : State) : Option Bool × State :=
  let ok (second : Bool) : Bool := s.verifySlot second (if second then okB else okA)
  match s.boot.nv.rec_ with
  | none => (some false, s)
  | some r0 =>
    let failed := r0.trial && s.boot.cause != 4
    let a := if failed then !r0.slotB else r0.slotB
    let s := if failed then (s.writeRec (fun r => { r.setSt r.slotB 3 with kind := 3, slotB := !r.slotB, trial := false })).onBoot
        (fun b => { b with fallback := true, error := 3 }) else s
    let r := s.boot.nv.rec_.getD {}
    if r.st a ≠ 3 ∧ ok a then (some a, s)
    else if r.st (!a) = 2 ∧ ok (!a) then
      (some (!a), (s.writeRec (fun r => { r.setSt a 3 with kind := 3, slotB := !a, trial := false })).onBoot (fun b => { b with
        fallback := true, error := if b.error = 3 then 3 else 2 }))
    else (none, s.onBoot (fun b => { b with error := 4 }))

/-- What the firmware, once loaded, shows of its image (R658, R710): the code runs from this slot. -/
def State.loadImage (second : Bool) (s : State) : State :=
  s.onBoot (fun b => { b with
    slotB := second, fwver := s.chest.flash.version second, ifmaj := 2, ifmin := BitVec.ofNat 8 (s.chest.flash.imgBits second 47 40) })

/-- The first start of a part gives its Plan chest the pools that the part has (R399, R721). -/
def State.seedChest (s : State) : State :=
  s.onFlash (fun f => if f.seeded then f else { f with
    seeded := true, spare := Config.chestSpare, free := Config.chestFree
    factory := ((Config.factoryBlocks.filter (fun b => decide (b < 81920))).eraseDups).take 1638 })

/-- Banks after a start (R652): all OFF and free but those of the swatch table (R353), the Chest map (R388), the loaded image (R661)
and the urgent handler. -/
def State.startBanks (s : State) : State :=
  let rest : BankCtl := { testEn := true, state := 0, mode := 0 }
  let s := s.onPal (fun p => { p with banks := (List.range 256).map (fun b =>
    (b, { (look {} p.banks b) with shadow := rest, ctl := rest })) })
  let m := s.takeBanks 8 6 true false
  let c := m.2.takeBanks 8 8 true false
  let e := c.2.takeBanks 4 1 true false
  let u := e.2.takeBanks Config.handlerBanks 1 false true
  let s := (u.2.onSw (fun w => { w with mapBanks := m.1 })).onChest (fun x => { x with banks := c.1 })
  s.onPal (fun p => { p with banks := p.banks.map (fun b => (b.1, { b.2 with clear := false, busy := false })), tester := { p.tester with run := true } })

/-- The unit of a fence-record entry is fenced again, or a test has failed it (R619). -/
def State.refence (a : Nat × Nat) (s : State) : State :=
  match a.1 with
  | 0 => s.onBank a.2 (fun k => { k with fenced := true })
  | 2 => if a.2 = 0xFFFF then s.onMover (fun m => { m with fenced := true }) else s.onQueue a.2 (fun q => { q with fenced := true })
  | 3 => s.onWp (fun w => { w with pFenced := true })
  | 4 => s.onWp (fun w => { w with wFenced := true })
  | 5 => s.onGlaze (fun g => { g with fenced := true })
  | 6 => s.onSw (fun w => { w with swFenced := true, migFenced := true })
  | 7 => each (List.range 32) (fun g s => s.onGroup g (fun x => { x with fenced := true })) (s.onPrimer (fun p => { p with fenced := true }))
  | 8 => s.onChest (fun c => { c with fenced := true })
  | 9 => s.onFab (fun f => { f with fenced := true })
  | k =>
    if 0x20 ≤ k ∧ k < 0x40 then
      (if a.2 = 0xFFFF then s.onGroup (k - 0x20) (fun g => { g with fenced := true }) else s.onPanel a.2 (fun p => { p with st := .fenced }))
    else if 0x50 ≤ k ∧ k < 0x60 then s.onEng (k - 0x50) (fun e => { e with fenced := true })
    else s

/-- A failed unit takes the whole stack (R611, R616, R619). -/
def wholeBy (worker : Bool) (a : Nat × Nat) : Bool :=
  a == (2, 0xFFFF) || a.1 == 3 || a.1 == 4 || a.1 == 6 || (worker && a.1 == 9)

/-- An entry of the fence record names a panel, which no test releases. -/
def isPanelFence (a : Nat × Nat) : Bool := decide (0x20 ≤ a.1 ∧ a.1 < 0x40 ∧ a.2 ≠ 0xFFFF)
/-- An entry that a start drops: links, rings, workers and the stack are no units that the ROM tests. -/
def dropFence (a : Nat × Nat) : Bool := a.1 == 0x0A || a.1 == 0x0B || a.1 == 0xFF || (a.1 == 9 && a.2 != 0)

/-- Step 7: the units of the fence record are tested (R619, R620); answers whether the whole stack is fenced. -/
def State.fenceTests (fail corr : List (Nat × Nat)) (s : State) : Bool × State :=
  let es := s.boot.nv.fences.filter (fun a => !dropFence a)
  let stay := es.filter (fun a => isPanelFence a || fail.contains a)
  let careful := (es.filter (fun a => a.1 == 0 && !fail.contains a && corr.contains a)).map (·.2)
  let s := s.onBoot (fun b => { b with nv := { b.nv with fences := stay, careful := (b.nv.careful ++ careful).eraseDups } })
  let s := each stay State.refence s
  (stay.any (wholeBy (!s.manager)), s)

/-- A panel as the fuse map leaves it (R13, R113, R178): its slot, whether it is the spare of its group, and the lines that its repair rows and columns
replace. The map gives no repair line more than once. -/
def fusePanel (p : Nat) : Panel :=
  let i := p % 17
  let sp := Config.fuseSpare (p / 17) % 17
  { slot := BitVec.ofNat 5 (if i = sp then 16 else if i < sp then i else i - 1)
    st := if i = sp then .spare else .empty
    repRow := (List.range 8).filterMap (fun r => (Config.fuseRow p r).map (fun f => (r, f % 1024)))
    repCol := (List.range 4).filterMap (fun r => (Config.fuseCol p r).map (fun f => (r, f % 290))) }

/-- The ROM applies the fuse map to the panels (R13, R178); the cells keep what they hold. -/
def State.fusePanels (s : State) : State :=
  s.onPanels (fun u => { u with panels := (List.range 544).map (fun p => (p, fusePanel p)) })

/-- The record of a panel applied to what the fuse map gave it (R183), or that of a panel never programmed: four re-primes left (R165). Of its
calibration the trims alone return (R121, R145). -/
def State.panelRecord (s : State) (p : Nat) (x : Panel) : Panel :=
  let r := match s.boot.nv.panels.find? (fun q => q.1 == p) with | some q => q.2 | none => { allow := 4 }
  let slot := match s.boot.nv.subst.find? (fun q => q.1 == p) with | some q => q.2 | none => x.slot
  { x with
    slot := slot, w0 := r.w0.trims, w1 := r.w1.trims, w2 := r.w2.trims, w3 := r.w3.trims, cells := r.cells, prog := r.prog, reprime := r.reprime
    allow := r.allow, unfinished := r.unfinished, src := match r.src with | some x => if x.chest.isSome then some x else none | none => none
    st := if x.st = .fenced ∨ r.st = .fenced then .fenced else if slot = 16 then .spare else .empty }

/-- The targets that the reference codes of a window give lie outside the limits of the reset values (R122, R655); a window without usable span has
none. -/
def windowFails (codes : List (Byte × Byte)) (w : Nat) : Bool :=
  let k : PrmCfg := {}
  match startTrim w codes with
  | none => true
  | some t => decide (t.1.toNat < k.gainMin.toNat ∨ k.gainMax.toNat < t.1.toNat ∨ k.ofsLim.toNat < (signed 12 t.2.toNat).natAbs)

/-- A panel fails the boot probe (R655). -/
def probeFails (r : BootProbe) : Bool :=
  let k : PrmCfg := {}
  decide (k.mmt.toNat ≤ r.misses) || (List.range 4).any (fun w => windowFails (r.refs.getD w []) w)

/-- Step 8: panel records, trims and hours are loaded, the boot probe runs, re-primes are queued (R655 to R657, R184). -/
def State.startPanels (probe : List BootProbe) (s : State) : State :=
  let s := s.onPanels (fun u => { u with panels := (List.range 544).map (fun p =>
    (p, s.panelRecord p (look {} u.panels p))) })
  let s := each (s.boot.nv.subst.map (fun q => q.1 / 17)) (fun g s => s.onGroup g (fun x => { x with spareUsed := true })) s
  let again (p : Nat × Panel) : Bool := p.2.st != .fenced && p.2.src.isSome && (p.2.unfinished || probe.any (fun r => r.panel == p.1 && probeFails r))
  let todo := s.panels.panels.filter again
  let s := s.onPanels (fun u => { u with panels := u.panels.map (fun p => (p.1, { p.2 with
    relSince := p.2.st == .empty && p.2.src.isSome && !again p, unfinished := p.2.unfinished && p.2.src.isSome })) })
  let s := each todo (fun p s => s.onGroup (p.1 / 17) (fun g => { g with
    queue := g.queue ++ [{ kind := 3, panel := p.1, src := p.2.src.getD { obj := 0, off := 0 }, cmd := none }] })) s
  let s := s.onPins (fun p => if p.hoursLoaded then p else { p with
    aonHours := p.aonHours + s.boot.nv.hours, hoursLoaded := true, gains := s.boot.nv.hours / 2190 })
  (s.onPanels (fun u => { u with hours := satNat 32 s.pins.aonHours, maxpar := 32 })).onBoot (fun b => { b with
    wearLoaded := true, repQueued := BitVec.ofNat 16 todo.length })

/-- Step 2: what the fuse map gives (R13, R178, R653, R679, R682, R710). -/
def State.loadFuses (s : State) : State :=
  s.fusePanels.onBoot (fun b => { b with
    fusesValid := true, lock := true, svn := b.nv.svn.getD Config.fuseSvn, keyrev := Config.fuseKeyRev, serial := Config.serial
    grade := if Config.gradeE then 2 else 1 })

/-- Step 9 (R651): the firmware takes over; READY is the moment from which the Tick unit counts (R719). -/
def State.takeOver (s : State) : State :=
  (s.onEasel (fun e => { e with running := true })).onBoot (fun b => { b with phase := 8, wdogRun := true })

/-- A start (R651), from the deassertion of RESET_N or after an internal reset. The panel record is applied in step 8, after the tests of
step 7, as R651 orders them; R619 words it before them (DESIGN CHOICE, log 113): wear and hours stay 0 where the tests fence the stack (R187). -/
def State.start (i : StartIn) (s : State) : State :=
  let s := s.onBoot (fun b => { b with error := if b.cause = 1 then 7 else 0 })
  if !i.fuseOk then s.startFenced 1 0xFF
  else
    let s := ((s.loadFuses).seedChest).onWin (fun w => { w with power := 2 })
    let c := s.chooseSlot i.okA i.okB
    match c.1 with
    | none => c.2.onBoot (fun b => { b with phase := 9 })
    | some slot =>
      let s := c.2.loadImage slot
      let t := (s.boot.nv.rec_.map (·.trial)).getD false
      let s := s.onBoot (fun b => { b with
        trial := t, confirmed := !t, left := if t then 64 else 0, digestA := if slot then 0 else s.chest.flash.imageDigest false
        digestB := if slot then s.chest.flash.imageDigest true else 0, newDigest := true })
      if !(i.loadOk && s.chest.flash.loads slot [1, 2, 3]) then s.startBanks.takeOver.startFenced 5 0xFF
      else
        let r := s.helpersReady.fenceTests i.testFail i.testCorr
        let s := r.2.startBanks
        if r.1 then s.takeOver.startFenced 6 0xFF
        else (s.startPanels i.probe).takeOver.spareCheck

/-- START. -/
def execStart (inp : StartIn) (s : State) : Host.Outcome State Fault Refusal :=
  .next (onlyIf (!s.dead && s.boot.phase == 0 && !s.easel.running) (State.start inp) s)

-- Recovery (R665).

/-- The control word of recovery, from the Window. -/
def State.recControl (s : State) : Nat × State := let r := s.winRead (0x1FF000 / 8); (r.1.toNat, r.2.2)
/-- The status word that the ROM writes. -/
def State.recStatus (v : Nat) (s : State) : State := s.winPut (0x1FF008 / 8) (BitVec.ofNat 64 v)

/-- The host has written the control word with GO: DONE clears until the ROM has acted. -/
def State.recWritten (s : State) : State :=
  let c := s.recControl
  if s.boot.phase = 9 ∧ bit c.1 31 ∧ !s.boot.recGo then (c.2.onBoot (fun b => { b with recGo := true })).recStatus 3 else c.2

/-- Erases every block of a slot. -/
def Flash.eraseSlot (f : Flash) (second : Bool) : Flash :=
  ((List.range 128).map (fun k => (if second then 2560 else 0) + k)).foldl (fun f b => if f.factory.contains b then f else f.eraseBlock b) f

/-- RECOVERY_GO: one chunk is programmed into slot A; with LAST the slot is verified, and a passing image runs as a trial. -/
def State.recoveryGo (verified : Bool) (s : State) : State :=
  let c := s.recControl
  let s := c.2.onBoot (fun b => { b with recGo := false })
  if s.pins.flWp then s.recStatus (2 ^ 31 + 1)
  else
    let s := if s.boot.recErased then s else (s.onFlash (fun f => f.eraseSlot false)).onBoot (fun b => { b with recErased := true })
    let n := min 1048576 (64 * bits c.1 25 5)
    let d := (List.range (n / 8)).foldl (fun (a : List Byte × State) k =>
      let w := a.2.winRead k
      (a.1 ++ bytesOf 8 w.1.toNat, w.2.2)) ([], s)
    let s := d.2.onFlash (fun f => f.slotProgram false (bits c.1 4 0 * 1048576) d.1)
    if bit c.1 30 then
      (if s.verifySlot false verified then
        (s.writeRec (fun r => { r with kind := 1, slotB := false, trial := true, stA := 2, stB := 3 })).internalReset 4
      else s.recStatus (2 ^ 31 + 2))
    else s.recStatus (2 ^ 31)

/-- RECOVERY_GO. -/
def execRecoveryGo (verified : Bool) (s : State) : Host.Outcome State Fault Refusal :=
  .next (onlyIf (!s.dead && s.boot.phase == 9 && s.boot.recGo) (State.recoveryGo verified) s)

end Sys2Proof.Machine
end

