-- ==== Sys2Proof/Machine/Fabric.lean ====
section
/-! DEFINITION. The weave fabric (R564 to R604): frames (R574), joining (R576, R577), routed commands (R578 to R580), remote access
(R582), weight broadcast (R585 to R591), entries between stacks (R592, R593), lent tiers (R595 to R597), lost stacks (R598 to R600).
The contents of frames that no rule gives are those of log 12. -/

namespace Sys2Proof.Machine

-- Frames (R571 to R574).

/-- Sends a message of a source stack on a port in frames of 4,096 bytes; those of a shard are marked first and last (R586). -/
def State.messageFrom (src p dst kind vc param aux : Nat) (data : List Byte) (s : State) : State :=
  let ps := pieces 4096 data
  if ps.isEmpty then s.weaveFrom src p dst kind vc param aux []
  else each (ps.zip (List.range ps.length)) (fun x s =>
    let mark := if kind = 0x20 then (if x.2 = 0 then 2 ^ 31 else 0) + (if x.2 + 1 = ps.length then 2 ^ 30 else 0) else 0
    s.weaveFrom src p dst kind vc (param + mark) aux x.1) s

/-- The port on which a frame goes on (R574): beyond this stack on its chain, to the manager, or to another chain. -/
def State.hopOut (w : Wrx) (s : State) : Option Nat :=
  if s.manager then (if w.dst < 16 ∧ !s.gone w.dst then some (w.dst / 4) else none)
  else if w.dst = s.addr then none
  else if w.port = 0 then
    (if (w.dst = 31 ∨ (w.dst / 4 = s.addr / 4 ∧ s.addr < w.dst)) ∧ (s.port 1).mod.st ≠ .reset then some 1 else none)
  else some 0

/-- The lines of a frame leave the receive buffer (R573); the records of an entry for this stack stay there until the expander takes them (R289). -/
def State.linesBack (kind vc : Nat) (w : Wrx) (s : State) : State :=
  if kind = 0x30 ∧ w.dst = s.addr then s else s.returnLines w.port vc (ceilDiv w.data.length 64)

/-- Receives a message (R574): an inverted CRC is counted and discarded, a frame that fails its check is discarded (R458), any other goes
on where its way lies beyond, and is taken where it is for this stack. -/
def State.frame (kind vc : Nat) (w : Wrx) (body : State → State) (s : State) : State :=
  if !s.carries (.fab w.port) || s.fab.fenced then s
  else if w.stomp then s.onPort w.port (fun x => { x with stomped := satInc x.stomped })
  else
    let r := s.checkFrame (.fab w.port) w.rx
    if !r.1 then r.2
    else
      let s := r.2.linesBack kind vc w
      let s := match s.hopOut w with
        | some p => s.messageFrom w.src p w.dst kind vc (w.param.toNat % 2 ^ (if kind = 0x20 then 30 else 32)) w.aux.toNat w.data
        | none => s
      if w.dst = s.addr ∨ w.dst = 31 then body s else s

/-- The kind is one of R572 on its virtual channel. -/
def kindOk (kind vc : Nat) : Bool :=
  (vc == 0 && decide (1 ≤ kind ∧ kind ≤ 3)) || (vc == 1 && decide (0x10 ≤ kind ∧ kind ≤ 0x15)) ||
    (vc == 2 && decide (0x20 ≤ kind ∧ kind ≤ 0x25)) || (vc == 3 && decide (0x30 ≤ kind ∧ kind ≤ 0x33)) ||
    (vc == 4 && decide (0x40 ≤ kind ∧ kind ≤ 0x43))

/-- UNDEFINED_KIND_FRAME (R572). -/
def execUndefinedKindFrame (w : Wrx) (kind vc : Nat) (s : State) : Host.Outcome State Fault Refusal :=
  .next (onlyIf (s.carries (.fab w.port) && !s.fab.fenced && !kindOk kind vc) (fun s =>
    if w.stomp then s.onPort w.port (fun x => { x with stomped := satInc x.stomped })
    else
      let r := s.checkFrame (.fab w.port) w.rx
      if r.1 then r.2.onFab (fun f => { f with dropped := satInc f.dropped }) else r.2) s)

/-- A worker that has joined and has its upstream. -/
def State.isMember (s : State) : Bool := !s.manager && s.fab.joinedSelf && !s.fab.uplost

-- Joining (R576, R577).

/-- The first position of a chain that has not joined. -/
def State.nextPos (p : Nat) (s : State) : Option Nat := (List.range 4).find? (fun q => !s.fab.joined.getLsbD (4 * p + q))

/-- Asks a position for its ENUM_REPLY: the ENUM leaves once the port is ACTIVE, and the port trains where it must. -/
def State.askEnum (p q : Nat) (s : State) : State :=
  let s := s.onPort p (fun x => { x with enumPos := some q })
  match (s.port p).mod.st with
  | .active => s.sendEnum p
  | .reset | .down => if s.mayTrain (.fab p) then s.train (.fab p) else s
  | _ => s

/-- What an ENUM_REPLY carries in PARAM: strap, stepping B0, firmware interface generation, start-up completed (log 12). -/
def State.enumParam (s : State) : Nat :=
  s.fab.strap.toNat + 0xB0 * 2 ^ 8 + s.boot.ifmaj.toNat * 2 ^ 16 + (if s.ready then 2 ^ 31 else 0)

/-- ENUM (R567, R576, R600): a worker answers; where it joins it takes its address and trains FAB1. A joined one passes on an ENUM for
a position beyond it. -/
def execEnum (w : Wrx) (s : State) : Host.Outcome State Fault Refusal :=
  .next (onlyIf (s.carries (.fab w.port) && !s.fab.fenced && (s.manager || w.port == 0)) (fun s =>
    if w.stomp then s.onPort w.port (fun x => { x with stomped := satInc x.stomped })
    else
      let r := s.checkFrame (.fab w.port) w.rx
      let s := r.2
      let hop := w.aux.toNat
      if !r.1 then s
      else if s.isMember && w.dst != s.addr then s.askEnum 1 hop
      else if s.manager || s.isMember || s.boot.ifmaj != 2 || !s.ready then s.weaveOn w.port 16 0x11 1 s.enumParam hop []
      else
        let s := s.onFab (fun f => { f with
          selfAddr := w.dst, joinedSelf := true, uplost := false, mismatch := f.mismatch || f.strap.toNat % 4 != hop })
        let s := s.weaveOn 0 16 0x11 1 s.enumParam hop []
        if hop < 3 ∧ (s.port 1).mod.st = .reset ∧ s.mayTrain (.fab 1) then s.train (.fab 1) else s) s)

/-- Writes a worker's control space for the manager's Easel (R577); AUX 1 tells it from a remote access of the host. -/
def State.farWrite (off v d : Nat) (s : State) : State := s.weave d 0x14 1 (off + 2 ^ 31) 1 (bytesOf 64 v)

/-- Workers joined, in ascending order. -/
def State.workers (s : State) : List Nat := below 16 (fun d => s.fab.joined.getLsbD d)

/-- Workers that a FAB_JOIN's ports have joined, as DETAIL shows them (R496). -/
def State.joinDetail (c : Cmd) (s : State) : Nat :=
  sumN ((s.workers.filter (fun d => bit (hdrBits c.hdr 131 128) (d / 4))).map (fun d => 2 ^ d))

/-- FAB_JOIN completes once every port has stopped enumerating: every joined worker gets the Glaze settings, and ticks are forwarded
where one has joined (R576, R577). -/
def State.joinCheck (s : State) : State :=
  match s.fab.joining with
  | none => s
  | some j =>
    if !j.left.isEmpty then s
    else
      let h := j.cmd.hdr
      let cfg := hdrBits h 151 146 * 2 ^ 16 + hdrBits h 145 138 * 2 ^ 8 + hdrBits h 137 134 * 2 ^ 4 + hdrBits h 133 132
      let s := each s.workers (fun d s => (s.farWrite 0x480000 cfg d).farWrite 0x480004 1 d) s
      let any := s.fab.joined != 0
      (s.onFab (fun f => { f with joining := none, tfwd := f.tfwd || any, shTfwd := f.shTfwd || any })).complete j.cmd 0 (s.joinDetail j.cmd) 0 []

/-- FAB_JOIN on the manager. -/
def State.fabJoin (t : Taken) (s : State) : State :=
  let s := s.clamps t (t.lengthClamp 0)
  let s := (s.onGlaze (fun g => { g with shadow := glzFields (t.f 151 146) (t.f 145 138) (t.f 137 134) (t.f 133 132) })).glzCommit
  let ps := if s.fab.fenced then [] else
    (below 4 (fun p => bit (t.f 131 128) p)).filterMap (fun p => (s.nextPos p).map (fun q => (p, q)))
  let s := s.onFab (fun f => { f with joining := some { cmd := t.cmd, left := ps } })
  (each ps (fun x s => s.askEnum x.1 x.2) s).joinCheck

/-- FAB_JOIN (R576). -/
def execFabJoin (p : Packet) (s : State) : Host.Outcome State Fault Refusal :=
  .next (s.command p (fun h => isOp 0x60 h && s.manager) State.fabJoin)

/-- The enumeration of a chain stops. -/
def State.stopEnum (p : Nat) (s : State) : State :=
  ((s.onPort p (fun x => { x with enumPos := none })).onFab (fun f => { f with
    joining := f.joining.map (fun j => { j with left := j.left.filter (fun x => x.1 != p) }) })).joinCheck

/-- ENUM_REPLY (R576): the worker joins or ends the enumeration of its chain. -/
def execEnumReply (w : Wrx) (s : State) : Host.Outcome State Fault Refusal :=
  .next (s.frame 0x11 1 w (fun s =>
    let p := w.port
    let q := w.aux.toNat
    if !s.manager || !((s.fab.joining.map (·.left)).getD []).contains (p, q) then s
    else
      let v := w.param.toNat
      if bit v 3 || bits v 23 16 != 2 || !bit v 31 then s.stopEnum p
      else
        let d := 4 * p + q
        let m : Half := BitVec.ofNat 16 (2 ^ d)
        let s := s.onFab (fun f => { f with
          joined := f.joined ||| m, mask := f.mask &&& ~~~m, spares := if bit v 2 then f.spares ||| m else f.spares &&& ~~~m })
        if q + 1 < 4 then
          (s.onFab (fun f => { f with joining := f.joining.map (fun j =>
            { j with left := j.left.map (fun x => if x.1 = p then (p, q + 1) else x) }) })).askEnum p (q + 1)
        else s.stopEnum p))

/-- ENUM_TIMEOUT (R576): the position asked has not answered within 5 ms. -/
def execEnumTimeout (port : Nat) (s : State) : Host.Outcome State Fault Refusal :=
  .next (onlyIf (s.up && s.manager && ((s.fab.joining.map (·.left)).getD []).any (fun x => x.1 == port)) (State.stopEnum port) s)

-- Routed commands (R578 to R580).

/-- CMD (R578): a worker holds a routed header with its payload; PARAM is its ring on the manager. -/
def execCmd (w : Wrx) (s : State) : Host.Outcome State Fault Refusal :=
  .next (s.frame 0x12 1 w (fun s =>
    onlyIf s.isMember (State.onEasel (fun e => { e with
      held := e.held ++ [{ ring := w.param.toNat, idx := 0, hdr := lineOf w.data, payload := some (w.data.drop 64) }] })) s))

/-- A completion slot with HEAD of the packet on the manager's ring (R471). -/
def withHead (slot : Line) (head : Nat) : Line :=
  (slot &&& ~~~(BitVec.ofNat 512 ((2 ^ 17 - 1) * 2 ^ 64))) ||| BitVec.ofNat 512 (head % 2 ^ 17 * 2 ^ 64)

/-- The routed command that a completion of a worker belongs to: TAG, SQ, OPCODE and CTX agree. -/
def State.routedFor (d : Nat) (slot : Line) (s : State) : Option Cmd :=
  (s.fab.routed.find? (fun p => p.1 == d && hdrTag p.2.hdr == hdrBits slot 63 32 && p.2.sq == hdrBits slot 95 81 &&
    hdrOp p.2.hdr == hdrBits slot 135 128 && hdrCtx p.2.hdr == hdrBits slot 159 150)).map (·.2)

/-- CPL (R580, R598, R616): the manager posts a worker's completion to the CQ of the ring it came from, an event record (AUX 1) to
the ring of context 0. The record of a whole-stack fence has the worker fenced. -/
def execCpl (w : Wrx) (s : State) : Host.Outcome State Fault Refusal :=
  .next (s.frame 0x13 1 w (fun s =>
    let slot := lineOf w.data
    if !s.manager || s.gone w.src then s
    else if w.aux = 1 then
      let s := if s.easel.wholeFence then s else s.postRecord (s.eventRing 0) 0 slot
      if hdrBits slot 223 192 = 8 ∧ hdrBits slot 287 256 = 0xFF then s.fenceWorker w.src else s
    else match s.routedFor w.src slot with
      | none => s
      | some c =>
        let s := if s.isLive c then s.deliver c (withHead slot c.head) (w.data.drop 64) else s
        if hdrBits slot 136 136 = 1 then
          (s.onFab (fun f => { f with routed := f.routed.filter (fun p => p.2.seq != c.seq) })).retire c
        else s))

-- Remote access (R582).

/-- FAB_RMT_CMD: the access goes to a worker that has joined and is not fenced; any other answers UNMAPPED. -/
def State.remoteAccess (write : Bool) (s : State) : State :=
  let r := s.fab.rmt
  let d := r.stack.toNat
  if d < 16 ∧ s.fab.joined.getLsbD d ∧ !s.gone d then
    (s.onFab (fun f => { f with rmt := { f.rmt with done := false, outstanding := true } })).weave d 0x14 1
      (r.off.toNat + if write then 2 ^ 31 else 0) 0 (if write then bytesOf 64 r.data.toNat else [])
  else s.onFab (fun f => { f with rmt := { f.rmt with
    done := true, outstanding := false, busy := false, status := 2, data := if write then f.rmt.data else 0 } })

/-- REMOTE_READ. -/
def execRemoteRead (s : State) : Host.Outcome State Fault Refusal := .next (onlyIf (s.up && s.manager) (State.remoteAccess false) s)
/-- REMOTE_WRITE. -/
def execRemoteWrite (s : State) : Host.Outcome State Fault Refusal := .next (onlyIf (s.up && s.manager) (State.remoteAccess true) s)

/-- RMT_REPLY: AUX carries the status, the busy flag in bit 3 and bit 4 for a write; PARAM the data that a read loads. -/
def execRmtReply (w : Wrx) (s : State) : Host.Outcome State Fault Refusal :=
  .next (s.frame 0x15 1 w (fun s =>
    onlyIf (s.fab.rmt.outstanding && s.fab.rmt.stack.toNat == w.src) (State.onFab (fun f => { f with rmt := { f.rmt with
      outstanding := false, done := true, status := w.aux.extractLsb' 0 3, busy := w.aux.getLsbD 3
      data := if w.aux.getLsbD 4 then f.rmt.data else w.param } })) s))

-- Settings of the page (R579, R595, R597, R603).

/-- A range of rings less what another entry holds: the part below it, else the part above (R579). -/
def cutRange (lo hi : Nat) (other : Nat × Nat) : Nat × Nat :=
  if hi ≤ other.1 ∨ other.2 ≤ lo then (lo, hi)
  else if lo < other.1 then (lo, other.1)
  else (min hi other.2, hi)

/-- The range of rings of an entry. -/
def routeRange (w : Word) : Nat × Nat := (bits w.toNat 14 0, bits w.toNat 14 0 + min 32768 (bits w.toNat 30 15))

/-- A write to FAB_ROUTE d: a range that shares rings with another enabled entry is cut, and context 0 is charged (R579). -/
def State.setRoute (d : Nat) (v : Word) (s : State) : State :=
  let r := routeRange v
  let others := (s.fab.routes.filter (fun p => p.1 != d && p.2.getLsbD 31)).map (fun p => routeRange p.2)
  let c := if v.getLsbD 31 then others.foldl (fun a o => cutRange a.1 a.2 o) r else r
  let w := if c = r then v else BitVec.ofNat 32 ((if v.getLsbD 31 then 2 ^ 31 else 0) + (c.2 - c.1) * 2 ^ 15 + c.1 % 2 ^ 15)
  let s := s.onFab (fun f => { f with routes := put 0 d w f.routes })
  if c = r then s else s.clampAt 0 0 whereWhole

/-- FAB_ROUTE. -/
def execFabRoute (d : Nat) (value : Word) (s : State) : Host.Outcome State Fault Refusal :=
  .next (onlyIf (s.up && decide (d < 16)) (State.setRoute d value) s)

/-- FAB_COMMIT (R595, R597): FAB_CFG and FAB_LEND take effect; banks are lent as far as free ones reach. -/
def State.fabCommit (s : State) : State :=
  let s := s.onFab (fun f => { f with tfwd := f.shTfwd, rate := f.shRate, lend := { f.lend with
    to_ := f.lend.shTo, banks := BitVec.ofNat 8 (min 128 f.lend.shBanks.toNat), chest := BitVec.ofNat 5 (min 16 f.lend.shChest.toNat) } })
  let want := s.fab.lend.banks.toNat - s.fab.lend.lent.length
  let r := s.takeBanks want 9 true false
  r.2.onFab (fun f => { f with lend := { f.lend with lent := f.lend.lent ++ r.1 } })

/-- FAB_COMMIT as its own row. -/
def execFabCommit (s : State) : Host.Outcome State Fault Refusal := .next (onlyIf s.reaches State.fabCommit s)

/-- Banks that a lender still offers: the first ones, as many as BANKS. -/
def FabLend.offered (l : FabLend) : List Nat := l.lent.take l.banks.toNat

/-- LEND_BANK_RETURN (R597): the borrower has evicted every copy of a bank no longer offered, which goes back to PAL. -/
def execLendBankReturn (bank : Nat) (s : State) : Host.Outcome State Fault Refusal :=
  .next (onlyIf (s.up && s.fab.lend.lent.contains bank && !s.fab.lend.offered.contains bank) (fun s =>
    (s.onFab (fun f => { f with lend := { f.lend with lent := f.lend.lent.filter (· != bank) } })).giveBanks [bank]) s)

-- Lost stacks (R598, R600, R632).

/-- What is lent to a stack: the banks, as one bit each, and above them the GiB of the Plan chest (log 12). -/
def State.lentMask (d : Nat) (s : State) : List Byte :=
  let l := s.fab.lend
  if l.to_.toNat = d ∧ (!l.offered.isEmpty ∨ l.chest ≠ 0) then bytesOf 64 (sumN (l.offered.map (fun b => 2 ^ b)) + l.chest.toNat * 2 ^ 256) else []

/-- HEARTBEAT_SEND (R598, R632): every 100 µs in ACTIVE and HOLD, to the manager, or to each joined worker; a borrower among the
workers hears its lender. -/
def execHeartbeatSend (s : State) : Host.Outcome State Fault Refusal :=
  .next (onlyIf (!s.dead && s.ready && decide (s.power ≤ 1) && !s.fab.fenced && (s.manager || s.isMember)) (fun s =>
    let base := if s.manager then s.workers else [16]
    let to_ := s.fab.lend.to_.toNat
    let ds := if (!s.fab.lend.lent.isEmpty || s.fab.lend.chest != 0) && decide (to_ < 17) && to_ != s.addr && !base.contains to_ then base ++ [to_] else base
    each ds (fun d s => s.weave d 0x03 0 0 0 (s.lentMask d)) s) s)

/-- The Migration engine's T2 slots of a lender (R595): new banks are added, copies in banks withdrawn are queued for eviction (R352,
R597); and the region of the lender's Plan chest. -/
def State.borrow (d : Nat) (banks : List Nat) (chest : Nat) (s : State) : State :=
  (s.onSw (fun w => { w with
    lent5 := putRaw d chest w.lent5
    pool2 := w.pool2.filter (fun p => p.1 * 4 + p.2.1 != d) ++ banks.map (fun b => (d / 4, d % 4, b)) })).sendAway.settle

/-- HEARTBEAT (R598): it shows its sender alive, and what it lends to this stack. -/
def execHeartbeat (w : Wrx) (s : State) : Host.Outcome State Fault Refusal :=
  .next (s.frame 0x03 0 w (fun s => s.borrow w.src (below 256 (fun b => bit (natOf w.data) b)) (bits (natOf w.data) 260 256)))

/-- HEARTBEAT_LOSS (R598, R600): none has arrived for 1 ms. -/
def execHeartbeatLoss (d : Nat) (s : State) : Host.Outcome State Fault Refusal :=
  .next (onlyIf (!s.dead && s.ready && !s.fab.fenced && decide (s.power ≤ 1) &&
      (if s.manager then decide (d < 16) && s.fab.joined.getLsbD d else s.isMember))
    (fun s => if s.manager then s.fenceWorker d else s.upLost) s)

/-- HOP_DOWN_TIMEOUT (R570, R598, R600): a hop has been outside ACTIVE for more than 2 ms; the frames held are unrecovered where it is
this stack's own. -/
def execHopDownTimeout (port pos : Nat) (s : State) : Host.Outcome State Fault Refusal :=
  .next (onlyIf (!s.dead && s.ready && !s.fab.fenced && decide (s.power ≤ 1) && decide (port < 4 ∧ pos < 4) &&
      (if s.manager then s.fab.joined.getLsbD (4 * port + pos) && (pos != 0 || (s.port port).mod.st != .active)
       else s.isMember && (s.port port).mod.st != .active)) (fun s =>
    let s := if (s.port port).mod.st = .active then s
      else s.onPort port (fun x => { x with errUnrec := satAdd x.errUnrec x.tx.length, tx := [], wait := [] })
    s.hopLost port pos) s)

-- Entries between stacks and their records (R292, R293, R592, R593).

/-- Bytes of an entry join the store, and its end makes it complete and signals FULL (R593); bytes of an entry whose beginning has not come are
dropped, and so is an entry that another follows before its end. -/
def State.storeBytes (p : Nat) (bs : List Byte) (first last : Bool) (s : State) : State :=
  let es := if first then s.fab.entries.filter (fun e => e.pair != p || e.whole) ++ [{ pair := p, data := [] }] else s.fab.entries
  if !es.any (fun e => e.pair == p && !e.whole) then s
  else
    (onlyIf last (State.semSignal (2 * p)) s).onFab (fun f => { f with
      entries := es.map (fun e => if e.pair = p ∧ !e.whole then { e with data := e.data ++ bs, whole := last } else e) })

/-- A record of a coded entry waits in the Weave receive buffer for its expander lane (R289); one that was asked for again takes its first copy's place
(R292). -/
def State.queueRecord (w : Wrx) (s : State) : State :=
  let v := w.param.toNat
  let same (r : GlzIn) : Bool := r.asked && r.src == w.src && bits r.param 19 0 == bits v 19 0
  s.onGlaze (fun g => { g with
    inq := if g.inq.any same then g.inq.map (fun r => if same r then { r with bytes := w.data, asked := false, again := true } else r)
      else g.inq ++ [{
        lane := glzLane (bits (fieldB w.data 0 8) 63 48) w.port, src := w.src, port := w.port, pair := w.aux.toNat, param := v, bytes := w.data }] })

/-- ENTRY (R593): an entry is kept, and FULL of the pair that AUX names is signalled once it is complete; a Glaze record waits for the expander, and
its lines of Weave credit with it (R289). -/
def execEntry (w : Wrx) (s : State) : Host.Outcome State Fault Refusal :=
  .next (s.frame 0x30 3 w (fun s =>
    let v := w.param.toNat
    if s.serving && bit v 30 && !s.glaze.fenced then s.queueRecord w
    else
      let s := s.returnLines w.port 3 (ceilDiv w.data.length 64)
      onlyIf (s.serving && !bit v 30) (State.storeBytes w.aux.toNat w.data (bit v 28) (bit v 31)) s))

/-- ENTRY_CREDIT (R593): EMPTY of the channel's pair is signalled. -/
def execEntryCredit (w : Wrx) (s : State) : Host.Outcome State Fault Refusal :=
  .next (s.frame 0x31 3 w (fun s => onlyIf s.serving (State.semSignal (2 * w.aux.toNat + 1)) s))

/-- The record of a port's send buffer that a frame of Glaze is about. -/
def State.sentFor (w : Wrx) (s : State) : Option SentRec :=
  s.glaze.sent.find? (fun r => r.dst == w.src && bits r.param 19 0 == bits w.param.toNat 19 0)

/-- GLZ_ACK (R293): the record leaves the send buffer. -/
def execGlzAck (w : Wrx) (s : State) : Host.Outcome State Fault Refusal :=
  .next (s.frame 0x32 3 w (fun s => match s.sentFor w with
    | some r => s.onGlaze (fun g => { g with sent := g.sent.filter (fun x => x.id != r.id) })
    | none => s))

/-- GLZ_RESEND (R292): the record goes out again from the send buffer, and counts as sent (R296). -/
def execGlzResend (w : Wrx) (s : State) : Host.Outcome State Fault Refusal :=
  .next (s.frame 0x33 3 w (fun s => match s.sentFor w with
    | some r => onlyIf (s.serving && !s.glaze.fenced) (fun s =>
        (s.onGlaze (fun g => { g with outBytes := g.outBytes + r.bytes.length })).weave r.dst 0x30 3 r.param r.aux r.bytes) s
    | none => s))

-- Lent tiers (R595 to R597). PARAM and AUX as log 12 gives them.

/-- Byte address in the lender's user space of an offset in the lent region. -/
def State.lentBase (s : State) : Nat := 2 ^ 34 - s.fab.lend.chest.toNat * 2 ^ 30

/-- A range of the lent region is mapped. -/
def State.lentRange (s : State) (off n : Nat) : Bool := decide (off + n ≤ s.fab.lend.chest.toNat * 2 ^ 30)

/-- Bank, slot and line of a T2 frame. -/
def t2Place (param : Nat) : Nat × Nat × Nat := (param / 512 / 32 % 256, param / 512 % 32, param % 512)

/-- TIER_RD (R596): the lender serves a read; what it cannot serve answers with AUX bit 2. -/
def execTierRd (w : Wrx) (s : State) : Host.Outcome State Fault Refusal :=
  .next (s.frame 0x40 4 w (fun s =>
    let v := w.param.toNat
    let answer (ok : Bool) (data : List Byte) (s : State) : State :=
      s.weave w.src 0x41 4 v (w.aux.toNat % 4 + if ok then 0 else 4) (if ok then data else [])
    if !s.serving then s
    else if w.aux.getLsbD 0 then
      let n := if w.aux.getLsbD 1 then 64 else 16384
      let a := s.lentBase + 64 * v
      let ok := s.lentRange (64 * v) n && !s.chest.fenced && !s.chest.lostIn false a n
      answer ok (s.chest.bytes false a n) s
    else
      let p := t2Place v
      if !s.fab.lend.lent.contains p.1 then answer false [] s
      else if w.aux.getLsbD 1 then
        let d := s.readLines 9 0 p.1 (256 * p.2.1 + p.2.2) 1
        answer (!d.2.1) d.1 d.2.2
      else
        let d := s.readLines 9 0 p.1 (256 * p.2.1) 256
        let t := d.2.2.readLines 9 0 p.1 (7936 + p.2.1) 1
        answer (!d.2.1 && !t.2.1) (d.1 ++ t.1) t.2.2))

/-- TIER_WR (R596): the lender performs a write and acknowledges it, a write of its Plan chest once it is durable (R389); one beyond what is lent is dropped (R342). -/
def execTierWr (w : Wrx) (s : State) : Host.Outcome State Fault Refusal :=
  .next (s.frame 0x42 4 w (fun s =>
    let v := w.param.toNat
    if !s.serving then s
    else
      if w.aux.getLsbD 0 && s.lentRange (64 * v) w.data.length && s.chestWritable && !s.chest.fenced then
        let mark := 2 ^ 40 + s.chest.wrackNo
        (((s.chestPut false (s.lentBase + 64 * v) w.data 0).markWrites s.chest.buffer.length mark).onChest (fun c => { c with
          wrackNo := c.wrackNo + 1, wracks := c.wracks ++ [(mark, w.src, v, w.aux.toNat % 4)] })).sendWracks
      else
        let p := t2Place v
        let s := if w.aux.getLsbD 0 || !s.fab.lend.lent.contains p.1 then s
          else if p.2.2 = 0 ∧ w.data.length = 16448 then
            (s.writeLines 9 0 p.1 (256 * p.2.1) (w.data.take 16384)).writeLines 9 0 p.1 (7936 + p.2.1) (w.data.drop 16384)
          else s.writeLines 9 0 p.1 (256 * p.2.1 + p.2.2) w.data
        s.weave w.src 0x43 4 v (w.aux.toNat % 4) []))

/-- TIER_RDC (R596): data or tag from a Plan chest, a line of a slot, or a slot whole with its tag, reach whoever reads the swatch. -/
def execTierRdc (w : Wrx) (obj idx : Nat) (s : State) : Host.Outcome State Fault Refusal :=
  .next (s.frame 0x41 4 w (fun s =>
    let good := !w.aux.getLsbD 2
    if !s.up || s.sw.migFenced then s
    else if w.aux.getLsbD 0 then s.partCame obj idx (w.aux.getLsbD 1) good w.data
    else if w.aux.getLsbD 1 then s.lineCame obj idx (t2Place w.param.toNat).2.2 good w.data
    else s.wholeCame obj idx good w.data))

/-- TIER_WRACK (R596): an OBJ_WRITE's swatch or a write-back is acknowledged. -/
def execTierWrack (w : Wrx) (obj idx : Nat) (s : State) : Host.Outcome State Fault Refusal :=
  .next (s.frame 0x43 4 w (fun s =>
    let r := s.writeAcked obj idx
    if r.1 then r.2
    else if s.sw.migFenced then s
    else (s.writebackDone obj idx).powerEnter))

end Sys2Proof.Machine
end

