-- ==== Sys2Proof/Machine/Glaze.lean ====
section
/-! DEFINITION. Glaze: the code (R266 to R271), records (R272 to R275), tables (R276 to R284), the compressor (R275, R293) and
the expander (R287 to R292). -/

namespace Sys2Proof.Machine

-- Symbols (R266 to R268).

/-- A symbol with its extra value: a literal, or the run symbol Zk with n − 2^k. -/
inductive Sym where
  | lit (v : Nat)
  | run (k x : Nat)
deriving DecidableEq, Repr

/-- Index in the alphabet (R266). -/
def Sym.index : Sym → Nat
  | .lit v => v
  | .run k _ => 256 + k

/-- Values of a block, two a byte for 4-bit elements, low nibble first (R267). -/
def glzValues (elem : Nat) (block : List Byte) : List Nat :=
  if elem = 1 then block.flatMap (fun b => [b.toNat % 16, b.toNat / 16]) else block.map BitVec.toNat

/-- The symbols of n consecutive zeros (R268). -/
def zeroRun (n : Nat) : List Sym :=
  let one (n : Nat) : List Sym := if n = 0 then [] else if n = 1 then [.lit 0] else [.run (Nat.log2 n) (n - 2 ^ Nat.log2 n)]
  if 8191 < n then one 8191 ++ one (n - 8191) else one n

/-- The symbols of values after z pending zeros (R268). -/
def cutSyms : Nat → List Nat → List Sym
  | z, [] => zeroRun z
  | z, 0 :: vs => cutSyms (z + 1) vs
  | z, v :: vs => zeroRun z ++ .lit v :: cutSyms 0 vs

/-- The symbols of a block. -/
def blockSyms (elem : Nat) (block : List Byte) : List Sym := cutSyms 0 (glzValues elem block)

-- Tables (R276).

/-- A node of the build: weight, key, leaves with their depths. -/
structure GNode where
  weight : Nat
  key : Nat
  leaves : List (Nat × Nat)
deriving DecidableEq, Repr

/-- The node of least weight, ties to the lower key. -/
def minNode : GNode → List GNode → GNode
  | a, [] => a
  | a, b :: r => minNode (if b.weight < a.weight ∨ (b.weight = a.weight ∧ b.key < a.key) then b else a) r

/-- Joins nodes until one is left; fuel bounds the joins. -/
def joinNodes : Nat → List GNode → List (Nat × Nat)
  | _, [] => []
  | 0, a :: _ => a.leaves
  | _, [a] => a.leaves
  | f + 1, a :: r =>
    let x := minNode a r
    let ns := (a :: r).filter (fun n => n.key ≠ x.key)
    match ns with
    | [] => x.leaves
    | b :: r =>
      let y := minNode b r
      joinNodes f ({
        weight := x.weight + y.weight, key := min x.key y.key,
        leaves := (x.leaves ++ y.leaves).map (fun l => (l.1, l.2 + 1)) } :: ns.filter (fun n => n.key ≠ y.key))

/-- The Kraft sum in units of 2⁻¹⁵. -/
def kraft (ls : List (Nat × Nat)) : Nat := sumN (ls.map (fun l => 2 ^ (15 - l.2)))

/-- The symbol to lengthen: greatest length below 15, ties to the lower count, then to the higher index. -/
def pickLong (count : Nat → Nat) : Option (Nat × Nat) → List (Nat × Nat) → Option (Nat × Nat)
  | a, [] => a
  | a, l :: r =>
    let better := decide (l.2 < 15) && (match a with
      | none => true
      | some b => decide (b.2 < l.2 ∨ (b.2 = l.2 ∧ (count l.1 < count b.1 ∨ (count l.1 = count b.1 ∧ b.1 < l.1)))))
    pickLong count (if better then some l else a) r

/-- Lengthens codes until the Kraft sum fits; fuel bounds the steps. -/
def fitKraft (count : Nat → Nat) : Nat → List (Nat × Nat) → List (Nat × Nat)
  | 0, ls => ls
  | f + 1, ls =>
    if kraft ls ≤ 2 ^ 15 then ls
    else match pickLong count none ls with
      | none => ls
      | some l => fitKraft count f (ls.map (fun m => if m.1 = l.1 then (m.1, m.2 + 1) else m))

/-- Counts of symbols by index, ESC at least once. -/
def symCounts (ss : List Sym) : SMap Nat :=
  modify 0 256 (max 1) (ss.foldl (fun t x => modify 0 x.index (· + 1) t) [])

/-- The 269 code lengths of a table built from histogram blocks (R276). -/
def buildTable (elem : Nat) (hist : List (List Byte)) : List Nat :=
  let counts := symCounts (hist.flatMap (blockSyms elem))
  let ls := if counts.length = 1 then counts.map (fun c => (c.1, 1))
    else fitKraft (look 0 counts) 4096 ((joinNodes counts.length (counts.map (fun c =>
      { weight := c.2, key := c.1, leaves := [(c.1, 0)] }))).map (fun l => (l.1, min l.2 15)))
  (List.range 269).map (fun i => match ls.find? (fun l => l.1 == i) with | some l => l.2 | none => 0)

-- Codes and streams (R270, R271).

/-- Canonical codes in order of length, then index: symbol, length, code. -/
def canonical (lens : List Nat) : List (Nat × Nat × Nat) :=
  let order := (List.range 15).flatMap (fun l =>
    ((List.range lens.length).filter (fun i => lens.getD i 0 = l + 1)).map (fun i => (i, l + 1)))
  (order.foldl (fun (a : List (Nat × Nat × Nat) × Option (Nat × Nat)) s =>
    let code := match a.2 with | none => 0 | some (l, c) => (c + 1) * 2 ^ (s.2 - l)
    (a.1 ++ [(s.1, s.2, code)], some (s.2, code))) ([], none)).1

/-- n bits of a number, most significant first. -/
def msbFirst (n x : Nat) : List Bool := (List.range n).map (fun i => x.testBit (n - 1 - i))
/-- n bits of a number, least significant first. -/
def lsbFirst (n x : Nat) : List Bool := (List.range n).map (fun i => x.testBit i)

/-- The bits of one symbol (R269 to R271). A run whose symbol has no code is written as so many literal zeros, which the expander gives back alike
(R263; DEDUCED, log 119). -/
def symBits (codes : List (Nat × Nat × Nat)) (elem : Nat) (x : Sym) : List Bool :=
  let code (i : Nat) : Option (List Bool) := (codes.find? (fun c => c.1 == i)).map (fun c => msbFirst c.2.1 c.2.2)
  let lit (v : Nat) : List Bool := (code v).getD ((code 256).getD [] ++ lsbFirst (if elem = 1 then 4 else 8) v)
  match x with
  | .lit v => lit v
  | .run k y => match code (256 + k) with | some b => b ++ lsbFirst k y | none => (List.replicate (2 ^ k + y) (lit 0)).flatten

/-- The number whose bits are given, least significant first. -/
def bitsVal (bs : List Bool) : Nat := bs.foldr (fun b a => (if b then 1 else 0) + 2 * a) 0

/-- The coded payload of a block: a stream filled from bit 0 of its first byte, zero bits to a byte boundary (R271). -/
def codeBlock (lens : List Nat) (elem : Nat) (block : List Byte) : List Byte :=
  let bs := (blockSyms elem block).flatMap (symBits (canonical lens) elem)
  bytesOf (ceilDiv bs.length 8) (bitsVal bs)

/-- REF (R276): payload bits of the histogram blocks by 256, over their bytes. -/
def tableRef (lens : List Nat) (elem : Nat) (hist : List (List Byte)) : Nat :=
  sumN (hist.map (fun b => 8 * (codeBlock lens elem b).length)) * 256 / max 1 (sumN (hist.map List.length))

-- Records (R272 to R275).

/-- A record: its header and its payload. -/
def record (tensor gen : Nat) (raw : Bool) (elem type usize : Nat) (payload : List Byte) : List Byte :=
  bytesOf 8 (payload.length % 8192 + usize % 8192 * 2 ^ 13 + type % 4 * 2 ^ 35 + elem % 4 * 2 ^ 37 +
    (if raw then 2 ^ 39 else 0) + gen % 256 * 2 ^ 40 + tensor % 65536 * 2 ^ 48) ++ payload

/-- A table record (R273). -/
def tableRecord (tensor gen elem : Nat) (lens : List Nat) : List Byte :=
  record tensor gen false elem 1 0 ((List.range 136).map (fun i =>
    BitVec.ofNat 8 (lens.getD (2 * i) 0 + 16 * lens.getD (2 * i + 1) 0)))

/-- A block is stored raw (R275). -/
def storeRaw (rawcut usize csize : Nat) : Bool := decide (usize - usize * rawcut / 64 ≤ csize)

/-- A block record, and whether it is raw (R274, R275). -/
def blockRecord (rawcut tensor gen elem : Nat) (lens : List Nat) (block : List Byte) : List Byte × Bool :=
  let c := codeBlock lens elem block
  if storeRaw rawcut block.length c.length then (record tensor gen true elem 0 block.length block, true)
  else (record tensor gen false elem 0 block.length c, false)

-- The expander's decoder.

/-- One code from a bit stream: the symbol and the bits left; fuel bounds the length. -/
def matchCode (codes : List (Nat × Nat × Nat)) : Nat → Nat → Nat → List Bool → Option (Nat × List Bool)
  | 0, _, _, _ => none
  | _, _, _, [] => none
  | f + 1, len, x, b :: bs =>
    let y := 2 * x + (if b then 1 else 0)
    match codes.find? (fun c => c.2.1 == len + 1 && c.2.2 == y) with
    | some c => some (c.1, bs)
    | none => matchCode codes f (len + 1) y bs

/-- Decodes symbols until `need` values stand; none where a case of R290 holds. Each round takes at least one bit. -/
def decodeVals (codes : List (Nat × Nat × Nat)) (elem : Nat) : Nat → Nat → List Bool → List (List Nat) → Option (List Nat)
  | 0, _, _, _ => none
  | f + 1, need, bs, acc =>
    if need = 0 then (if 7 < bs.length then none else some acc.reverse.flatten)
    else match matchCode codes 15 0 0 bs with
      | none => none
      | some (i, r) =>
        let extra := if i = 256 then (if elem = 1 then 4 else 8) else i - 256
        let x := bitsVal (r.take extra)
        let out : List Nat := if i < 256 then [i] else if i = 256 then [x] else List.replicate (2 ^ (i - 256) + x) 0
        if (256 ≤ i ∧ r.length < extra) ∨ need < out.length then none
        else decodeVals codes elem f (need - out.length) (if i < 256 then r else r.drop extra) (out :: acc)

/-- Bytes of nibbles, low nibble first. -/
def joinNibbles : List Nat → List Byte
  | a :: b :: r => BitVec.ofNat 8 (a % 16 + 16 * (b % 16)) :: joinNibbles r
  | [a] => [BitVec.ofNat 8 (a % 16)]
  | [] => []

/-- Header fields of a record. -/
def recField (r : List Byte) (hi lo : Nat) : Nat := bits (fieldB r 0 8) hi lo

/-- The block that a block record decodes to with a table, none where it is corrupt (R290). -/
def decodeRecord (lens : List Nat) (r : List Byte) : Option (List Byte) :=
  let usize := recField r 25 13
  let csize := recField r 12 0
  let p := (r.drop 8).take csize
  let elem := if recField r 38 37 = 3 then 0 else recField r 38 37
  if 2 ≤ recField r 36 35 ∨ usize = 0 ∨ 4096 < csize ∨ p.length < csize then none
  else if recField r 39 39 = 1 then (if csize = usize then some p else none)
  else
    let bs := lsbFirst (8 * csize) (natOf p)
    (decodeVals (canonical lens) elem (bs.length + 1) (if elem = 1 then 2 * usize else usize) bs []).map
      (fun vs => if elem = 1 then joinNibbles vs else vs.map (BitVec.ofNat 8))

/-- The lengths of a table record's payload. -/
def tableLens (r : List Byte) : List Nat :=
  (((r.drop 8).take 136).flatMap (fun b => [b.toNat % 16, b.toNat / 16])).take 269

-- Stores (R279, R284).

/-- The key used least recently. -/
def oldest (xs : List (Nat × Nat)) : Option Nat :=
  (xs.foldl (fun (a : Option (Nat × Nat)) x => match a with
    | none => some x
    | some y => some (if x.2 < y.2 then x else y)) none).map (·.1)

/-- Puts an entry into the encoder store of 2,048; when it is full the entry used least recently goes (R279, R294). -/
def Glaze.putEnc (g : Glaze) (t : Nat) (e : EncEntry) : Glaze :=
  let has := g.enc.any (fun p => p.1 == t)
  let enc := if has || decide (g.enc.length < 2048) then g.enc
    else match oldest (g.enc.map (fun p => (p.1, p.2.used))) with | some k => eraseKey k g.enc | none => g.enc
  { g with clock := g.clock + 1, enc := putRaw t { e with used := g.clock } enc }

/-- Puts a received table into the decoder store of 2,048 (R284). -/
def Glaze.putDec (g : Glaze) (src : Nat) (r : List Byte) : Glaze :=
  let t := recField r 63 48
  let d := g.dec.filter (fun x => !(x.src == src && x.tensor == t))
  let full := decide (2048 ≤ d.length)
  let least := (d.map (·.used)).min?
  let d := if full then d.filter (fun x => some x.used != least) else d
  { g with clock := g.clock + 1, dec := d ++ [{
      src := src, tensor := t, gen := BitVec.ofNat 8 (recField r 47 40), lens := tableLens r, used := g.clock }] }

/-- Table held for a sender and a tensor. -/
def Glaze.held (g : Glaze) (src t : Nat) : Option DecEntry := g.dec.find? (fun x => x.src == src && x.tensor == t)

/-- Bytes in a port's send buffer (R293). -/
def Glaze.sentBytes (g : Glaze) (p : Nat) : Nat := sumN ((g.sent.filter (fun r => r.port == p)).map (·.bytes.length))

/-- Histogram blocks in effect (R296). -/
def Glaze.histblk (g : Glaze) : Nat := max 1 g.eff.histblk.toNat

/-- The tensor is built afresh at this block (R281). -/
def Glaze.builds? (g : Glaze) (t : Nat) : Bool :=
  match g.enc.find? (fun p => p.1 == t) with
  | none => true
  | some p => !p.2.begun && g.eff.mode != 2 && (p.2.marked || g.eff.mode == 1)

/-- The encoder entry for a tensor's next block, built afresh where it must be (R276, R281). -/
def Glaze.entryFor (g : Glaze) (t elem : Nat) (hist : List (List Byte)) : EncEntry :=
  let old := look {} g.enc t
  if g.builds? t then
    let h := hist.take g.histblk
    let lens := buildTable elem h
    { old with
      lens := lens, gen := if g.enc.any (fun p => p.1 == t) then old.gen + 1 else old.gen, marked := false, ports := [],
      ref := BitVec.ofNat 16 (tableRef lens elem h) }
  else old

/-- A lane codes the block it holds (R274, R275, R281): the record, with the table record ahead of the tensor's first block on the port in the tick
(R283), goes out in ENTRY frames and is kept until it is acknowledged; a port's send buffer that is full makes the lane wait (R293). -/
def State.codeJob (j : GlzJob) (s : State) : State :=
  let g := s.glaze
  let block := j.data.take 4096
  let e := g.entryFor j.tensor j.elem (pieces 4096 j.data)
  let r := blockRecord g.eff.rawcut.toNat j.tensor e.gen.toNat j.elem e.lens block
  if 512 * 1024 < g.sentBytes j.port + r.1.length then s
  else
    let table := if e.ports.contains j.port then [] else tableRecord j.tensor e.gen.toNat j.elem e.lens
    let param := entryParam (decide (j.data.length ≤ 4096)) true j.gradient (!j.begun) g.nextId
    let left : GlzJob := { j with begun := true, data := j.data.drop 4096 }
    let s := s.onGlaze (fun g => ({ g with
      builds := if g.builds? j.tensor then g.builds + 1 else g.builds
      coded := if r.2 then g.coded else g.coded + 1
      raw := if r.2 then g.raw + 1 else g.raw
      inBytes := g.inBytes + block.length
      outBytes := g.outBytes + r.1.length + table.length
      jobs := (g.jobs.map (fun x => if x = j then left else x)).filter (fun x => !x.data.isEmpty)
      sent := g.sent ++ [{ id := g.nextId, port := j.port, dst := j.dst, param := param, aux := j.aux, bytes := r.1 }]
      nextId := g.nextId + 1 } : Glaze).putEnc j.tensor { e with
        begun := true, ports := if e.ports.contains j.port then e.ports else e.ports ++ [j.port],
        bits := e.bits + 8 * (r.1.length - 8), bytes := e.bytes + block.length })
    (onlyIf (!table.isEmpty) (State.weave j.dst 0x30 3 (entryParam false true j.gradient false 0) j.aux table) s).weave j.dst 0x30 3 param j.aux r.1

/-- COMPRESS_BLOCK (R275): a compressor lane codes the block that it holds. -/
def execCompressBlock (lane : Nat) (s : State) : Host.Outcome State Fault Refusal :=
  .next (match s.glaze.jobs.find? (fun j => j.lane == lane) with
    | none => s
    | some j => onlyIf (s.serving && s.glaze.ready && !s.glaze.fenced && !s.fab.fenced) (State.codeJob j) s)

/-- The context that a semaphore pair belongs to (R431). -/
def State.pairCtx (s : State) (p : Nat) : Option Nat := s.ctxIds.find? (fun c => (s.ctx c).sems.contains p)

/-- A table record; any other TYPE is a block's. -/
def GlzIn.isTable (r : GlzIn) : Bool := recField r.bytes 36 35 == 1

/-- The consumer of a record discards it: no context has its pair, the context is fenced, or the Mover that is to read the entry is (R294). -/
def State.outOfUse (s : State) (r : GlzIn) : Bool :=
  s.mover.fenced || (match s.pairCtx r.pair with | some c => (s.ctx c).fence | none => true)

/-- Bytes that the store holds for a pair, and in all. -/
def State.storeHeld (s : State) (p : Option Nat) : Nat :=
  sumN ((s.fab.entries.filter (fun e => match p with | some p => e.pair == p | none => true)).map (fun e => e.data.length))

/-- The consumer has granted credit for the whole decoded block of a record: the store of 2 MiB has room for it, and so have the entries of its pair
(R49, R289, R593). A table takes none. -/
def State.recGranted (s : State) (r : GlzIn) : Bool :=
  let n := recField r.bytes 25 13
  r.isTable || s.outOfUse r || (decide (s.storeHeld none + n ≤ 2 * 1024 * 1024) && (match s.pairCtx r.pair with
    | some c => (match (s.workMap c).entries r.pair with
      | some k => decide (s.storeHeld (some r.pair) + n ≤ k * (s.workMap c).entryBytes r.pair)
      | none => true)
    | none => true))

/-- Blocks of one tensor on one link go in order (R285, R287). -/
def GlzIn.sameTensor (a b : GlzIn) : Bool := a.src == b.src && a.port == b.port && recField a.bytes 63 48 == recField b.bytes 63 48

/-- The record that an expander lane takes next (R285, R287, R289): the earliest of its records that no earlier block of the tensor holds back, be it
one that a re-send is asked for, and whose consumer has granted credit. -/
def State.expandNext (s : State) (lane : Nat) : Option GlzIn :=
  s.glaze.inq.find? (fun r => r.lane == lane && !r.asked && s.glaze.inq.find? r.sameTensor == some r && s.recGranted r)

/-- Sends GLZ_ACK or GLZ_RESEND about a record to its sender (R292, R293). -/
def State.glzReply (kind : Nat) (r : GlzIn) (s : State) : State := s.weave r.src kind 3 (bits r.param 19 0) 0 []

/-- A corrupt block (R291, R292): counted; the first copy is asked for again and holds its place, the second is acknowledged and ends the
BESTEFFORT task or the Retouch step; of its entry nothing more comes. -/
def State.corruptBlock (c : Nat) (r : GlzIn) (s : State) : State :=
  let s := s.onGlaze (fun g => { g with corrupt := satInc g.corrupt, corruptEvent := true })
  if !r.again then
    (s.onGlaze (fun g => { g with inq := g.inq.map (fun x => if x = r then { x with asked := true } else x) })).glzReply 0x33 r
  else
    let s := (s.onGlaze (fun g => { g with inq := g.inq.erase r })).glzReply 0x32 r
    let s := s.onFab (fun f => { f with entries := f.entries.filter (fun e => e.pair != r.pair || e.whole) })
    if bit r.param 29 then s.onCtx c (fun x => { x with retouch := x.retouch.map (fun t => { t with spoiled := true }) })
    else if (s.ctx c).bind.realtime then s
    else s.endOldest c

/-- The block that a record decodes to, by the table held for its sender and tensor; none where it is corrupt (R284, R290). -/
def Glaze.decode (g : Glaze) (src : Nat) (rec : List Byte) : Option (List Byte) :=
  match g.held src (recField rec 63 48) with
  | none => none
  | some d => if d.gen.toNat = recField rec 47 40 then decodeRecord d.lens rec else none

/-- A record leaves the receive buffer, and the Weave credit for it returns (R289): a table is kept (R284), a block is decoded into its consumer's
entry and acknowledged, or is corrupt, which leaves the consumer its credit (R291). Work of a fenced consumer is discarded (R294). -/
def State.expand (r : GlzIn) (s : State) : State :=
  let s := s.returnLines r.port 3 (ceilDiv r.bytes.length 64)
  let gone (s : State) : State := s.onGlaze (fun g => { g with inq := g.inq.erase r })
  if r.isTable then (gone s).onGlaze (fun g => g.putDec r.src r.bytes)
  else if s.outOfUse r then gone s
  else match s.glaze.decode r.src r.bytes with
    | none => s.corruptBlock ((s.pairCtx r.pair).getD 0) r
    | some b =>
      (((gone s).onGlaze (fun g => { g with
        dec := g.dec.map (fun d => if d.src = r.src ∧ d.tensor = recField r.bytes 63 48 then { d with used := g.clock } else d)
        clock := g.clock + 1 })).glzReply 0x32 r).storeBytes r.pair b (bit r.param 28) (bit r.param 31)

/-- EXPAND_BLOCK (R289): an expander lane, or the raw path of its link, takes the next record that it can. -/
def execExpandBlock (lane : Nat) (s : State) : Host.Outcome State Fault Refusal :=
  .next (match s.expandNext lane with
    | none => s
    | some r => onlyIf (s.serving && s.glaze.ready && !s.glaze.fenced) (State.expand r) s)

/-- A lane holds a block (R296): a compressor lane the first of the entry it works on, an expander lane a record that it can take. -/
def State.glzBusy (s : State) : Bool := !s.glaze.jobs.isEmpty || (List.range 8).any (fun l => (s.expandNext l).isSome)

end Sys2Proof.Machine
end

