-- ==== Sys2Proof/Machine/Broadcast.lean ====
section
/-! DEFINITION. Weight broadcast (R585 to R591) on the manager and on a worker. -/

namespace Sys2Proof.Machine

-- Shards (R586).

/-- A coded shard: tag, table record, the swatch's four block records, zeros, CRC-32 (R586). -/
def codeShard (rawcut tensor gen elem : Nat) (lens : List Nat) (data tag : List Byte) : List Byte :=
  let body := slice tag 0 64 ++ tableRecord tensor gen elem lens ++
    (List.range 4).flatMap (fun i => (blockRecord rawcut tensor gen elem lens (slice data (4096 * i) 4096)).1)
  let padded := body ++ List.replicate ((120 - body.length % 64) % 64) 0
  padded ++ bytesOf 4 (crc32 padded) ++ bytesOf 4 0

/-- Block records one after another. -/
def takeRecords : Nat → List Byte → List (List Byte)
  | 0, _ => []
  | n + 1, bs => let k := 8 + bits (fieldB bs 0 8) 12 0; bs.take k :: takeRecords n (bs.drop k)

/-- SCRC of a shard holds. -/
def shardCrc (bs : List Byte) : Bool := decide (216 ≤ bs.length) && fieldB bs (bs.length - 8) 4 == crc32 (bs.take (bs.length - 8))

/-- The table record at the head of a shard, if it is one, is kept for its sender and tensor (R283, R284). -/
def Glaze.shardTable (g : Glaze) (src : Nat) (bs : List Byte) : Glaze :=
  let table := slice bs 64 144
  if recField table 36 35 = 1 ∧ recField table 12 0 = 136 then g.putDec src table else g

/-- The blocks of a shard, each none where it is corrupt by the tables held (R290). -/
def shardBlocks (g : Glaze) (src : Nat) (bs : List Byte) : List (Option (List Byte)) :=
  (takeRecords 4 (bs.drop 208)).map (fun r => if recField r 36 35 = 1 then none else g.decode src r)

/-- Bytes of a shard's records, headers and table included (R296). -/
def shardRecBytes (bs : List Byte) : Nat := 144 + sumN ((takeRecords 4 (bs.drop 208)).map List.length)

/-- Data and tag of a shard, none where it fails SCRC, its decode or its tag (R587). -/
def shardData (g : Glaze) (src obj idx : Nat) (bs : List Byte) : Option (List Byte × List Byte) :=
  let ps := shardBlocks g src bs
  let d := (ps.filterMap id).flatten
  if shardCrc bs && ps.all Option.isSome && d.length == 16384 && tagOk obj idx d (bs.take 64) then some (d, bs.take 64) else none

-- The manager (R585, R586, R589, R591).

/-- Workers that have accepted and are not yet complete or failed. -/
def Bcast.live (b : Bcast) : List Nat := b.accepted.filter (fun d => !b.done.contains d && !b.failed.contains d)
/-- Ports with a live worker. -/
def Bcast.ports (b : Bcast) : List Nat := below 4 (fun p => b.live.any (fun d => d / 4 == p))
/-- Bytes of a port's retransmit buffer: shards that a live worker of the port has not acknowledged (R589). -/
def Bcast.buffered (b : Bcast) (p : Nat) : Nat :=
  sumN ((b.shards.filter (fun x => b.live.any (fun d => d / 4 == p && decide (look 0 b.acked d ≤ x.1)))).map (fun x => x.2.length))
/-- Every port's buffer has room (R589). -/
def Bcast.room (b : Bcast) (n : Nat) : Bool := b.ports.all (fun p => decide (b.buffered p + n ≤ 2 * 1024 * 1024))

/-- The swatch that a broadcast reads next: data and tag, and whether the read verified. -/
def State.bcastRead (s : State) (b : Bcast) (n : Nat) : List Byte × List Byte × Bool :=
  let i := b.off / 16384 + n
  let d := (s.swatchNow b.obj i (farOf b.remote (b.off / 16384) i)).1
  (slice d.data 0 16384, d.tag, d.good)

/-- Changes the broadcast in progress. -/
def State.onBcast (f : Bcast → Bcast) (s : State) : State := s.onFab (fun x => { x with bcast := x.bcast.map f })

/-- Builds the broadcast's table from its first histogram blocks (R276, R282, R586). -/
def State.bcastTable (b : Bcast) (s : State) : State :=
  let tensor := 0xFF00 + b.serial % 256
  let first := s.bcastRead b 0
  let elem := if tagFmt first.2.1 = 1 then 1 else 0
  let n := s.glaze.histblk
  let hist := ((List.range (min b.count (ceilDiv n 4))).flatMap (fun i => pieces 4096 (s.bcastRead b i).1)).take n
  let lens := buildTable elem hist
  let old := look {} s.glaze.enc tensor
  let e : EncEntry := { old with
    lens := lens, gen := if s.glaze.enc.any (fun p => p.1 == tensor) then old.gen + 1 else old.gen, marked := false, ports := []
    ref := BitVec.ofNat 16 (tableRef lens elem hist) }
  (s.onGlaze (fun g => ({ g with builds := g.builds + 1 } : Glaze).putEnc tensor e)).onBcast (fun x =>
    { x with elem := elem, lens := lens, gen := e.gen.toNat })

/-- Sends a shard to the live workers of a port. -/
def State.sendShard (p dst n : Nat) (bytes : List Byte) (s : State) : State := s.messageFrom s.addr p dst 0x20 2 n 0 bytes

/-- The counters of Glaze for the blocks of a shard (R296): each block coded or raw, and its table; the tensor's sums of the tick (R280). -/
def State.countShard (rawcut : Nat) (b : Bcast) (data : List Byte) (s : State) : State :=
  let rs := (List.range 4).map (fun i => blockRecord rawcut 0 b.gen b.elem b.lens (slice data (4096 * i) 4096))
  s.onGlaze (fun g => { g with
    enc := modify {} (0xFF00 + b.serial % 256) (fun e => { e with
      begun := true, bits := e.bits + sumN (rs.map (fun r => 8 * (r.1.length - 8))), bytes := e.bytes + 16384 }) g.enc
    coded := g.coded + BitVec.ofNat 32 (rs.filter (fun r => !r.2)).length
    raw := g.raw + BitVec.ofNat 32 (rs.filter (·.2)).length
    inBytes := g.inBytes + 16384, outBytes := g.outBytes + 144 + sumN (rs.map (fun r => r.1.length)) })

/-- Codes and sends shards while every buffer has room, then BCAST_END (R586, R589); fuel bounds the shards. -/
def State.bcastPump : Nat → State → State
  | 0, s => s
  | f + 1, s =>
    match s.fab.bcast with
    | none => s
    | some b =>
      if !b.waiting.isEmpty || b.live.isEmpty || s.glaze.fenced || s.fab.fenced then s
      else if b.count ≤ b.next then
        if b.ended then s
        else each b.ports (fun p s => s.weaveOn p 31 0x21 2 0 0 []) (s.onBcast (fun x => { x with ended := true }))
      else
        let s := if b.next = 0 then s.bcastTable b else s
        let b := s.fab.bcast.getD b
        let d := s.bcastRead b b.next
        let bytes := codeShard s.glaze.eff.rawcut.toNat (0xFF00 + b.serial % 256) b.gen b.elem b.lens d.1 d.2.1
        if !b.room bytes.length then s
        else
          let s := s.noteAccess b.obj (b.off / 16384 + b.next) d.2.2
          let s := s.onBcast (fun x => { x with next := x.next + 1, shards := x.shards ++ [(b.next, bytes)] })
          let s := (s.onFab (fun x => { x with shards := x.shards + 1 })).countShard s.glaze.eff.rawcut.toNat b d.1
          State.bcastPump f (each b.ports (fun p s => s.sendShard p 31 b.next bytes) s)

/-- Goes on with the broadcast after an answer, an acknowledgement or a failure. -/
def State.bcastGo (s : State) : State :=
  match s.fab.bcast with
  | none => s
  | some b => (State.bcastPump (b.count + 2) s).bcastCheck

/-- FAB_BROADCAST on the manager. -/
def State.fabBroadcast (remote : List Byte) (t : Taken) (s : State) : State :=
  let o := t.f 147 128
  let off := t.f 191 148 / 16384 * 16384
  let named := below 16 (fun d => bit (t.f 239 224) d && s.fab.joined.getLsbD d && !s.gone d)
  let dropped := below 16 (fun d => bit (t.f 239 224) d) != named
  let heads := bad (t.f 191 148 != off) 148 ++ bad (t.f 221 192 == 0) 192 ++ bad dropped 224
  let s := s.clamps t (heads ++ t.lengthClamp 0)
  if named.isEmpty then s.complete t.cmd 0 0 0 []
  else match s.obj o with
    | none => s.notPerformed t.cmd
    | some b =>
      if b.size ≤ off / 16384 then s.notPerformed t.cmd
      else
        let asked := max 1 (t.f 221 192)
        let count := min asked (b.size - off / 16384)
        let s := if count < asked then s.clampAt t.ctx 0x61 192 else s
        let n := s.fab.serial
        let s := s.onFab (fun f => { f with
          serial := n + 1
          bcast := some { cmd := t.cmd, obj := o, off := off, count := count, named := named, waiting := named, serial := n, remote := remote } })
        if s.glaze.fenced then (each named State.bcastFail s).bcastCheck
        else
          let body := bytesOf 4 o ++ bytesOf 8 off ++ bytesOf 4 count ++ bytesOf 48 (sumN (named.map (fun d => 2 ^ d)))
          each (below 4 (fun p => named.any (fun d => d / 4 == p))) (fun p s => s.weaveOn p 31 0x24 2 0 0 body) s

/-- FAB_BROADCAST (R585). -/
def execFabBroadcast (p : Packet) (remote : List Byte) (s : State) : Host.Outcome State Fault Refusal :=
  .next (s.command p (fun h => isOp 0x61 h && s.manager) (State.fabBroadcast remote))

/-- BCAST_START_TIMEOUT (R585): a named worker has not answered within 100 µs and is dropped, which is a fault. -/
def execBcastStartTimeout (d : Nat) (s : State) : Host.Outcome State Fault Refusal :=
  .next (onlyIf (s.up && ((s.fab.bcast.map (·.waiting)).getD []).contains d) (fun s =>
    ((s.onFab (fun f => { f with incomplete := satInc f.incomplete })).bcastFail d).bcastGo) s)

/-- An answer to BCAST_START: AUX 1 accepts, AUX 0 refuses, which is a host mistake. -/
def State.bcastAnswer (d : Nat) (yes : Bool) (s : State) : State :=
  match s.fab.bcast with
  | none => s
  | some b =>
    if !b.waiting.contains d then s
    else
      let s := s.onBcast (fun x => { x with
        waiting := x.waiting.filter (· != d), accepted := if yes then x.accepted ++ [d] else x.accepted })
      (if yes then s else s.clampAt (hdrCtx b.cmd.hdr) 0x61 224).bcastGo

/-- A cumulative acknowledgement: shards below `upto` are held (R589). -/
def State.bcastAcked (d upto : Nat) (s : State) : State :=
  (s.onBcast (fun x =>
    if x.live.contains d then
      let x := { x with acked := putRaw d (max upto (look 0 x.acked d)) x.acked, done := if x.count ≤ upto then x.done ++ [d] else x.done }
      { x with shards := x.shards.filter (fun h => x.live.any (fun e => decide (look 0 x.acked e ≤ h.1))) }
    else x)).bcastGo

/-- SHARD_ACK (R585, R589): AUX 2 marks a cumulative acknowledgement, PARAM its number (log 12). -/
def execShardAck (w : Wrx) (s : State) : Host.Outcome State Fault Refusal :=
  .next (s.frame 0x22 2 w (fun s =>
    if !s.manager then s
    else if w.aux = 2 then s.bcastAcked w.src w.param.toNat
    else s.bcastAnswer w.src (w.aux == 1)))

/-- SHARD_NACK (R588, R589): the shard goes again to that worker alone. -/
def execShardNack (w : Wrx) (s : State) : Host.Outcome State Fault Refusal :=
  .next (s.frame 0x23 2 w (fun s =>
    if !s.manager then s
    else
      let s := s.onFab (fun f => { f with nacks := satInc f.nacks })
      match s.fab.bcast with
      | none => s
      | some b => match b.shards.find? (fun x => x.1 == w.param.toNat) with
        | some x => if b.live.contains w.src && !s.glaze.fenced then
            ((s.sendShard (w.src / 4) w.src x.1 x.2).onFab (fun f => { f with retx := satInc f.retx })).onGlaze (fun g => { g with
              outBytes := g.outBytes + shardRecBytes x.2 })
          else s
        | none => s))

-- A worker (R585, R587, R588, R590).

/-- BCAST_START (R585): a named worker accepts or refuses. -/
def execBcastStart (w : Wrx) (s : State) : Host.Outcome State Fault Refusal :=
  .next (s.frame 0x24 2 w (fun s =>
    let o := fieldB w.data 0 4
    let off := fieldB w.data 4 8
    let count := fieldB w.data 12 4
    if !s.isMember || !bit (fieldB w.data 16 2) s.addr then s
    else
      let yes := match s.obj o with
        | none => false
        | some b => decide (off / 16384 + count ≤ b.size) && (b.ref == 0 || b.pois)
      let s := s.weave 16 0x22 2 0 (if yes then 1 else 0) []
      let b : BcastIn := { obj := o, off := off, count := count, onlyPoisoned := ((s.obj o).map (·.pois)).getD false }
      s.onFab (fun f => { f with bcastIn := if yes then some b else none })))

/-- The shard is still wanted. -/
def BcastIn.wants (b : BcastIn) (n : Nat) : Bool := decide (n < b.count) && !b.held.contains n && !b.gaveUp.contains n

/-- One failed try of a shard (R588): it is asked for again, but for the fourth. -/
def State.shardMiss (n : Nat) (s : State) : State :=
  match s.fab.bcastIn with
  | none => s
  | some b =>
    if !b.wants n || 4 ≤ look 0 b.tries n then s
    else
      let t := look 0 b.tries n + 1
      let s := s.onFab (fun f => { f with bcastIn := some { b with tries := putRaw n t b.tries } })
      if t < 4 then (s.weave 16 0x23 2 n 0 []).onFab (fun f => { f with nacks := satInc f.nacks }) else s

/-- Tries counted for shards below n that have not come (R588); one already asked for waits for its retransmission. -/
def State.shardGap (n : Nat) (s : State) : State :=
  match s.fab.bcastIn with
  | none => s
  | some b => each (below (min n b.count) (fun m => b.wants m && look 0 b.tries m == 0)) State.shardMiss s

/-- Shards below the answer are held or given up. -/
def BcastIn.upto (b : BcastIn) : Nat := ((List.range b.count).find? b.wants).getD b.count

/-- Acknowledges what is held (R589), and ends the broadcast here once BCAST_END has come and nothing is wanted. -/
def State.shardAckNow (s : State) : State :=
  match s.fab.bcastIn with
  | none => s
  | some b =>
    let s := s.weave 16 0x22 2 b.upto 2 []
    if b.ended && b.upto == b.count then s.onFab (fun f => { f with bcastIn := none }) else s

/-- The command that a shard's write stands for. -/
def shardCmd : Cmd := { src := .fabric 0, hdr := 0, head := 0, seq := 0 }

/-- SHARD (R587): checked, decoded, verified and written as an OBJ_WRITE with TAGS writes it. -/
def execShard (w : Wrx) (s : State) : Host.Outcome State Fault Refusal :=
  .next (s.frame 0x20 2 w (fun s =>
    let n := w.param.toNat % 2 ^ 30
    let s := if s.isMember then s.shardGap n else s
    match s.fab.bcastIn with
    | none => s
    | some b =>
      let i := b.off / 16384 + n
      if !s.isMember || !b.wants n then s
      else
        let s := onlyIf (shardCrc w.data && !s.glaze.fenced) (State.onGlaze (fun g => g.shardTable w.src w.data)) s
        match (if s.glaze.fenced then none else shardData s.glaze w.src b.obj i w.data) with
        | none =>
          let n0 := ((shardBlocks s.glaze w.src w.data).filter Option.isNone).length
          let s := if shardCrc w.data && n0 != 0 then
              s.onGlaze (fun g => { g with corrupt := satAdd g.corrupt n0, corruptEvent := true }) else s
          s.shardMiss n
        | some d =>
          let s := if b.onlyPoisoned && !s.poisoned b.obj i then s else s.storeSwatch shardCmd b.obj i true d.1 d.2
          let b := { b with held := b.held ++ [n] }
          let s := s.onFab (fun f => { f with bcastIn := some b })
          if b.held.length % 16 = 0 ∨ (b.ended ∧ b.upto = b.count) then s.shardAckNow else s))

/-- SHARD_TIMEOUT (R588): 50 µs without the shard or its retransmission. -/
def execShardTimeout (sno : Nat) (s : State) : Host.Outcome State Fault Refusal :=
  .next (onlyIf (s.up && s.isMember) (State.shardMiss sno) s)

/-- BCAST_END (R588, R589): shards that have not come are asked for, what is held is acknowledged. -/
def execBcastEnd (w : Wrx) (s : State) : Host.Outcome State Fault Refusal :=
  .next (s.frame 0x21 2 w (fun s => match s.fab.bcastIn with
    | none => s
    | some b =>
      if !s.isMember then s
      else ((s.onFab (fun f => { f with bcastIn := some { b with ended := true } })).shardGap b.count).shardAckNow))

/-- A swatch is POISONED without a refetch (R590). -/
def State.poisonStuck (o i : Nat) (s : State) : State :=
  let cs := ((s.sw.readersOf o i).map (·.1) ++ (s.waitFor o i).map (fun p => p.2.1.ctx)).eraseDups
  let s := (s.poisonEntry o i (fun e => { e with tries := 3, asked := true })).onObj o (fun b => { b with pois := true, bad := i :: b.bad })
  cs.foldl State.poisonReader ((s.onSw (fun w => { w with stuck := true })).raise 0 0 4 o i)

/-- BCAST_FAIL (R588, R590, R591): on a worker, the fourth failed try gives a shard up; on the manager the frame marks the worker as
failed. -/
def execBcastFail (w : Option Wrx) (sno : Nat) (s : State) : Host.Outcome State Fault Refusal :=
  match w with
  | some w => .next (s.frame 0x25 2 w (fun s =>
      onlyIf s.manager (fun s => ((s.onFab (fun f => { f with incomplete := satInc f.incomplete })).bcastFail w.src).bcastGo) s))
  | none => .next (match s.fab.bcastIn with
    | none => s
    | some b => onlyIf (s.up && s.isMember && b.wants sno && decide (4 ≤ look 0 b.tries sno)) (fun s =>
        let s := s.poisonStuck b.obj (b.off / 16384 + sno)
        let b := { b with gaveUp := b.gaveUp ++ [sno] }
        let s := (s.onFab (fun f => { f with bcastIn := some b, incomplete := satInc f.incomplete })).weave 16 0x25 2 sno 0 []
        if b.ended ∧ b.upto = b.count then s.shardAckNow else s) s)

end Sys2Proof.Machine
end

