-- ==== Sys2Proof/Machine/Contain.lean ====
section
/-! DEFINITION. Containment (R605 to R623) as rows of its own, the loss of REFCLK (R698), FL_WP_N (R401) and the test access port (R679,
R711). -/

namespace Sys2Proof.Machine

/-- HELPER_WATCHDOG (R609, R444): a helper's microcode watchdog expires or its parity fails: units 2 to 9 by their codes of R607; a
Mover channel below 64 fails its own check. -/
def execHelperWatchdog (unit index : Nat) (s : State) : Host.Outcome State Fault Refusal :=
  .next (onlyIf (s.serving && decide (2 ≤ unit ∧ unit ≤ 9)) (fun s =>
    if unit = 2 ∧ index < 64 then s.fenceChannel index else (s.fenceUnit unit).bcastGo) s)

/-- Pieces of one bank moved to another. -/
def CMap.rebank (old new : Nat) (m : CMap) : CMap := { m with pieces := m.pieces.map (fun p => if p.1 = old then (new, p.2) else p) }

/-- The dispatch entries of a bank move to another one (R612, R621). -/
def State.rebank (old new : Nat) (s : State) : State :=
  (s.onEveryCtx (fun _ x => { x with maps := { x.maps with
    a := x.maps.a.map (CMap.rebank old new), b := x.maps.b.map (CMap.rebank old new), old := x.maps.old.map (CMap.rebank old new) } })).onEasel
      (fun e => { e with dispatch := e.dispatch.map (fun b => if b = old then new else b) })

/-- DISPATCH_REINSTALL_DONE (R621): the entries stand in another bank, taken from PAL; the failed one goes back. Where none is free the
contexts stay on their fallbacks. -/
def execDispatchReinstallDone (bank : Nat) (s : State) : Host.Outcome State Fault Refusal :=
  .next (onlyIf (s.serving && s.easel.reinstall.contains bank) (fun s =>
    let r := s.takeBanks 1 1 true false
    match r.1.head? with
    | none => s
    | some b => ((r.2.rebank bank b).onEasel (fun e => { e with reinstall := e.reinstall.filter (· != bank) })).giveBanks [bank]) s)

/-- Every clock but AON stops, or every clock: the modules leave ACTIVE (R623, R698). -/
def State.darkLinks (s : State) : State :=
  each [.hl 0, .hl 1, .fab 0, .fab 1, .fab 2, .fab 3] (fun m s => s.onMod m (fun x => { x with st := .reset, rate := 0 })) s

/-- Alert threshold of the part's grade in °C (R699). -/
def alertAt : Int := if Config.gradeE then 105 else 95

/-- SENSOR_SAMPLE (R622, R623, R700): readings in °C; the alert follows the hottest, and 115 trips. -/
def execSensorSample (tj : List Int) (s : State) : Host.Outcome State Fault Refusal :=
  .next (onlyIf (!s.boot.held && !s.pins.refLost && !tj.isEmpty) (fun s =>
    let hot := tj.foldl max (tj.headD 0)
    let s := s.onPmu (fun p => { p with alert := decide (alertAt ≤ hot) })
    if 115 ≤ hot ∧ !s.pins.thermTrip then s.darkLinks.onPins (fun p => { p with thermTrip := true }) else s) s)

/-- REFCLK_LOSS (R698): every clock stops until a cold reset. -/
def execRefclkLoss (s : State) : Host.Outcome State Fault Refusal :=
  .next (onlyIf (!s.boot.held && !s.pins.refLost) (fun s => s.darkLinks.onPins (fun p => { p with refLost := true })) s)

/-- FL_WP_N_CHANGE (R401): the bump is asserted or deasserted; a later program or erase step sees it. -/
def execFlWpNChange (asserted : Bool) (s : State) : Host.Outcome State Fault Refusal :=
  .next (s.onPins (fun p => { p with flWp := asserted }))

-- The test access port (R679, R711). States are numbered as IEEE 1149.1 implementations number them; 15 is Test-Logic-Reset.

/-- The next state of the controller. -/
def tapNext (t : BitVec 4) (tms : Bool) : BitVec 4 :=
  let p : BitVec 4 × BitVec 4 := match t.toNat with
    | 15 => (15, 12) | 12 => (7, 12) | 7 => (4, 6) | 6 => (1, 2) | 2 => (1, 2) | 1 => (5, 3) | 3 => (0, 3) | 0 => (5, 2)
    | 5 => (7, 12) | 4 => (15, 14) | 14 => (9, 10) | 10 => (9, 10) | 9 => (13, 11) | 11 => (8, 11) | 8 => (13, 10) | _ => (7, 12)
  if tms then p.1 else p.2

/-- IDCODE is the instruction. -/
def Debug.onId (d : Debug) : Bool := match d.ir with | none => true | some c => Config.tapIdcode c

/-- What a state of the port does at a rising edge: capture or shift of the data or the instruction register. -/
def Debug.act (d : Debug) (tdi : Bool) : Debug :=
  let put (n : Nat) : BitVec 32 := (d.shift >>> 1) ||| (if tdi then 1#32 <<< (n - 1) else 0)
  match d.tap.toNat with
  | 6 => { d with shift := if d.onId then 0x172045AF else 0 }
  | 2 => { d with shift := put (if d.onId then 32 else 1) }
  | 14 => { d with shift := 1 }
  | 10 => { d with shift := put 4 }
  | _ => d

/-- What entering a state does: an instruction takes effect, Test-Logic-Reset selects IDCODE. -/
def Debug.enter (d : Debug) (t : BitVec 4) : Debug :=
  let d := { d with tap := t }
  if t = 13 then { d with ir := some (d.shift.extractLsb' 0 4), bscan := Config.tapScan (d.shift.extractLsb' 0 4) }
  else if t = 15 then { d with ir := none, bscan := false }
  else d

/-- JTAG_TCK_EDGE (R679, R711). -/
def execJtagTckEdge (tms tdi : Bool) (s : State) : Host.Outcome State Fault Refusal :=
  .next (s.onDbg (fun d => (d.act tdi).enter (tapNext d.tap tms)))

/-- TRST_N_ASSERT (R711). -/
def execTrstNAssert (s : State) : Host.Outcome State Fault Refusal := .next (s.onDbg (fun d => d.enter 15))

end Sys2Proof.Machine
end

