-- ==== Sys2Proof/Machine/Firmware.lean ====
section
/-! DEFINITION. Firmware slots (R521, R522, R666 to R673): FW_STAGE, FW_ACTIVATE, the swap, the trial and its confirmation. -/

namespace Sys2Proof.Machine

/-- State of a slot in the record in force; none counts as the factory's: A VALID, B EMPTY (R663). -/
def State.slotState (s : State) (second : Bool) : BitVec 2 := (s.boot.nv.rec_.getD {}).st second

/-- FW_STAGE: a segment of an image goes into the inactive slot; FIRST erases it, LAST makes it STAGED. -/
def State.fwStage (t : Taken) (s : State) : State :=
  let off := min 6143 (t.f 140 128)
  let first := t.f 9 9 == 1
  let last := t.f 10 10 == 1
  let s := s.clamps t (bad (decide (6143 < t.f 140 128)) 128 ++ bad (last && decide (25165824 < t.f 191 160)) 160)
  let other := !s.boot.slotB
  if s.boot.trial || s.chest.eff.service || (!first && !s.boot.stageOpen) then s.notPerformed t.cmd
  else if !s.chestWritable then s.complete t.cmd 3 0 0 []
  else if s.pins.flWp then (s.wpRefuse t.ctx).complete t.cmd 0 0 0 []
  else
    let s := if first then
        ((s.writeRec (fun r => r.setSt other 0 |> fun r => { r with kind := 0 })).onFlash (fun f => f.eraseSlot other)).onBoot
          (fun b => { b with stageOpen := true })
      else s
    let s := s.onFlash (fun f => f.slotProgram other (4096 * off) t.payload)
    let s := if last then
        (s.writeRec (fun r => { r.setSt other 1 with kind := 0 })).onBoot (fun b => { b with
          stageOpen := false, digestA := if other then b.digestA else s.chest.flash.imageDigest false
          digestB := if other then s.chest.flash.imageDigest true else b.digestB })
      else s
    s.complete t.cmd 0 off 0 []

/-- FW_STAGE. -/
def execFwStage (p : Packet) (s : State) : Host.Outcome State Fault Refusal := .next (s.command p (isOp 0x80) State.fwStage)

/-- The new image reads the handover record that the running one writes (R667). -/
def State.handsOver (s : State) (to_ : Bool) : Bool :=
  let out := s.chest.flash.imgBits s.boot.slotB 155 140
  decide (s.chest.flash.imgBits to_ 123 108 ≤ out ∧ out ≤ s.chest.flash.imgBits to_ 139 124)

/-- FW_ACTIVATE: the inactive slot is verified; Easel then settles (R667). -/
def State.fwActivate (verified : Bool) (t : Taken) (s : State) : State :=
  let s := s.clamps t (t.lengthClamp 0)
  let other := !s.boot.slotB
  if s.boot.trial then s.notPerformed t.cmd
  else if s.slotState other = 1 ∧ !s.chest.fenced ∧ s.verifySlot other verified ∧ s.handsOver other then
    (s.onBoot (fun b => { b with settle := 2, settleCmd := some t.cmd })).settled
  else (s.clampAt t.ctx 0x81 whereWhole).complete t.cmd 0 1 0 []

/-- FW_ACTIVATE. -/
def execFwActivate (p : Packet) (verified : Bool) (s : State) : Host.Outcome State Fault Refusal :=
  .next (s.command p (isOp 0x81) (State.fwActivate verified))

/-- FW_SWAP: the ACTIVATE record is written, the new image and every helper's new microcode load, and it resumes on trial; helpers switch at the next
edge (R667 to R673). A load that fails twice fences the stack (R661). It does not begin while an urgent command is pending (R670). -/
def State.fwSwap (loadOk : Bool) (s : State) : State :=
  let slot := !s.boot.slotB
  let s := s.writeRec (fun r => { r with kind := 1, slotB := slot, trial := true })
  if !(loadOk && s.chest.flash.loads slot [1, 2, 3]) then s.startFenced 5 0xFF
  else
  let s := s.loadImage slot
  let c := s.boot.settleCmd
  let s := s.onBoot (fun b => { b with
    phase := 8, settle := 0, settleCmd := none, trial := true, confirmed := false, left := 64, switch := true })
  match c with | some c => s.complete c 0 0 0 [] | none => s

/-- FW_SWAP. -/
def execFwSwap (loadOk : Bool) (s : State) : Host.Outcome State Fault Refusal :=
  .next (onlyIf (s.serving && s.boot.settle == 3 && s.boot.phase == 11 && s.link.urgPending == 0 && s.urgentTaken.isEmpty) (State.fwSwap loadOk) s)

/-- A passing image confirms itself (R672); ADV raises the fuse SVN. -/
def State.confirm (s : State) : State :=
  let f := s.chest.flash
  let svn := BitVec.ofNat 6 (f.imgBits s.boot.slotB 59 54)
  let s := (s.writeRec (fun r => { r with kind := 2, trial := false, stA := 2, stB := 2 })).onBoot (fun b => { b with
    trial := false, confirmed := true, left := 0 })
  if f.imgBits s.boot.slotB 60 60 = 1 ∧ s.boot.svn < svn then s.onBoot (fun b => { b with svn := svn, nv := { b.nv with svn := some svn } }) else s

/-- SELF_TEST_DONE (R672): after the helpers' switch of R669. -/
def execSelfTestDone (passed : Bool) (s : State) : Host.Outcome State Fault Refusal :=
  .next (onlyIf (s.up && s.boot.trial && !s.boot.switch) (fun s => if passed then s.confirm else s.internalReset 3) s)

/-- CONFIRM_WINDOW_EXPIRY (R673): 64 edges without a durable CONFIRM record. -/
def execConfirmWindowExpiry (s : State) : Host.Outcome State Fault Refusal :=
  .next (onlyIf (!s.dead && s.boot.trial && s.boot.left == 0) (State.internalReset 2) s)

end Sys2Proof.Machine
end

