-- ==== Sys2Proof/Machine/Diag.lean ====
section
/-! DEFINITION. DIAG (R321, R523, R525) and ATTEST (R524, R674 to R678). -/

namespace Sys2Proof.Machine

/-- FUNC of a DIAG. -/
def isDiag (func : Nat) (h : Line) : Bool := hdrOp h == 0x90 && hdrBits h 135 128 == func

-- CLAMPS, SEM, EVENTS, SWATCH.

/-- CLAMPS: counter and record of the context (R500). -/
def State.clampsDiag (t : Taken) (s : State) : State :=
  let s := s.clamps t (t.lengthClamp 0)
  let x := s.ctx t.ctx
  let s := if t.f 136 136 = 1 then s.onCtx t.ctx (fun x => { x with clampCnt := 0, clampOp := 0, clampTick := 0, clampWhere := 0 }) else s
  s.complete t.cmd 0 x.clampCnt.toNat (x.clampWhere.toNat + x.clampOp.toNat * 2 ^ 32 + x.clampTick.toNat * 2 ^ 64) []

/-- CLAMPS. -/
def execClamps (p : Packet) (s : State) : Host.Outcome State Fault Refusal := .next (s.command p (isDiag 1) State.clampsDiag)

/-- A swatch-table entry as R355 lays it out. -/
def Entry.word (e : Entry) : Nat :=
  let st := match e.st with | .resident => 0 | .promoting => 1 | .evicting => 2 | .poisoned => 3
  let b (x : Bool) (i : Nat) : Nat := if x then 2 ^ i else 0
  e.obj * 2 ^ 108 + e.idx % 2 ^ 30 * 2 ^ 78 + st * 2 ^ 76 + b e.t2 75 + b e.dirty 74 + b e.ppin 73 + b e.use 72 + e.claim % 256 * 2 ^ 64 +
    e.port % 4 * 2 ^ 19 + e.pos % 4 * 2 ^ 17 + e.bank % 256 * 2 ^ 5 + e.slot % 32

/-- SWATCH: the entry of a swatch. -/
def State.swatchDiag (t : Taken) (s : State) : State :=
  let s := s.clamps t (t.lengthClamp 0)
  if s.sw.swFenced then s.complete t.cmd 3 0 0 []
  else
    let o := t.f 155 136
    let i := t.f 185 156
    match (s.sw.copy o i).orElse (fun _ => s.sw.homeEntry o i) with
    | some p => s.complete t.cmd 0 1 ({ p.2 with claim := s.claimOf p.2 } : Entry).word []
    | none => s.complete t.cmd 0 0 0 []

/-- SWATCH. -/
def execSwatch (p : Packet) (s : State) : Host.Outcome State Fault Refusal := .next (s.command p (isDiag 6) State.swatchDiag)

/-- SEM: the value of a semaphore. -/
def State.semDiag (t : Taken) (s : State) : State :=
  let s := s.clamps t (t.lengthClamp 0)
  if s.mover.fenced then s.complete t.cmd 3 0 0 [] else s.complete t.cmd 0 (look 0 s.mover.sems (t.f 144 136)).toNat 0 []

/-- SEM. -/
def execSem (p : Packet) (s : State) : Host.Outcome State Fault Refusal := .next (s.command p (isDiag 7) State.semDiag)

/-- EVENTS: records held and dropped (R528). -/
def State.eventsDiag (t : Taken) (s : State) : State :=
  let s := s.clamps t (t.lengthClamp 0)
  s.complete t.cmd 0 s.easel.records.length s.easel.dropped.toNat []

/-- EVENTS. -/
def execEvents (p : Packet) (s : State) : Host.Outcome State Fault Refusal := .next (s.command p (isDiag 8) State.eventsDiag)

/-- An undefined FUNC (R523). -/
def execDiagUndefinedFunc (p : Packet) (s : State) : Host.Outcome State Fault Refusal :=
  .next (s.command p (fun h => hdrOp h == 0x90 && !(decide (1 ≤ hdrBits h 135 128 ∧ hdrBits h 135 128 ≤ 8)))
    (fun t s => (s.clamps t (t.lengthClamp 0)).notPerformed t.cmd))

-- PAL_CHECK and WIN_CHECK (R321).

/-- One raw write and read back of word 0 of line 0 of a bank, with bits of data and check flipped; answers the finding. -/
def State.palStep (bank : Nat) (mode : BitVec 2) (flipD flipC : Nat) (s : State) : Nat × State :=
  let r := s.freeWord
  let d := r.1.toNat
  let s := r.2.onBank bank (fun k => { k with ctl := { k.ctl with mode := mode } })
  let base := validLine (careful mode) (BitVec.ofNat 512 d)
  let s := s.onBank bank (fun k => k.store 0 base)
  let s := s.onPal (fun p => { p with test := { p.test with
    bank := BitVec.ofNat 8 bank, word := 0, lo := BitVec.ofNat 32 (d ^^^ flipD), hi := BitVec.ofNat 32 ((d ^^^ flipD) / 2 ^ 32)
    check := BitVec.ofNat 16 (base.check.toNat ^^^ flipC) } })
  let s := s.rawWrite.rawRead
  (s.pal.test.find.toNat, s)

/-- The sequences of R321: one, two and three bits flipped in TEST_CAREFUL, one data bit and one CRC bit in TEST_SERVICE. The bank is
as it was afterwards. -/
def State.palSequence (bank : Nat) (s : State) : Nat × State :=
  let k := s.bank bank
  let steps : List (BitVec 2 × Nat × Nat) := [(3, 1, 0), (3, 3, 0), (3, 7, 0), (2, 1, 0), (2, 0, 1)]
  let r := steps.foldl (fun (a : List Nat × State) x => let q := a.2.palStep bank x.1 x.2.1 x.2.2; (a.1 ++ [q.1], q.2)) ([], s)
  (r.1.foldr (fun f n => f + 8 * n) 0, r.2.onBank bank (fun _ => k))

/-- PAL_CHECK of a bank owned by PAL. -/
def State.palCheck (t : Taken) (s : State) : State :=
  let s := s.clamps t (t.lengthClamp 0)
  let b := t.f 143 136
  let k := s.bank b
  if k.fenced then s.complete t.cmd 3 0 0 []
  else if k.owner ≠ 0 then s.notPerformed t.cmd
  else if !k.on then s.complete t.cmd 6 0 0 []
  else
    let s := s.testerYield b
    let r := s.palSequence b
    r.2.complete t.cmd 0 r.1 0 []

/-- PAL_CHECK. -/
def execPalCheck (p : Packet) (s : State) : Host.Outcome State Fault Refusal := .next (s.command p (isDiag 2) State.palCheck)

/-- Findings of the careful sequence on a Window word; none are known where a port-A write collided with it. -/
def State.winSequence (collided : Bool) (s : State) : Nat × State :=
  let r := s.freeWord
  if collided then (r.1.toNat % 512, r.2)
  else
    let d := r.1.toNat
    let c := carefulWord d
    ((decodeWord (d ^^^ 1) c).1 + 8 * (decodeWord (d ^^^ 3) c).1 + 64 * (decodeWord (d ^^^ 7) c).1, r.2)

/-- WIN_CHECK of a Window word; COLLIDED is given in native mode (R474). -/
def State.winCheck (collided : Bool) (t : Taken) (s : State) : State :=
  let s := s.clamps t (bad (decide (262143 < t.f 156 136)) 136 ++ t.lengthClamp 0)
  let r := s.winSequence collided
  r.2.complete t.cmd (if collided && !s.win.compat then 7 else 0) r.1 0 []

/-- WIN_CHECK. -/
def execWinCheck (p : Packet) (collided : Bool) (s : State) : Host.Outcome State Fault Refusal :=
  .next (s.command p (isDiag 3) (State.winCheck collided))

-- SERVICE and CHEST_RAW (R408 to R411).

/-- Service mode may be entered (R408). -/
def State.serviceAllowed (s : State) : Bool :=
  s.sw.objs.all (fun p => p.2.home != 4 || p.2.ref == 0) &&
    s.panels.groups.all (fun g => g.2.queue.isEmpty) && s.panels.panels.all (fun p => p.2.req.isNone)

/-- SERVICE enters or leaves service mode. -/
def State.service (t : Taken) (s : State) : State :=
  let s := s.clamps t (t.lengthClamp 0)
  let enter := t.f 136 136 == 1
  let now (s : State) : Nat := if s.chest.eff.service then 1 else 0
  if s.chest.fenced then s.complete t.cmd 3 0 0 []
  else if enter && !s.serviceAllowed then (s.clampAt t.ctx 0x90 whereWhole).complete t.cmd 0 (now s) 0 []
  else
    let s := (s.onChest (fun c => { c with shadow := { c.shadow with service := enter } })).chsCommit
    s.complete t.cmd 0 (now s) 0 []

/-- SERVICE. -/
def execService (p : Packet) (s : State) : Host.Outcome State Fault Refusal := .next (s.command p (isDiag 4) State.service)

/-- CHS_RAW_RESULT. -/
def Chest.rawResult (c : Chest) : Nat :=
  (if c.rawDone then 2 ^ 31 else 0) + c.rawStatus.toNat * 2 ^ 28 + c.rawMax.toNat * 2 ^ 16 + (if c.rawBlank then 1 else 0)

/-- A raw command by its code (R409, R414); other values do nothing. -/
def State.rawCommand (cmd ctx : Nat) (find : ReadFinding) (verified : Bool) (bits : List Nat) (s : State) : State :=
  let s := s.onChest (fun c => { c with rawDone := false })
  match cmd with
  | 1 => s.chestRaw1 find
  | 2 => s.chestRaw2
  | 3 => s.chestRaw3 ctx verified
  | 4 => s.chestRaw4 ctx verified
  | 5 => s.chestRaw5 bits
  | _ => s

/-- CHEST_RAW runs a raw command in service mode. -/
def State.chestRawDiag (find : ReadFinding) (verified : Bool) (t : Taken) (s : State) : State :=
  let cmd := t.f 138 136
  let s := s.clamps t (bad (decide (2559 < t.f 155 144)) 144 ++ t.lengthClamp (if cmd = 3 then 64 else 0))
  if s.chest.fenced then s.complete t.cmd 3 0 0 []
  else if !s.chest.eff.service then s.notPerformed t.cmd
  else
    let s := s.onChest (fun c => { c with
      rawPlane := BitVec.ofNat 5 (t.f 143 139), rawBlock := BitVec.ofNat 12 (min 2559 (t.f 155 144)), rawPage := BitVec.ofNat 6 (t.f 161 156) })
    let s := if cmd = 3 then s.onChest (fun c => c.fillRaw (slice t.payload 0 4096)) else s
    let s := s.rawCommand cmd t.ctx find verified find.bits
    let want := if cmd = 1 then 4096 else if cmd = 2 then 4416 else 0
    let n := min want (s.dataLimit t.cmd)
    let s := if n < want then s.clampAt t.ctx 0x90 whereWhole else s
    s.complete t.cmd (if s.chest.rawStatus = 1 then 5 else 0) s.chest.rawResult 0 (getBytes s.chest.rawBuf 0 n)

/-- CHEST_RAW. -/
def execChestRaw (p : Packet) (find : ReadFinding) (verified : Bool) (s : State) : Host.Outcome State Fault Refusal :=
  .next (s.command p (isDiag 5) (State.chestRawDiag find verified))

-- ATTEST (R524, R676 to R678).

/-- Code of a panel state (R112). -/
def PState.code : PState → Nat
  | .empty => 0
  | .serving => 1
  | .spare => 2
  | .programming => 3
  | .marked => 4
  | .fenced => 5

/-- PNL_INFO of a panel (R112); a panel of a fenced group shows FENCED (DESIGN CHOICE, log 70). -/
def State.pnlInfo (s : State) (p : Nat) : Nat :=
  let x := s.panel p
  let st := if (s.group (p / 17)).fenced then PState.fenced else x.st
  if s.boot.fusesValid then st.code * 2 ^ 16 + p / 17 * 2 ^ 8 + x.slot.toNat else 0

/-- Gallery address of a source record, 0 for none (R341). -/
def Src.address (x : Option Src) : Nat := match x with | some r => r.obj * 2 ^ 44 + r.off | none => 0

/-- A measurement entry (R678). -/
def measure (kind index extra : Nat) (digest : Line) : List Byte :=
  bytesOf 2 kind ++ bytesOf 2 index ++ bytesOf 8 extra ++ bytesOf 4 0 ++ lineBytes digest

/-- The slot whose microcode the helpers run (R669). -/
def Boot.microSlot (b : Boot) : Bool := if b.switch then !b.slotB else b.slotB

/-- Digest of the microcode loaded for a unit. -/
def State.microDigest (s : State) (u : Nat) : Line :=
  let f := s.chest.flash
  match (f.sections s.boot.microSlot).find? (fun e => e.1 == 3 && e.2.1 == u) with
  | some e => Config.shake256 (f.slotBytes s.boot.microSlot e.2.2.1 e.2.2.2)
  | none => 0

/-- The measurements, in order. -/
def State.measurements (s : State) : List (List Byte) :=
  let ver (second : Bool) : Nat := if s.chest.flash.hasImage second then (s.chest.flash.version second).toNat else 0
  let panels := (List.range 544).flatMap (fun p => bytesOf 4 (s.pnlInfo p) ++ bytesOf 8 (Src.address (s.panel p).src) ++ bytesOf 4 0)
  let maps := s.easel.ctxs.flatMap (fun x =>
    (match x.2.maps.a with | some m => [measure 6 (2 * x.1) m.modelId.toNat m.digest] | none => []) ++
    (match x.2.maps.b with | some m => [measure 6 (2 * x.1 + 1) m.modelId.toNat m.digest] | none => []))
  [measure 1 0 0 Config.romDigest, measure 2 0 (ver false) s.boot.digestA, measure 2 1 (ver true) s.boot.digestB] ++
    microUnits.map (fun u => measure 3 u 0 (s.microDigest u)) ++
    [measure 4 0 0 Config.fuseDigest, measure 5 0 0 (Config.shake256 panels)] ++ maps

/-- DEVID bytes. -/
def devidBytes : List Byte := (List.range 8).flatMap (fun i => bytesOf 4 (Config.devid i).toNat)

/-- The report header (R677). -/
def State.reportHeader (s : State) (n bytes sigLen : Nat) : Line :=
  let b := s.boot
  let f (x : Bool) : Nat := if x then 1 else 0
  slotOf [(0, 0x3E510A77), (32, 1), (40, 2), (48, b.ifmin.toNat), (56, 0xB0), (64, n % 256), (80, f b.slotB), (81, f b.trial), (82, f b.lock),
    (83, f b.fallback), (88, b.svn.toNat), (96, s.tick.count.toNat), (128, bytes % 2 ^ 32), (160, b.fwver.toNat), (192, b.resets.toNat),
    (224, sigLen), (256, Config.certLen.toNat)]

/-- The signed report over a nonce (R676). SIGLEN is that of the signature over the report, which holds SIGLEN itself: it is taken of the
report with SIGLEN 0. -/
def State.report (s : State) (nonce : List Byte) : List Byte :=
  let ms := s.measurements
  let bytes := 128 + 80 * ms.length + 1856 + 3072
  let body := slice nonce 0 32 ++ devidBytes ++ ms.flatten ++ (List.range 1793).map Config.pubKey ++ List.replicate 63 0 ++
    slice ((List.range Config.certLen.toNat).map Config.cert) 0 1536
  let sigLen := (Config.sigLen (lineBytes (s.reportHeader ms.length bytes 0) ++ body)).toNat
  let all := lineBytes (s.reportHeader ms.length bytes sigLen) ++ body
  all ++ slice ((List.range sigLen).map (Config.falconSig (lineBytes (Config.shake256 all)))) 0 1536

/-- A report can be signed now (R17, R674, R678): the Signature unit is loaded, the private key expanded, the digest of the inactive slot there. -/
def State.canAttest (s : State) : Bool := s.boot.secReady && s.boot.keyReady && !s.boot.newDigest && !s.boot.secFenced

/-- Signs and posts the report. -/
def State.attestNow (c : Cmd) (nonce : List Byte) (s : State) : State :=
  let r := s.report nonce
  let n := min r.length (s.dataLimit c)
  let s := if n < r.length then s.clampAt (hdrCtx c.hdr) 0x91 whereWhole else s
  (s.onBoot (fun b => { b with attests := satInc b.attests })).complete c 0 r.length 0 (r.take n)

/-- ATTEST waits for the key and the digest where they are not ready. -/
def State.attest (t : Taken) (s : State) : State :=
  let s := s.clamps t (t.lengthClamp 0)
  let nonce := bytesOf 32 (t.f 383 128)
  if s.canAttest then s.attestNow t.cmd nonce else s.onBoot (fun b => { b with attWait := b.attWait ++ [(t.cmd, nonce)] })

/-- ATTEST. -/
def execAttest (p : Packet) (s : State) : Host.Outcome State Fault Refusal := .next (s.command p (isOp 0x91) State.attest)

/-- The ATTESTs that waited, once they can be served. -/
def State.attestWaiting (s : State) : State :=
  if s.canAttest then each s.boot.attWait (fun w s => s.attestNow w.1 w.2) (s.onBoot (fun b => { b with attWait := [] })) else s

/-- KEY_EXPANSION_DONE (R674). -/
def execKeyExpansionDone (s : State) : Host.Outcome State Fault Refusal :=
  .next (onlyIf (s.up && s.boot.secReady && !s.boot.secFenced && !s.boot.keyReady)
    (fun s => (s.onBoot (fun b => { b with keyReady := true })).attestWaiting) s)

/-- SLOT_DIGEST_DONE (R678): the digest of the inactive slot is ready. -/
def execSlotDigestDone (s : State) : Host.Outcome State Fault Refusal :=
  .next (onlyIf (s.up && s.boot.newDigest) (fun s => (s.onBoot (fun b => { b with
    newDigest := false
    digestA := if b.slotB then s.chest.flash.imageDigest false else b.digestA
    digestB := if b.slotB then b.digestB else s.chest.flash.imageDigest true })).attestWaiting) s)

end Sys2Proof.Machine
end

