-- ==== Sys2Proof/Machine/RegRead.lean ====
section
/-! DEFINITION. What the control space reads as (R8, R706, R707), page by page as the register maps lay the fields out. A RWC field reads as
the value in effect, a selected register as the host's selector stands (R712). -/

namespace Sys2Proof.Machine

/-- One register built from (low bit, value) pairs. -/
def reg (fs : List (Nat × Nat)) : Option Nat := some (fs.foldl (fun a p => a + p.2 * 2 ^ p.1) 0)
/-- A flag. -/
def flag (b : Bool) : Nat := if b then 1 else 0
/-- Register i of an array of registers of 4 bytes that begins at a base. -/
def arr (base n off : Nat) : Option Nat := if base ≤ off ∧ off < base + 4 * n ∧ off % 4 = 0 then some ((off - base) / 4) else none

/-- State code of a module; one in training shows one of the four training states, which the state does not tell apart (log 7). -/
def Module.code (m : Module) (k : Nat) : Nat :=
  match m.st with
  | .reset => 0
  | .training => 1 + (Config.trainShow k).toNat
  | .active => 5
  | .retrain => 6
  | .down => 7

/-- Identification page. -/
def State.readIdent (s : State) : Nat → Option Nat
  | 0x00 => reg [(16, 0x5C31), (0, 0x7204)]
  | 0x04 => reg [(16, 0xB0), (0, s.boot.grade.toNat)]
  | 0x08 => reg [(8, s.boot.ifmaj.toNat), (0, s.boot.ifmin.toNat)]
  | 0x0C => reg [(0, 1)]
  | 0x10 => reg [(12, s.boot.phase.toNat), (8, s.power), (7, flag s.eventN), (6, flag s.pmu.alert), (5, flag s.boot.trial),
      (4, flag s.manager), (3, flag (s.link.hl1.st == .active)), (2, flag (s.link.hl0.st == .active)),
      (1, flag s.boot.fusesValid), (0, flag s.boot.lock)]
  | _ => none

/-- EAS_ (R682). -/
def State.readEas (s : State) : Nat → Option Nat
  | 0x00 => reg [(24, s.boot.error.toNat), (8, flag s.boot.fallback), (7, flag s.boot.confirmed), (6, flag s.boot.trial),
      (5, flag s.boot.slotB), (0, s.boot.phase.toNat)]
  | 0x04 => reg [(8, s.boot.resets.toNat), (0, s.boot.cause.toNat)]
  | 0x08 => reg [(0, s.boot.fwver.toNat)]
  | 0x0C => reg [(0, s.boot.left.toNat)]
  | 0x10 => reg [(16, s.boot.repDone.toNat), (0, s.boot.repQueued.toNat)]
  | 0x14 => reg []
  | _ => none

/-- TCK_ (R36). -/
def State.readTck (s : State) : Nat → Option Nat
  | 0x00 => reg [(8, s.tick.eff.slices.toNat), (2, s.tick.eff.holdover.toNat), (0, s.tick.eff.src.toNat)]
  | 0x04 => reg [(0, s.tick.eff.nom.toNat)]
  | 0x08 => reg [(0, s.tick.eff.min.toNat)]
  | 0x0C => reg []
  | 0x10 => reg [(0, s.tick.meas.toNat)]
  | 0x14 => reg [(0, s.tick.sliceLen.toNat)]
  | 0x18 => reg [(4, flag s.tick.realign), (3, flag s.tick.overrun), (2, flag s.tick.synth), (1, flag s.tick.ignored),
      (0, flag s.tick.locked)]
  | 0x1C => reg [(0, s.tick.count.toNat)]
  | 0x20 => reg [(0, s.tick.sliceNow.toNat)]
  | 0x24 => reg [(0, s.tick.ignoredCnt.toNat)]
  | 0x28 => reg [(0, s.tick.missedCnt.toNat)]
  | 0x30 => reg [(0, s.tick.ctxSel.toNat)]
  | 0x34 => reg [(0, (s.ctx s.tick.ctxSel.toNat).cnt.miss.toNat)]
  | 0x38 => reg [(0, (s.ctx s.tick.ctxSel.toNat).cnt.fbblk.toNat)]
  | 0x3C => reg [(0, (s.ctx s.tick.ctxSel.toNat).cnt.ovr.toNat)]
  | _ => none

/-- PNL_ (R112, R186). -/
def State.readPnl (s : State) (off : Nat) : Option Nat :=
  let p := s.panel s.panels.pnlSel.toNat
  match arr 0x1000 1024 off with
  | some c =>
    let m := (s.ctx c).maps
    reg [(31, flag (!m.switching.isEmpty)), (30, flag m.useB), (29, flag (decide (0 < m.drain))), (0, min 65535 m.drain)]
  | none => match off with
    | 0x00 => reg [(0, s.panels.pnlSel.toNat)]
    | 0x04 => reg [(0, s.pnlInfo s.panels.pnlSel.toNat)]
    | 0x08 => reg [(31, flag (decide (3000 ≤ p.prog.toNat))), (28, p.allow.toNat), (12, p.reprime.toNat), (0, p.prog.toNat)]
    | 0x0C => reg [(0, p.lastWord)]
    | 0x10 => reg [(20, s.panels.maxpar.toNat), (14, s.active), (0, sumN (s.panels.groups.map (fun g => g.2.queue.length)))]
    | 0x14 => reg [(0, s.panels.hours.toNat)]
    | 0x18 => reg [(24, s.panels.progFail.toNat), (16, s.panels.worn.toNat), (8, s.panels.spareCnt.toNat), (0, s.panels.release.toNat)]
    | _ => none

/-- Tables in use in a panel group or an engine (R104, R112, R201, R234). -/
def State.tablesIn (s : State) (place : Nat) : Nat := ((s.tableUse none).filter (fun t => t.1 == place)).length

/-- PGR_ (R112). -/
def State.readPgr (s : State) (off : Nat) : Option Nat :=
  let x := s.ctx s.panels.ctxSel.toNat
  match arr 0x100 32 off with
  | some g => reg [(16, s.tablesIn g), (4, flag (s.group g).spareUsed), (0, flag (s.group g).fenced)]
  | none => match off with
    | 0x00 => reg [(0, s.panels.ctxSel.toNat)]
    | 0x04 => reg [(0, x.cnt.strikes.toNat)]
    | 0x08 => reg [(0, x.cnt.split.toNat)]
    | 0x0C => reg [(0, x.cnt.empty.toNat)]
    | 0x10 => reg [(0, x.cnt.clip.toNat)]
    | 0x20 => reg [(16, s.panels.layerSelCtx.toNat), (0, s.panels.layerSelLayer.toNat)]
    | 0x24 =>
      let l := look {} (s.ctx s.panels.layerSelCtx.toNat).latched s.panels.layerSelLayer.toNat
      reg [(31, flag l.clipped), (30, flag l.mismatch), (29, flag l.routed), (28, flag l.saturated), (26, l.window.toNat),
        (16, min 1023 l.cols.length), (0, min 65535 l.splits)]
    | _ => none

/-- PRM_ (R146). -/
def State.readPrm (s : State) (off : Nat) : Option Nat :=
  let e := s.primer.eff
  let p := s.panel s.primer.selPanel.toNat
  let w := p.win s.primer.selWin.toNat
  let x := s.ctx s.primer.ctxSel.toNat
  match arr 0x40 17 off with
  | some i => reg ((below 32 (fun b => (s.panel (32 * i + b)).st == .marked)).map (fun b => (b, 1)))
  | none => match off with
    | 0x00 => reg [(24, e.mmt.toNat), (20, e.mmn.toNat), (16, e.rngn.toNat), (8, e.filt.toNat), (0, e.mode.toNat)]
    | 0x04 => reg [(16, e.gainMax.toNat), (0, e.gainMin.toNat)]
    | 0x08 => reg [(16, e.ofsLim.toNat), (8, e.ofsStep.toNat), (0, e.gainStep.toNat)]
    | 0x0C => reg [(16, e.mmh.toNat), (0, e.probeMax.toNat)]
    | 0x10 => reg []
    | 0x14 => reg [(2, flag s.primer.markEvent), (1, flag s.primer.routeEvent), (0, flag s.primer.running)]
    | 0x20 => reg [(12, s.primer.selWin.toNat), (0, s.primer.selPanel.toNat)]
    | 0x24 => reg [(16, min 65535 w.gain), (0, low 12 (clampZ (-2048) 2047 w.ofs))]
    | 0x28 => reg [(16, (clampZ 0 65535 w.tg).toNat), (0, low 12 (clampZ (-2048) 2047 w.to_))]
    | 0x2C => reg [(16, p.mmLast.toNat), (12, min 15 p.mmrun), (8, min 15 p.rngrun), (0, p.cause.toNat)]
    | 0x30 => reg [(0, p.total.toNat)]
    | 0xA0 => reg [(0, s.primer.ctxSel.toNat)]
    | 0xA4 => reg [(0, x.cnt.twin.toNat)]
    | 0xA8 => reg [(0, x.cnt.subst.toNat)]
    | 0xAC => reg [(0, x.cnt.fb.toNat)]
    | _ => none

/-- LIN_ (R234). -/
def State.readLin (s : State) (off : Nat) : Option Nat :=
  let e := s.eng s.liner.engSel.toNat
  let x := s.ctx s.liner.ctxSel.toNat
  match off with
  | 0x00 => reg [(0, s.liner.engSel.toNat)]
  | 0x04 => reg [(30, e.phase.toNat), (20, e.ctx.toNat), (4, s.tablesIn (0x50 + s.liner.engSel.toNat)), (1, flag e.ready), (0, flag e.fenced)]
  | 0x08 => reg [(0, e.loadCyc.toNat)]
  | 0x0C => reg [(0, e.compCyc.toNat)]
  | 0x10 => reg [(16, e.retry.toNat), (0, e.check.toNat)]
  | 0x80 => reg [(0, s.liner.ctxSel.toNat)]
  | 0x84 => reg [(0, x.cnt.linTiles.toNat)]
  | 0x88 => reg [(0, x.cnt.linOver.toNat)]
  | 0x8C => reg [(0, x.cnt.linLate.toNat)]
  | 0x90 => reg [(0, x.cnt.linHold.toNat)]
  | 0x94 => reg [(0, x.cnt.linShort.toNat)]
  | 0x98 => reg [(0, x.cnt.linRetouch.toNat)]
  | _ => none

/-- WRP_ (R262). -/
def State.readWrp (s : State) : Nat → Option Nat
  | 0x00 => reg [(2, flag (!s.wp.jobs.isEmpty)), (1, flag s.wp.wReady), (0, flag s.wp.wFenced)]
  | 0x04 => reg [(0, s.wp.gathers / 1024 % 2 ^ 32)]
  | 0x08 => reg [(0, s.wp.missCyc.toNat)]
  | 0x0C => reg [(0, s.wp.classicGathers / 1024 % 2 ^ 32)]
  | _ => none

/-- PIX_ (R262). -/
def State.readPix (s : State) : Nat → Option Nat
  | 0x00 => reg [(3, flag (!s.wp.lane.isEmpty)), (2, flag s.wp.pOverrun), (1, flag s.wp.pReady), (0, flag s.wp.pFenced)]
  | 0x04 => reg [(22, s.wp.cntRepeat.toNat), (11, s.wp.cntBlend.toNat), (0, s.wp.cntLanczos.toNat)]
  | 0x10 => reg [(0, s.wp.ctxSel.toNat)]
  | 0x14 => reg [(0, (s.ctx s.wp.ctxSel.toNat).cnt.pixPay.toNat)]
  | 0x18 => reg [(0, (s.ctx s.wp.ctxSel.toNat).cnt.pixClassic.toNat)]
  | _ => none

/-- GLZ_ (R296). -/
def State.readGlz (s : State) (off : Nat) : Option Nat :=
  let g := s.glaze
  match off with
  | 0x00 => reg [(16, g.eff.rawcut.toNat), (8, g.eff.drift.toNat), (4, g.eff.histblk.toNat), (0, g.eff.mode.toNat)]
  | 0x04 => reg []
  | 0x08 => reg [(3, flag g.corruptEvent), (2, flag s.glzBusy), (1, flag g.ready), (0, flag g.fenced)]
  | 0x10 => reg [(0, g.coded.toNat)]
  | 0x14 => reg [(0, g.raw.toNat)]
  | 0x18 => reg [(0, g.corrupt.toNat)]
  | 0x1C => reg [(0, g.inBytes / 1024 % 2 ^ 32)]
  | 0x20 => reg [(0, g.outBytes / 1024 % 2 ^ 32)]
  | 0x24 => reg [(0, g.builds.toNat)]
  | 0x40 => reg [(0, g.tenSel.toNat)]
  | 0x44 => match (g.enc.find? (fun p => p.1 == g.tenSel.toNat)).map (·.2) with
    | some e => reg [(31, 1), (30, flag e.marked), (16, e.gen.toNat), (0, e.ref.toNat)]
    | none => reg []
  | _ => none

/-- PAL_ (R339). -/
def State.readPal (s : State) (off : Nat) : Option Nat :=
  let t := s.pal.tester
  let r := s.pal.test
  match arr 0x1000 256 off, arr 0x1400 256 off, arr 0x1800 256 off with
  | some b, _, _ => let k := s.bank b; reg [(16, k.set.toNat), (15, flag k.busy), (0, k.owner.toNat)]
  | _, some b, _ =>
    let k := s.bank b
    reg [(11, flag k.ctl.urg), (10, flag k.ctl.pin), (9, flag k.ctl.testEn), (8, flag k.conv.isSome), (7, flag (s.borrowed b)),
      (6, flag (s.pinned b)), (4, if k.fenced then 0 else k.ctl.state.toNat), (0, k.ctl.mode.toNat)]
  | _, _, some b => let k := s.bank b; reg [(31, flag k.fenced), (12, k.check.toNat), (0, k.corr.toNat)]
  | _, _, _ => match off with
    | 0x00 => reg []
    | 0x10 => reg [(0, s.pal.unitSel.toNat)]
    | 0x14 => reg [(0, (look 0 s.pal.nonown s.pal.unitSel.toNat).toNat)]
    | 0x18 => reg [(0, (look 0 s.pal.dark s.pal.unitSel.toNat).toNat)]
    | 0x20 => reg [(16, t.gap.toNat), (4, t.idle.toNat), (1, flag t.exclUrg), (0, flag t.run)]
    | 0x24 => reg [(31, flag t.fail), (30, flag t.hold.isSome), (16, t.bank.toNat), (0, t.line.toNat)]
    | 0x28 => reg [(0, t.yields.toNat)]
    | 0x40 => reg [(16, r.bank.toNat), (0, r.word.toNat)]
    | 0x44 => reg [(0, r.lo.toNat)]
    | 0x48 => reg [(0, r.hi.toNat)]
    | 0x4C => reg [(0, r.check.toNat)]
    | 0x50 => reg []
    | 0x54 => reg [(31, flag r.done), (16, r.find.toNat), (0, r.syn.toNat)]
    | 0x58 => reg [(0, r.corrLo.toNat)]
    | 0x5C => reg [(0, r.corrHi.toNat)]
    | _ => none

/-- WIN_ (R339). -/
def State.readWin (s : State) : Nat → Option Nat
  | 0x00 => reg [(0, flag s.win.compat)]
  | 0x04 => reg []
  | 0x08 => reg [(2, flag s.win.busy), (1, flag s.win.bWarn), (0, flag s.win.aWarn)]
  | 0x0C => reg [(0, s.win.collA.toNat)]
  | 0x10 => reg [(0, s.win.collB.toNat)]
  | 0x14 => reg [(16, s.win.uncorr.toNat), (0, s.win.corr.toNat)]
  | _ => none

/-- Swatches of an object that are POISONED (R379). -/
def Swatches.poisonedCount (w : Swatches) (o : Nat) : Nat :=
  (((w.table.filter (fun p => p.2.obj == o && p.2.st == .poisoned)).map (·.2.idx)).eraseDups).length

/-- SWM_ (R379). -/
def State.readSwm (s : State) (off : Nat) : Option Nat :=
  let o := s.sw.objSel.toNat
  match off with
  | 0x00 => reg [(8, s.sw.records.length), (1, flag s.sw.swReady), (0, flag s.sw.swFenced)]
  | 0x04 => reg [(0, s.sw.hits.toNat)]
  | 0x08 => reg [(0, s.sw.misses.toNat)]
  | 0x0C => reg [(0, s.sw.unmapped.toNat)]
  | 0x10 => reg [(0, o)]
  | 0x14 => match s.obj o with
    | some b => reg [(13, flag b.pois), (12, 1), (11, flag b.ro), (10, flag b.pin), (8, b.dclass.toNat), (3, b.allow.toNat), (0, b.home.toNat)]
    | none => reg []
  | 0x18 => reg [(0, ((s.obj o).map (·.ref)).getD 0)]
  | 0x1C => reg [(0, s.sw.resident o)]
  | 0x20 => reg [(0, s.sw.poisonedCount o)]
  | _ => none

/-- MIG_ (R379). -/
def State.readMig (s : State) (off : Nat) : Option Nat :=
  let w := s.sw
  match off with
  | 0x00 => reg [(24, w.tmo.toNat), (16, w.maxflight.toNat)]
  | 0x04 => reg []
  | 0x08 => reg [(4, flag w.stuck), (3, flag w.unpoisonEvent), (2, flag w.poisonEvent), (1, flag w.migReady), (0, flag w.migFenced)]
  | 0x0C => reg [(0, w.flight.length)]
  | 0x10 => reg [(16, (w.emptySlots false).length), (0, w.pool.length)]
  | 0x20 => reg [(0, w.promotes.toNat)]
  | 0x24 => reg [(0, w.evicts.toNat)]
  | 0x28 => reg [(0, w.writebacks.toNat)]
  | 0x2C => reg [(0, w.noslot.toNat)]
  | 0x30 => reg [(0, w.races.toNat)]
  | 0x34 => reg [(0, w.poisons.toNat)]
  | 0x38 => reg [(0, w.refetches.toNat)]
  | 0x3C => reg [(0, w.timeouts.toNat)]
  | _ => none

/-- STATE of a Mover queue. -/
def State.queueState (s : State) (q : Nat) : Nat :=
  let x := s.queue q
  if x.fenced || s.mover.fenced then 3
  else if x.cancelling then 2
  else if x.run.isSome || !x.surplus.isEmpty || !x.jobs.isEmpty || !x.out.isEmpty then 1
  else 0

/-- MOV_ (R451). -/
def State.readMov (s : State) (off : Nat) : Option Nat :=
  let m := s.mover
  let q := s.queue m.qSel.toNat
  let x := s.ctx m.ctxSel.toNat
  match off with
  | 0x00 => reg [(4, flag m.faultEvent), (3, flag m.semSat), (2, flag m.pairStale), (1, flag m.ready), (0, flag m.fenced)]
  | 0x04 => reg []
  | 0x10 => reg [(0, m.qSel.toNat)]
  | 0x14 => reg [(13, q.bank.toNat), (0, q.line.toNat)]
  | 0x18 => reg [(0, q.log2.toNat)]
  | 0x1C => reg [(16, q.eff.rate.toNat), (0, q.eff.outmax.toNat)]
  | 0x20 => reg [(30, s.queueState m.qSel.toNat), (29, flag q.slot.isSome), (28, flag q.stale), (20, q.gen.toNat), (10, q.head.toNat),
      (0, min 64 q.out.length)]
  | 0x24 => reg []
  | 0x28 => reg []
  | 0x2C => reg [(16, q.rearms.toNat), (0, q.lost.toNat)]
  | 0x30 => reg [(0, q.bytes / 1024 % 2 ^ 32)]
  | 0x40 => reg [(0, m.semSel.toNat)]
  | 0x44 => reg [(0, (look 0 m.sems m.semSel.toNat).toNat)]
  | 0x48 => reg []
  | 0x80 => reg [(0, m.ctxSel.toNat)]
  | 0x84 => reg [(0, min (2 ^ 32 - 1) (x.cnt.movBytes / 1024))]
  | 0x88 => reg [(0, x.cnt.movCancel.toNat)]
  | 0x8C => reg [(28, x.cnt.movCause.toNat), (0, x.cnt.movFault.toNat)]
  | _ => none

/-- Erase counts of the blocks that hold pages, bad ones aside (R414). -/
def Flash.wearInUse (f : Flash) : List Nat := (f.blocks.filter (fun b => !b.2.bad && !b.2.pages.isEmpty)).map (·.2.erases)

/-- CHS_ (R414, R722): what the part's own flash says shows once its map has loaded (R654). -/
def State.readChs (s : State) (off : Nat) : Option Nat :=
  let c := s.chest
  let f := c.flash
  let own (x : Nat) : Nat := if c.ready then x else 0
  match arr 0x1000 1104 off with
  | some w => reg [(0, natOf (getBytes c.rawBuf (4 * w) 4))]
  | none => match off with
    | 0x00 => reg [(24, c.eff.scanrate.toNat), (16, c.eff.rdlimit.toNat), (10, c.eff.refreshT.toNat), (4, c.eff.wrbusy.toNat),
        (1, flag c.eff.xipEn), (0, flag c.eff.service)]
    | 0x04 => reg []
    | 0x08 => reg [(5, flag c.readonly_), (4, flag c.lowSpare), (3, flag c.uncorrEvent), (2, flag s.pins.flWp), (1, flag c.ready)]
    | 0x0C => reg [(16, own (min 65535 f.spare)), (0, own (min 65535 f.free))]
    | 0x10 => reg [(16, own (min 65535 f.grown)), (0, own (min 1638 f.factory.length))]
    | 0x14 => reg [(16, own (min 65535 ((f.blocks.map (·.2.erases)).foldl max 0))), (0, own (min 65535 (f.wearInUse.min?.getD 0)))]
    | 0x18 => reg [(0, c.corr.toNat)]
    | 0x1C => reg [(0, c.uncorr.toNat)]
    | 0x20 => reg [(0, c.retries.toNat)]
    | 0x24 => reg [(16, c.relDisturb.toNat), (0, c.relRefresh.toNat)]
    | 0x28 => reg [(0, c.wpRefused.toNat)]
    | 0x30 => reg [(16, c.maxlat.toNat), (0, c.suspends.toNat)]
    | 0x40 => reg [(27, c.rawPlane.toNat), (15, c.rawBlock.toNat), (9, c.rawPage.toNat)]
    | 0x44 => reg []
    | 0x48 => reg [(0, c.rawResult)]
    | _ => none

/-- HLK_ (R487). -/
def State.readHlk (s : State) (off : Nat) : Option Nat :=
  let l := s.link
  let g := s.ring l.ringSel.toNat
  match off with
  | 0x00 => reg [(4, l.eff.moden.toNat), (0, l.eff.maxrate.toNat)]
  | 0x04 => reg []
  | 0x08 => reg [(12, l.hl1.code (s.freeCtr + 1)), (10, l.hl1.rate.toNat), (4, l.hl0.code s.freeCtr), (2, l.hl0.rate.toNat)]
  | 0x10 => reg [(12, l.rdtLo.toNat)]
  | 0x14 => reg [(0, l.rdtHi.toNat)]
  | 0x18 => reg []
  | 0x1C => reg [(0, l.urgPending.toNat)]
  | 0x20 => reg [(0, l.evtStat.toNat)]
  | 0x24 => reg [(0, l.evtEn.toNat)]
  | 0x30 => reg [(0, l.errCrc.toNat)]
  | 0x34 => reg [(0, l.errReplay.toNat)]
  | 0x38 => reg [(0, l.errUnrec.toNat)]
  | 0x3C => reg [(16, l.retrains1.toNat), (0, l.retrains0.toNat)]
  | 0x40 => reg [(0, l.dbIgnored.toNat)]
  | 0x44 => reg [(0, l.urgIgnored.toNat)]
  | 0x80 => reg [(0, l.ringSel.toNat)]
  | 0x84 => reg [(31, flag g.enabled), (30, flag g.dir), (27, g.cls.toNat), (26, flag g.stopped), (25, flag g.phase), (0, g.head % 2 ^ 17)]
  | 0x88 => reg [(0, g.tail % 2 ^ 17)]
  | _ => none

/-- FAB_ (R604). -/
def State.readFab (s : State) (off : Nat) : Option Nat :=
  let f := s.fab
  let p := s.port f.portSel.toNat
  let l := f.lend
  match arr 0x40 16 off with
  | some d => reg [(0, (look 0 f.routes d).toNat)]
  | none => match off with
    | 0x00 => reg [(2, flag f.tfwd), (0, f.rate.toNat)]
    | 0x04 => reg []
    | 0x08 => reg [(27, s.addr), (5, flag f.mismatch), (4, flag (!s.manager && f.strap.getLsbD 2)), (3, flag s.manager),
        (2, flag f.uplost), (1, flag f.ready), (0, flag f.fenced)]
    | 0x0C => reg [(16, f.spares.toNat), (0, f.joined.toNat)]
    | 0x10 => reg [(0, f.mask.toNat)]
    | 0x14 => reg [(0, f.dropped.toNat)]
    | 0x20 => reg [(0, f.portSel.toNat)]
    | 0x24 => reg [(4, p.mod.code s.freeCtr), (2, p.mod.rate.toNat), (1, flag (Config.fabWide f.portSel.toNat))]
    | 0x28 => reg [(0, p.errCrc.toNat)]
    | 0x2C => reg [(0, p.errReplay.toNat)]
    | 0x30 => reg [(0, p.errUnrec.toNat)]
    | 0x34 => reg [(0, p.stomped.toNat)]
    | 0x80 => reg [(0, f.chanSel.toNat)]
    | 0x84 => reg [(0, (look 0 f.chans f.chanSel.toNat).toNat)]
    | 0x90 => reg [(27, l.to_.toNat), (8, l.banks.toNat), (0, l.chest.toNat)]
    | 0x94 => reg [(31, flag (decide (l.banks.toNat < l.lent.length))), (0, l.lent.length)]
    | 0xA0 => reg [(24, f.rmt.stack.toNat), (0, f.rmt.off.toNat)]
    | 0xA4 => reg [(0, f.rmt.data.toNat)]
    | 0xA8 => reg []
    | 0xAC => reg [(31, flag f.rmt.done), (3, flag f.rmt.busy), (0, f.rmt.status.toNat)]
    | 0xC0 => reg [(0, f.shards.toNat)]
    | 0xC4 => reg [(0, f.retx.toNat)]
    | 0xC8 => reg [(0, f.nacks.toNat)]
    | 0xCC => reg [(0, f.incomplete.toNat)]
    | _ => none

/-- PMU_ (R646). -/
def State.readPmu (s : State) (off : Nat) : Option Nat :=
  let p := s.pmu
  match off with
  | 0x00 => reg [(0, p.mode.toNat)]
  | 0x04 => reg [(8, p.next.toNat), (0, p.cap.toNat)]
  | 0x08 => reg [(3, p.lvl.toNat), (0, p.en.toNat)]
  | 0x0C => reg [(0, p.timer.toNat)]
  | 0x10 => reg [(13, p.lastSrc.toNat), (10, p.lastState.toNat), (4, flag p.overFlag), (3, flag p.alert), (2, flag p.immediate), (1, flag p.ready)]
  | 0x14 => reg [(16, p.pmax.toNat), (0, p.plast.toNat)]
  | 0x18 => reg [(0, p.est.toNat)]
  | 0x1C => reg [(0, p.scale.toNat)]
  | 0x20 => reg [(0, p.coefS.toNat)]
  | 0x24 => reg [(0, p.coefC.toNat)]
  | 0x28 => reg [(0, p.coefB.toNat)]
  | 0x30 => reg [(0, p.wakes.toNat)]
  | 0x34 => reg [(0, p.overcap.toNat)]
  | _ => none

/-- SEC_ (R682). -/
def State.readSec (s : State) (off : Nat) : Option Nat :=
  match arr 0x10 8 off with
  | some i => reg [(0, if s.boot.keyReady then (Config.devid i).toNat else 0)]
  | none => match off with
    | 0x00 => reg [(2, flag s.boot.keyReady), (1, flag s.boot.secReady), (0, flag s.boot.secFenced)]
    | 0x04 => reg [(0, s.boot.attests.toNat)]
    | 0x08 => if s.boot.secReady then reg [(2, (s.slotState true).toNat), (0, (s.slotState false).toNat)] else reg []
    | _ => none

/-- FUS_ (R682). -/
def State.readFus (s : State) : Nat → Option Nat
  | 0x00 => reg [(1, flag s.boot.lock), (0, flag s.boot.fusesValid)]
  | 0x04 => reg [(0, s.boot.svn.toNat)]
  | 0x08 => reg [(0, s.boot.keyrev.toNat)]
  | 0x0C => reg [(0, s.boot.serial.toNat % 2 ^ 32)]
  | 0x10 => reg [(0, s.boot.serial.toNat / 2 ^ 32)]
  | _ => none

/-- DBG_ (R711). -/
def State.readDbg (s : State) : Nat → Option Nat
  | 0x00 => reg [(0, 0x172045AF)]
  | 0x04 => reg [(2, flag (s.dbg.tap == 15)), (1, flag s.dbg.bscan), (0, flag s.boot.lock)]
  | 0x10 => reg [(0, s.dbg.scratch0.toNat)]
  | 0x14 => reg [(0, s.dbg.scratch1.toNat)]
  | _ => none

/-- A register page by its place in R707. -/
def State.readPage (s : State) (page off : Nat) : Option Nat :=
  match page with
  | 0 => s.readEas off
  | 1 => s.readTck off
  | 2 => s.readPnl off
  | 3 => s.readPgr off
  | 4 => s.readPrm off
  | 5 => s.readLin off
  | 6 => s.readWrp off
  | 7 => s.readPix off
  | 8 => s.readGlz off
  | 9 => s.readPal off
  | 10 => s.readWin off
  | 11 => s.readSwm off
  | 12 => s.readMig off
  | 13 => s.readMov off
  | 14 => s.readChs off
  | 15 => s.readHlk off
  | 16 => s.readFab off
  | 17 => s.readPmu off
  | 18 => s.readSec off
  | 19 => s.readFus off
  | 20 => s.readDbg off
  | _ => none

/-- Where an offset of the control space lies (R706). -/
inductive Place where
  | ident (off : Nat)
  | bell (ring : Nat)
  | window (off : Nat)
  | page (n off : Nat)
  | nowhere
deriving DecidableEq, Repr

/-- The range of an offset. -/
def placeOfOff (off : Nat) : Place :=
  if off < 0x10000 then .ident off
  else if 0x100000 ≤ off ∧ off < 0x140000 then .bell ((off - 0x100000) / 8)
  else if 0x200000 ≤ off ∧ off < 0x400000 then .window (off - 0x200000)
  else if 0x400000 ≤ off ∧ off < 0x550000 then .page ((off - 0x400000) / 0x10000) (off % 0x10000)
  else .nowhere

/-- Pages whose logic is not clocked in HOLD (R707): PGR_, LIN_, WRP_, PIX_ and GLZ_. -/
def darkPage (n : Nat) : Bool := n == 3 || n == 5 || n == 6 || n == 7 || n == 8

/-- A page is dark now (R708). -/
def State.pageDark (s : State) (n : Nat) : Bool := decide (s.power = 1) && darkPage n

/-- An access has the width and alignment of R463. -/
def accessOk (off len : Nat) : Bool :=
  match placeOfOff off with
  | .window _ => len % 8 == 0 && decide (8 ≤ len) && off % 8 == 0 && decide (off % 64 + len ≤ 64)
  | .bell _ => len == 8 && off % 8 == 0
  | _ => len == 4 && off % 4 == 0

/-- What a read of the control space returns besides its data: status (R464) and busy flag (R333). -/
structure Answer where
  status : BitVec 3 := 0
  busy : Bool := false
  data : List Byte := []
deriving DecidableEq, Repr

/-- Reads the control space (R463, R464, R706, R708, R712). -/
def State.readSpace (off len : Nat) (bs : List PortB) (s : State) : Answer × State :=
  let zeros : Answer := { status := 2, data := List.replicate len 0 }
  let ones : Answer := { status := 1, data := List.replicate len 0xFF }
  let regAns (r : Option Nat) : Answer := match r with
    | some v => { data := bytesOf 4 v }
    | none => zeros
  if !accessOk off len then (zeros, s.dbIgnored)
  else match placeOfOff off with
    | .ident o => (regAns (s.readIdent o), s)
    | .bell _ => ({ data := List.replicate 8 0 }, s)
    | .window o =>
      if s.win.power ≠ 2 then (ones, s)
      else let r := s.winReadA o len bs; ({ data := r.1, busy := r.2.1.warnA }, r.2.2)
    | .page n o => if s.pageDark n then (ones, s) else (regAns (s.readPage n o), s.onFreeCtr (· + 2))
    | .nowhere => (zeros, s)

end Sys2Proof.Machine
end

