-- ==== Sys2Proof/Machine/Registers.lean ====
section
/-! DEFINITION. Writes of the control space by the host, by a manager for a worker, and by Easel on its own path (R8, R463, R464, R582,
R706 to R718), with the rules of each page on what the host may write. -/

namespace Sys2Proof.Machine

/-- A W1C register of flags: the bits written 1 are cleared. -/
def w1c (old : Bool) (v i : Nat) : Bool := old && !bit v i

/-- A commit register (R713). -/
def State.onCommit (v : Nat) (f : State → State) (s : State) : State := onlyIf (bit v 0) f s

-- Fields that the host may write (R35, R111, R144, R232, R261, R295, R338, R377, R413, R449, R486, R603, R645, R711).

/-- TCK_. -/
def State.hostTck (off v : Nat) (s : State) : State :=
  match off with
  | 0x18 => s.onTick (fun t => { t with
      realign := w1c t.realign v 4, overrun := w1c t.overrun v 3, synth := w1c t.synth v 2, ignored := w1c t.ignored v 1 })
  | 0x30 => s.onTick (fun t => { t with ctxSel := BitVec.ofNat 10 v })
  | _ => s

/-- PNL_; a panel above 543 is 543. -/
def State.hostPnl (off v : Nat) (s : State) : State :=
  match off with
  | 0x00 => s.onPanels (fun u => { u with pnlSel := BitVec.ofNat 10 (min 543 (v % 1024)) })
  | _ => s

/-- PGR_. -/
def State.hostPgr (off v : Nat) (s : State) : State :=
  match off with
  | 0x00 => s.onPanels (fun u => { u with ctxSel := BitVec.ofNat 10 v })
  | 0x20 => s.onPanels (fun u => { u with layerSelCtx := BitVec.ofNat 10 (v / 2 ^ 16), layerSelLayer := BitVec.ofNat 10 v })
  | _ => s

/-- PRM_. -/
def State.hostPrm (off v : Nat) (s : State) : State :=
  match off with
  | 0x14 => s.onPrimer (fun p => { p with markEvent := w1c p.markEvent v 2, routeEvent := w1c p.routeEvent v 1 })
  | 0x20 => s.onPrimer (fun p => { p with selWin := BitVec.ofNat 2 (v / 2 ^ 12), selPanel := BitVec.ofNat 10 (min 543 (v % 1024)) })
  | 0xA0 => s.onPrimer (fun p => { p with ctxSel := BitVec.ofNat 10 v })
  | _ => s

/-- LIN_. -/
def State.hostLin (off v : Nat) (s : State) : State :=
  match off with
  | 0x00 => s.onLiner (fun l => { l with engSel := BitVec.ofNat 4 v })
  | 0x80 => s.onLiner (fun l => { l with ctxSel := BitVec.ofNat 10 v })
  | _ => s

/-- PIX_. -/
def State.hostPix (off v : Nat) (s : State) : State :=
  match off with
  | 0x10 => s.onWp (fun w => { w with ctxSel := BitVec.ofNat 10 v })
  | _ => s

/-- GLZ_. -/
def State.hostGlz (off v : Nat) (s : State) : State :=
  match off with
  | 0x08 => s.onGlaze (fun g => { g with corruptEvent := w1c g.corruptEvent v 3 })
  | 0x40 => s.onGlaze (fun g => { g with tenSel := BitVec.ofNat 16 v })
  | _ => s

/-- PAL_. -/
def State.hostPal (off v : Nat) (s : State) : State :=
  match off with
  | 0x10 => s.onPal (fun p => { p with unitSel := BitVec.ofNat 8 v })
  | 0x20 => (s.onPal (fun p => { p with tester := { p.tester with
      gap := BitVec.ofNat 16 (v / 2 ^ 16), idle := BitVec.ofNat 12 (v / 2 ^ 4), exclUrg := bit v 1, run := bit v 0 } })).testerCheck
  | 0x24 => s.onPal (fun p => { p with tester := { p.tester with fail := w1c p.tester.fail v 31 } })
  | _ => s

/-- WIN_. -/
def State.hostWin (off v : Nat) (s : State) : State :=
  match off with
  | 0x00 => s.onWin (fun w => { w with shadow := bit v 0 })
  | 0x04 => s.onCommit v State.winCommit
  | 0x08 => s.onWin (fun w => { w with bWarn := w1c w.bWarn v 1, aWarn := w1c w.aWarn v 0 })
  | _ => s

/-- SWM_. -/
def State.hostSwm (off v : Nat) (s : State) : State :=
  match off with
  | 0x10 => s.onSw (fun w => { w with objSel := BitVec.ofNat 20 v })
  | _ => s

/-- MIG_. -/
def State.hostMig (off v : Nat) (s : State) : State :=
  match off with
  | 0x00 => s.onSw (fun w => { w with shTmo := BitVec.ofNat 8 (v / 2 ^ 24), shMax := BitVec.ofNat 7 (v / 2 ^ 16) })
  | 0x04 => s.onCommit v State.migCommit
  | 0x08 => s.onSw (fun w => { w with
      stuck := w1c w.stuck v 4, unpoisonEvent := w1c w.unpoisonEvent v 3, poisonEvent := w1c w.poisonEvent v 2 })
  | _ => s

/-- MOV_Q_LIMIT of a queue. -/
def State.putLimit (q v : Nat) (s : State) : State :=
  s.onQueue q (fun x => { x with shadow := { rate := BitVec.ofNat 12 (v / 2 ^ 16), outmax := BitVec.ofNat 7 v } })

/-- MOV_; MOV_Q_LIMIT of stream queues only. -/
def State.hostMov (off v : Nat) (s : State) : State :=
  match off with
  | 0x00 => s.onMover (fun m => { m with
      faultEvent := w1c m.faultEvent v 4, semSat := w1c m.semSat v 3, pairStale := w1c m.pairStale v 2 })
  | 0x04 => s.onCommit v State.movCommit
  | 0x10 => s.onMover (fun m => { m with qSel := BitVec.ofNat 6 v })
  | 0x1C => if 8 ≤ s.mover.qSel.toNat then s.putLimit s.mover.qSel.toNat v else s
  | 0x40 => s.onMover (fun m => { m with semSel := BitVec.ofNat 9 v })
  | 0x80 => s.onMover (fun m => { m with ctxSel := BitVec.ofNat 10 v })
  | _ => s

/-- CHS_. -/
def State.hostChs (off v : Nat) (s : State) : State :=
  match off with
  | 0x08 => s.onChest (fun c => { c with uncorrEvent := w1c c.uncorrEvent v 3 })
  | _ => s

/-- HLK_. -/
def State.hostHlk (off v : Nat) (s : State) : State :=
  match off with
  | 0x00 => s.onLink (fun l => { l with shadow := { moden := BitVec.ofNat 2 (v / 2 ^ 4), maxrate := BitVec.ofNat 2 v } })
  | 0x04 => s.onCommit v State.hlkCommit
  | 0x10 => s.onLink (fun l => { l with rdtLo := BitVec.ofNat 20 (v / 2 ^ 12) })
  | 0x14 => s.onLink (fun l => { l with rdtHi := BitVec.ofNat 32 v })
  | 0x18 => s.urgDb (BitVec.ofNat 16 v)
  | 0x20 => s.onLink (fun l => { l with evtStat := l.evtStat &&& ~~~(BitVec.ofNat 5 v) })
  | 0x24 => s.onLink (fun l => { l with evtEn := BitVec.ofNat 5 v })
  | 0x80 => s.onLink (fun l => { l with ringSel := BitVec.ofNat 15 v })
  | _ => s

/-- FAB_RMT_CMD (R582): DONE clears, and CMD 1 reads, 2 writes. -/
def State.remoteCommand (cmd : Nat) (s : State) : State :=
  let s := s.onFab (fun f => { f with rmt := { f.rmt with done := false } })
  match cmd with
  | 1 => s.remoteAccess false
  | 2 => s.remoteAccess true
  | _ => s

/-- FAB_CHAN without its reserved bits. -/
def chanWord (v : Nat) : Word := BitVec.ofNat 32 v &&& 0x80001FFF

/-- FAB_. -/
def State.hostFab (off v : Nat) (s : State) : State :=
  match arr 0x40 16 off with
  | some d => s.setRoute d (BitVec.ofNat 32 v)
  | none => match off with
    | 0x04 => s.onCommit v State.fabCommit
    | 0x20 => s.onFab (fun f => { f with portSel := BitVec.ofNat 2 v })
    | 0x80 => s.onFab (fun f => { f with chanSel := BitVec.ofNat 8 v })
    | 0x84 => s.onFab (fun f => { f with chans := put 0 f.chanSel.toNat (chanWord v) f.chans })
    | 0x90 => s.onFab (fun f => { f with lend := { f.lend with
        shTo := BitVec.ofNat 5 (v / 2 ^ 27), shBanks := BitVec.ofNat 8 (v / 2 ^ 8), shChest := BitVec.ofNat 5 v } })
    | 0xA0 => s.onFab (fun f => { f with rmt := { f.rmt with stack := BitVec.ofNat 5 (v / 2 ^ 24), off := BitVec.ofNat 24 v } })
    | 0xA4 => s.onFab (fun f => { f with rmt := { f.rmt with data := BitVec.ofNat 32 v } })
    | 0xA8 => s.remoteCommand (v % 4)
    | _ => s

/-- PMU_. -/
def State.hostPmu (off v : Nat) (s : State) : State :=
  match off with
  | 0x10 => s.onPmu (fun p => { p with overFlag := w1c p.overFlag v 4, immediate := w1c p.immediate v 2 })
  | 0x20 => s.onPmu (fun p => { p with coefS := BitVec.ofNat 16 v })
  | 0x24 => s.onPmu (fun p => { p with coefC := BitVec.ofNat 16 v })
  | 0x28 => s.onPmu (fun p => { p with coefB := BitVec.ofNat 16 v })
  | _ => s

/-- DBG_. -/
def State.hostDbg (off v : Nat) (s : State) : State :=
  match off with
  | 0x10 => s.onDbg (fun d => { d with scratch0 := BitVec.ofNat 32 v })
  | 0x14 => s.onDbg (fun d => { d with scratch1 := BitVec.ofNat 32 v })
  | _ => s

/-- A host write to a register page; every other field of a page ignores it. -/
def State.hostPage (page off v : Nat) (s : State) : State :=
  match page with
  | 1 => s.hostTck off v
  | 2 => s.hostPnl off v
  | 3 => s.hostPgr off v
  | 4 => s.hostPrm off v
  | 5 => s.hostLin off v
  | 7 => s.hostPix off v
  | 8 => s.hostGlz off v
  | 9 => s.hostPal off v
  | 10 => s.hostWin off v
  | 11 => s.hostSwm off v
  | 12 => s.hostMig off v
  | 13 => s.hostMov off v
  | 14 => s.hostChs off v
  | 15 => s.hostHlk off v
  | 16 => s.hostFab off v
  | 17 => s.hostPmu off v
  | 20 => s.hostDbg off v
  | _ => s

-- Fields that Easel writes, with its own selector value (R712, R715).

/-- Selectors are the host's: Easel never writes them (R712). -/
def hostSel (page off : Nat) : Bool :=
  [(1, 0x30), (2, 0), (3, 0), (3, 0x20), (4, 0x20), (4, 0xA0), (5, 0), (5, 0x80), (7, 0x10), (8, 0x40), (9, 0x10), (11, 0x10), (13, 0x10),
    (13, 0x40), (13, 0x80), (15, 0x80), (16, 0x20), (16, 0x80)].contains (page, off)

/-- PAL_: banks' owners and settings, and the raw test registers (R321). -/
def State.easelPal (off v : Nat) (s : State) : State :=
  match arr 0x1000 256 off, arr 0x1400 256 off with
  | some b, _ => if (s.bank b).busy then s.nonOwner 1 else s.handBank b (v % 256) (v / 2 ^ 16)
  | _, some b => s.onBank b (fun k => { k with shadow := {
      urg := bit v 11, pin := bit v 10, testEn := bit v 9, state := BitVec.ofNat 2 (v / 2 ^ 4), mode := BitVec.ofNat 2 v } })
  | _, _ => match off with
    | 0x00 => s.onCommit v State.palCommit
    | 0x40 => s.onPal (fun p => { p with test := { p.test with bank := BitVec.ofNat 8 (v / 2 ^ 16), word := BitVec.ofNat 16 v } })
    | 0x44 => s.onPal (fun p => { p with test := { p.test with lo := BitVec.ofNat 32 v } })
    | 0x48 => s.onPal (fun p => { p with test := { p.test with hi := BitVec.ofNat 32 v } })
    | 0x4C => s.onPal (fun p => { p with test := { p.test with check := BitVec.ofNat 16 v } })
    | 0x50 => match v % 4 with
      | 1 => s.rawWrite
      | 2 => s.rawRead
      | _ => s.onPal (fun p => { p with test := { p.test with done := false } })
    | _ => s.hostPal off v

/-- MOV_ of a queue or semaphore. -/
def State.easelMov (sel off v : Nat) (s : State) : State :=
  match off with
  | 0x14 => s.onQueue (sel % 64) (fun x => { x with bank := BitVec.ofNat 8 (v / 2 ^ 13), line := BitVec.ofNat 13 v })
  | 0x18 => s.onQueue (sel % 64) (fun x => { x with log2 := BitVec.ofNat 4 v })
  | 0x1C => s.putLimit (sel % 64) v
  | 0x24 => match (s.queue (sel % 64)).run with
    | some r => onlyIf (bit v 0 && !s.mover.fenced) (fun s => (s.cancelQueue (sel % 64)).countCancel r.ctx) s
    | none => s
  | 0x28 => onlyIf (s.mover.ready && !s.mover.fenced) (State.armQueue (sel % 64) (v % 1024)) s
  | 0x44 => s.onMover (fun m => { m with sems := putRaw (sel % 512) (BitVec.ofNat 16 v) m.sems })
  | 0x48 => onlyIf (bit v 9) (State.semSignal (v % 512)) s
  | _ => s.hostMov off v

/-- CHS_: settings and the raw registers (R413); a raw command of a code with a row of its own is that row. -/
def State.easelChs (off v : Nat) (s : State) : State :=
  match arr 0x1000 1104 off with
  | some w => s.onChest (fun c => { c with rawBuf := putBytes (4 * w) (bytesOf 4 v) c.rawBuf })
  | none => match off with
    | 0x00 => s.onChest (fun c => { c with shadow := {
        scanrate := BitVec.ofNat 8 (v / 2 ^ 24), rdlimit := BitVec.ofNat 8 (v / 2 ^ 16), refreshT := BitVec.ofNat 6 (v / 2 ^ 10),
        wrbusy := BitVec.ofNat 6 (v / 2 ^ 4), xipEn := bit v 1, service := bit v 0 } })
    | 0x04 => s.onCommit v State.chsCommit
    | 0x40 => s.onChest (fun c => { c with
        rawPlane := BitVec.ofNat 5 (v / 2 ^ 27), rawBlock := BitVec.ofNat 12 (min 2559 (bits v 26 15)), rawPage := BitVec.ofNat 6 (v / 2 ^ 9) })
    | 0x44 => onlyIf (s.chest.eff.service && decide (v % 8 = 0 ∨ 5 < v % 8)) (State.onChest (fun c => { c with rawDone := false })) s
    | _ => s.hostChs off v

/-- PMU_: what POWER sets (R645). -/
def State.easelPmu (off v : Nat) (s : State) : State :=
  match off with
  | 0x00 => s.onPmu (fun p => { p with mode := if 4 < v % 8 then 0 else BitVec.ofNat 3 v })
  | 0x08 => s.onPmu (fun p => { p with lvl := BitVec.ofNat 3 (v / 2 ^ 3), en := BitVec.ofNat 3 v })
  | 0x0C => s.onPmu (fun p => { p with timer := BitVec.ofNat 32 v })
  | _ => s.hostPmu off v

/-- An Easel write to a register page. -/
def State.easelPage (sel page off v : Nat) (s : State) : State :=
  if hostSel page off then s
  else match page, off with
    | 0, 0x14 => onlyIf s.boot.wdogRun (State.kick (BitVec.ofNat 32 v)) s
    | 1, 0x00 => s.onTick (fun t => { t with shadow := t.shadow.putCfg v })
    | 1, 0x04 => s.onTick (fun t => { t with shadow := { t.shadow with nom := BitVec.ofNat 24 v } })
    | 1, 0x08 => s.onTick (fun t => { t with shadow := { t.shadow with min := BitVec.ofNat 24 v } })
    | 1, 0x0C => s.onCommit v State.tckCommit
    | 4, 0x00 => s.onPrimer (fun p => { p with shadow := p.shadow.put 0 v })
    | 4, 0x04 => s.onPrimer (fun p => { p with shadow := p.shadow.put 1 v })
    | 4, 0x08 => s.onPrimer (fun p => { p with shadow := p.shadow.put 2 v })
    | 4, 0x0C => s.onPrimer (fun p => { p with shadow := p.shadow.put 3 v })
    | 4, 0x10 => s.onCommit v State.prmCommit
    | 8, 0x00 => s.onGlaze (fun g => { g with shadow := glzFields (v / 2 ^ 16) (v / 2 ^ 8) (v / 2 ^ 4) v })
    | 8, 0x04 => s.onCommit v State.glzCommit
    | 9, _ => s.easelPal off v
    | 13, _ => s.easelMov sel off v
    | 14, _ => s.easelChs off v
    | 16, 0x00 => s.onFab (fun f => { f with shTfwd := bit v 2, shRate := BitVec.ofNat 2 v })
    | 17, _ => s.easelPmu off v
    | _, _ => s.hostPage page off v

-- Accesses to the control space.

/-- A write of 4 bytes to a page by an agent; a dark page drops it (R708). -/
def State.pageWrite (a : Agent) (n off v : Nat) (s : State) : State :=
  if s.pageDark n then s
  else match a with
    | .host => s.hostPage n off v
    | .easel sel => s.easelPage sel n off v

/-- Writes the control space for the host (R463, R464): the status, the busy flag, and the state. -/
def State.writeSpace (off : Nat) (data : List Byte) (bs : List PortB) (s : State) : Answer × State :=
  if !accessOk off data.length then ({ status := 2 }, s.dbIgnored)
  else match placeOfOff off with
    | .ident o => ({ status := if (s.readIdent o).isSome then 0 else 2 }, s)
    | .bell r =>
      let v := natOf data
      ({}, s.doorbell r (bits v 63 60) (bits v 16 0))
    | .window o =>
      if s.win.power ≠ 2 then ({ status := 1 }, s)
      else
        let r := s.winWriteA o data bs
        let s := if o ≤ 0x1FF000 ∧ 0x1FF000 < o + data.length then r.2.recWritten else r.2
        ({ status := if r.1.coll then 3 else 0, busy := r.1.warnA }, s)
    | .page n o =>
      ({ status := if s.pageDark n then 1 else if (s.readPage n o).isSome then 0 else 2 }, s.pageWrite .host n o (natOf data))
    | .nowhere => ({ status := 2 }, s)

/-- The host link has frames pass, and the control space can be reached: in ACTIVE and HOLD (R625). -/
def State.hostReach (s : State) : Bool := s.carries .host && decide (s.power ≤ 1)

/-- CWR (R457, R463, R464, R709): a frame that passes its check writes the control space, and is answered where the host die asks. -/
def execCwr (rx : Rx) (off : Nat) (data : List Byte) (resp : Bool) (portB : List PortB) (s : State) : Host.Outcome State Fault Refusal :=
  .next (onlyIf s.hostReach (fun s =>
    let c := s.checkFrame .host rx
    if !c.1 then c.2
    else
      let r := c.2.writeSpace off data portB
      if resp then r.2.send (.cwrResp r.1.status r.1.busy) .control else r.2) s)

/-- CRD (R457, R463, R464, R709): a frame that passes its check reads the control space and is answered by a CRDC. -/
def execCrd (rx : Rx) (off len : Nat) (portB : List PortB) (s : State) : Host.Outcome State Fault Refusal :=
  .next (onlyIf s.hostReach (fun s =>
    let c := s.checkFrame .host rx
    if !c.1 then c.2
    else
      let r := c.2.readSpace off len portB
      r.2.send (.crdc r.1.status r.1.busy r.1.data) .control) s)

/-- REGISTER_WRITE (R8, R10, R712): 4 bytes to a register page, by the host or on Easel's own path. -/
def execRegisterWrite (a : Agent) (off : Nat) (v : Word) (s : State) : Host.Outcome State Fault Refusal :=
  .next (match placeOfOff off with
    | .page n o => onlyIf (off % 4 == 0 && (match a with
        | .host => s.hostReach
        | .easel _ => s.easelRuns)) (State.pageWrite a n o v.toNat) s
    | _ => s)

/-- RMT (R577, R582): a worker performs a 4-byte access for its manager under the host's rules, AUX 1 for the manager's Easel, and
answers the host's with RMT_REPLY. -/
def execRmt (w : Wrx) (s : State) : Host.Outcome State Fault Refusal :=
  .next (s.frame 0x14 1 w (fun s =>
    let off := bits w.param.toNat 23 0
    let wr := w.param.getLsbD 31
    let v := fieldB w.data 0 4
    if !s.isMember || decide (1 < s.power) then s
    else if w.aux = 1 then
      (match placeOfOff off with
        | .page n o => onlyIf (wr && off % 4 == 0) (State.pageWrite (.easel 0) n o v) s
        | _ => s)
    else
      let r := if wr then s.writeSpace off (bytesOf 4 v) [] else s.readSpace off 4 []
      r.2.weave 16 0x15 1 (if wr then 0 else natOf r.1.data) (r.1.status.toNat + 8 * flag r.1.busy + 16 * flag wr) []))

end Sys2Proof.Machine
end

