-- ==== Sys2Proof/Machine/EdgeEnd.lean ====
section
/-! DEFINITION. A registered edge, first part: which events begin a tick (R27, R32, R33), the period and the slice grid (R29, R30), and
what the edge does to the tick that it ends (R65, R112, R121 to R130, R216, R280, R641). -/

namespace Sys2Proof.Machine

-- The Tick unit.

/-- What the Tick unit makes of an event: it begins a tick, gives the phase only, or is ignored. -/
inductive EdgeKind where
  | begins
  | realigns
  | ignored
deriving DecidableEq, Repr

/-- The edge floor in its range (R36). -/
def TickCfg.minIn (c : TickCfg) : Nat := clampN 200000 c.nomIn c.min.toNat

/-- Decides an event (R27, R33): the realign window is tested before the floor, and the first edge has no floor. -/
def TickUnit.judge (k : TickUnit) (e : SyncEvent) : EdgeKind :=
  let near : Bool := match k.lastSynth with
    | some t => e.real && decide (e.at_ ≤ t + k.meas.toNat / 8)
    | none => false
  if near then .realigns
  else if k.begun && e.real && decide (e.at_ < k.lastAcc + k.eff.minIn) then .ignored
  else .begins

/-- The last four of a list of periods. -/
def keep4 (xs : List Nat) : List Nat := xs.drop (xs.length - 4)

/-- What an edge that begins a tick measures (R29, R34). A synthesised edge leaves the periods that P is the mean of, and clears LOCKED by emptying
the list of periods that LOCKED judges: four new ones set it again (log 93). -/
def TickUnit.measure (e : SyncEvent) (k : TickUnit) : TickUnit :=
  if !e.real then
    { k with synth := true, missedCnt := satInc k.missedCnt, lastSynth := some e.at_, lastReal := none, bandPeriods := [] }
  else if k.src = 2 then
    { k with lastSynth := none, lastReal := none, bandPeriods := if k.begun then keep4 (k.bandPeriods ++ [k.eff.nomIn]) else k.bandPeriods }
  else
    let p := match k.lastReal with | some t => [e.at_ - t] | none => []
    { k with lastSynth := none, lastReal := some e.at_, periods := keep4 (k.periods ++ p), bandPeriods := keep4 (k.bandPeriods ++ p) }

/-- The settings latched take effect (R28): a new source measures afresh, and the internal timer's periods are NOM. -/
def TickUnit.takeCfg (k : TickUnit) : TickUnit :=
  let n : TickUnit := { k with eff := k.nextCfg, latched := none }
  let n := if n.src = k.src then n else { n with periods := [], bandPeriods := [], lastReal := none, sync := [] }
  if n.src = 2 then { n with bandPeriods := n.bandPeriods.map (fun _ => n.eff.nomIn) } else n

/-- P (R29): NOM with the internal timer and until four periods have been measured, else their mean. -/
def TickUnit.period (k : TickUnit) : Nat :=
  if k.src = 2 ∨ k.periods.length < 4 then k.eff.nomIn else sumN k.periods / 4

/-- An edge begins a tick: it is measured, settings take effect, and the grid is fixed (R28 to R32). -/
def TickUnit.accept (e : SyncEvent) (k : TickUnit) : TickUnit :=
  let k := (k.measure e).takeCfg
  let p := k.period
  { k with
    begun := true, lastAcc := e.at_, meas := BitVec.ofNat 24 p, count := k.count + 1, sliceNow := 0, gridEdge := e.at_, gridP := p
    sliceLen := BitVec.ofNat 24 (p / k.slices) }

/-- An edge that gives the phase of the source only (R33). The window stays open for a further real edge (R27), which measures its period from
the one before it, for no synthesised edge lies between them (R29). -/
def TickUnit.realignTo (e : SyncEvent) (k : TickUnit) : TickUnit :=
  let p := match k.lastReal with | some t => [e.at_ - t] | none => []
  let k := { k with
    realign := true, lastReal := some e.at_, lastAcc := e.at_, periods := keep4 (k.periods ++ p), bandPeriods := keep4 (k.bandPeriods ++ p) }
  { k with meas := BitVec.ofNat 24 k.period }

/-- An edge below the floor (R27). -/
def TickUnit.ignore (k : TickUnit) : TickUnit := { k with ignored := true, ignoredCnt := satInc k.ignoredCnt }

-- Work outstanding at the edge (R65, R175, R259).

/-- The task passed on from one of these contexts in the tick that ends, whatever tick its work is of. -/
def Task.passedBy (t : Task) (now : Word) (cs : List Nat) : Bool := t.handedAt == now && t.by_.isSome && t.chain.dropLast.any cs.contains

/-- REALTIME contexts that hold work of the ending tick, with that work. Work that a context of `same` handed over in the cycle of the edge
belongs to the old tick with its own cause, and is no overrun (R68). -/
def State.overruns (same : List Nat) (s : State) : List (Nat × List Task) :=
  ((s.easel.ctxs.filter (fun p => p.2.st == .bound && p.2.bindLive && p.2.bind.realtime && !p.2.fence)).map (fun p =>
    (p.1, (s.heldTasks p.1).filter (fun t => !t.passedBy s.tick.count same)))).filter (fun p => !p.2.isEmpty)

/-- The work passes to the fallbacks with cause OVERRUN; every context may be served again in the tick that begins. -/
def State.passOverruns (os : List (Nat × List Task)) (s : State) : State :=
  let s := each os (fun o s =>
    let s := (s.onCtx o.1 (fun x => { x with cnt := { x.cnt with ovr := satInc x.cnt.ovr } })).onTick (fun k => { k with overrun := true })
    (((s.countMiss o.1).stopUnits o.1).cancelRuns o.1).countCancel o.1) s
  let s := s.onEveryCtx (fun _ x => { x with handed := 0 })
  handTogether (fun s => each os (fun o s => each o.2 (fun t s => s.passOn o.1 3 t) s) s) s

-- Layers (R112, R216).

/-- The status words of a context's layers are latched for the tick that ends (R112). -/
def State.latchStats (c : Nat) (s : State) : State :=
  let ls := (s.workMap c).players
  s.onCtx c (fun x => { x with
    latched := (List.range ls.length).map (fun l => (l, { look {} x.stats l with window := (ls.getD l {}).window }))
    stats := [] })

/-- State objects of a REALTIME context at the edge (R216): that of a layer whose work completed on the own path is committed, any other held, which
counts once; `had` whether the context had work in the tick. -/
def State.commitTick (late had : Bool) (c : Nat) (s : State) : State :=
  let x := s.ctx c
  if !(x.st == .bound && x.bind.realtime && (s.workMap c).llayers.any (·.stateful)) then s
  else
    let good := x.handed == 0 && !late && !x.fence
    let open_ := (below (s.workMap c).llayers.length (fun l => ((s.workMap c).ll l).stateful && !(good && look false x.stateOk l))).isEmpty
    let s := if good then s.onCtx c Ctx.commitState else s.onCtx c (fun x => { x with stateOk := [], stateNew := [] })
    if open_ || !(had || late || x.handed != 0 || !x.stateOk.isEmpty) then s
    else s.onCtx c (fun x => { x with cnt := { x.cnt with linHold := satInc x.cnt.linHold } })

-- The Primer (R121 to R124, R129, R130).

/-- A trim step towards a target (R122). -/
def trimStep (d : Int) (a m : Nat) : Int :=
  let q := truncDiv d ((2 ^ a : Nat) : Int)
  clampZ (-(m : Int)) m (if q = 0 ∧ d ≠ 0 then (if d < 0 then -1 else 1) else q)

/-- Lower trim limit in effect. -/
def PrmCfg.lo (k : PrmCfg) : Nat := min k.gainMin.toNat k.gainMax.toNat
/-- Offset limit in effect. -/
def PrmCfg.lim (k : PrmCfg) : Nat := min 2047 k.ofsLim.toNat

/-- New targets of a window from 64 samples or more (R122, R123), and whether its span is unusable. -/
def WinCal.retarget (c : WinCal) : WinCal × Bool :=
  let gains := decide (64 ≤ c.ng)
  let dead := gains && decide (c.sm ≤ 0)
  ({ c with
    tg := if gains && !dead then roundAway (512 * c.si) c.sm else c.tg
    to_ := if 64 ≤ c.no then roundAway (8 * c.so) c.no else c.to_
    sm := 0, si := 0, ng := 0, so := 0, no := 0 }, dead)

/-- The targets of a window lie outside the limits. -/
def WinCal.outside (k : PrmCfg) (c : WinCal) : Bool :=
  decide (c.tg < k.lo ∨ (k.gainMax.toNat : Int) < c.tg) || decide ((k.lim : Int) < c.to_.natAbs)

/-- The trims of a window move one step. -/
def WinCal.move (k : PrmCfg) (c : WinCal) : WinCal :=
  { c with
    gain := (clampZ k.lo k.gainMax.toNat (c.gain + trimStep (c.tg - c.gain) k.filt.toNat (max 1 k.gainStep.toNat))).toNat
    ofs := clampZ (-(k.lim : Int)) k.lim (c.ofs + trimStep (c.to_ - c.ofs) k.filt.toNat (max 1 k.ofsStep.toNat)) }

/-- Mismatches of a panel in the tick that ends (R129, R146). -/
def Panel.mmCounts (k : PrmCfg) (p : Panel) : Panel :=
  { p with
    mmrun := if max 1 k.mmt.toNat ≤ p.mmTick then p.mmrun + 1 else 0
    mmLast := satNat 16 p.mmTick, mmTick := 0 }

/-- Run counts of a panel at a tick end: out of range, and mismatches. -/
def Panel.runCounts (k : PrmCfg) (out : Bool) (p : Panel) : Panel := { p.mmCounts k with rngrun := if out then p.rngrun + 1 else 0 }

/-- The mark that a tick end brings, the lower code first (R129, R134). -/
def Panel.dueMark (k : PrmCfg) (p : Panel) : BitVec 3 :=
  if max 1 k.rngn.toNat ≤ p.rngrun then 1 else if max 1 k.mmn.toNat ≤ p.mmrun then 2 else p.pendCause

/-- TRIM_UPDATE of one panel over the windows in use on it (R122): a panel marked at this tick end keeps its trims (R143). -/
def Panel.tickEnd (k : PrmCfg) (ws : List Nat) (p : Panel) : Panel :=
  let r := ws.foldl (fun (a : Panel × Bool) w =>
    let c := (a.1.win w).retarget
    (a.1.onWin w (fun _ => c.1), a.2 || c.2 || c.1.outside k)) (p, false)
  let q := r.1.runCounts k r.2
  if q.st = .serving then
    let mark := q.dueMark k
    if mark ≠ 0 then { q with pendCause := mark }
    else if k.mode = 1 then q
    else ws.foldl (fun (a : Panel) w => a.onWin w (WinCal.move k)) q
  else q

/-- The Primer's work at a tick end (R122): trims and marks of every panel SERVING or MARKED, the mismatch counts of every other (R146). -/
def State.trimUpdate (s : State) : State :=
  if !s.primer.running || s.primer.fenced then s
  else
    s.onPanels (fun u => { u with panels := u.panels.map (fun p => (p.1,
      if p.2.st == .serving || p.2.st == .marked then p.2.tickEnd s.primer.eff (s.windowsOn p.1) else p.2.mmCounts s.primer.eff)) })

-- Glaze and power.

/-- A tensor's sums at the edge: AVG above REF by the drift limit marks it for rebuild (R280). -/
def EncEntry.tickEnd (drift : Nat) (e : EncEntry) : EncEntry :=
  let ref := e.ref.toNat
  { e with
    marked := e.marked || (e.bytes != 0 && decide (ref + ref * drift / 256 < e.bits * 256 / e.bytes))
    bits := 0, bytes := 0, begun := false, ports := [] }

/-- PMU at the edge (R520, R641): a new cap takes effect, the mean draw of the ended tick in 10 mW is kept and judged. -/
def Pmu.tickEnd (ended : Bool) (draw : Half) (m : Pmu) : Pmu :=
  let m := if m.next = 0 then m else { m with cap := m.next, next := 0 }
  if !ended then m
  else
    let cap := 100 * (if m.cap = 0 then 75 else m.cap.toNat)
    let m := { m with plast := draw, pmax := if m.pmax < draw then draw else m.pmax }
    if cap < draw.toNat then
      let m := if m.scale = 0 then { m with overcap := satInc m.overcap, overFlag := true } else m
      { m with scale := m.scale / 2 }
    else if 20 * draw.toNat < 19 * cap then { m with scale := BitVec.ofNat 7 (min 64 (m.scale.toNat + 8)) }
    else m

/-- MAXPAR under the cap in force (R157). -/
def Pmu.maxpar (m : Pmu) : BitVec 6 := if m.cap = 0 ∨ 40 ≤ m.cap.toNat then 32 else 16

/-- What the edge does to the tick that it ends. -/
def State.endTick (draw : Half) (same : List Nat) (s : State) : State :=
  let os := s.overruns same
  let ids := s.ctxIds
  let had := ids.filter (fun c => (s.ctx c).runs.any (fun r => r.1 == s.tick.count))
  let s := s.onWp (fun w => { w with pOverrun := !w.lane.isEmpty })
  let s := each ids (fun c s => s.commitTick (os.any (fun o => o.1 == c)) (had.contains c) c) s
  let s := each ids State.latchStats s
  let s := s.passOverruns os
  let s := each ids State.drainTo s
  let s := s.trimUpdate
  let s := s.onGlaze (fun g => { g with enc := g.enc.map (fun p => (p.1, p.2.tickEnd g.eff.drift.toNat)) })
  let s := s.onPmu (Pmu.tickEnd s.tick.begun draw)
  s.onPanels (fun u => { u with maxpar := s.pmu.maxpar })

end Sys2Proof.Machine
end

