-- ==== Sys2Proof/Machine/EdgeMaps.lean ====
section
/-! DEFINITION. A registered edge, second part: what takes effect for contexts, maps, panels and fenced parts (R52, R133, R142, R171 to
R177, R180, R229, R506, R551 to R554, R561, R611 to R615, R628). -/

namespace Sys2Proof.Machine

-- Fences and closed contexts.

/-- The context stays fenced over the edge (R72, R506, R615, R628). -/
def Ctx.stillFenced (x : Ctx) : Bool := x.closeFence || !x.abortCmds.isEmpty || x.linkFence || x.powerFence

/-- Fences that end at the edge: of a lost link once it is back (R615, R600), of a power state once it has been left. -/
def State.liftFences (s : State) : State :=
  let link := if s.manager then s.link.hl0.st == .active || s.link.hl1.st == .active else !s.fab.uplost
  let power := s.power == 0 && s.pmu.entering.isNone
  s.onEveryCtx (fun _ x =>
    let y : Ctx := { x with linkFence := x.linkFence && !link, powerFence := x.powerFence && !power }
    { y with fence := y.stillFenced })

/-- Panels SERVING or MARKED that a list of maps named and no map names any more are released (R174, R506, R554). -/
def State.releasePanels (ms : List CMap) (s : State) : State :=
  let ps := (s.panels.panels.filter (fun p => (p.2.st == .serving || p.2.st == .marked) && ms.any (fun m => s.mapNames m p.1) &&
    !s.inAnyMap p.1)).map (·.1)
  each ps (fun p s => (s.onPanel p (fun x => { x with st := .empty, relSince := true, pendCause := 0, pendClear := false })).savePanel p) s

/-- Stream queues return to the free set (R416); a cancel that still runs ends by itself. -/
def State.freeStreams (c : Nat) (s : State) : State :=
  (each (s.ctx c).queues (fun q s => s.onQueue q (fun x =>
    let y : Queue := { x with owner := none, slot := none, surplus := [], extra := 0, jobs := [] }
    if x.out.isEmpty then { y with run := none, cancelling := false } else y)) s).onCtx c (fun x => { x with queues := [] })

/-- The fallback is a given context. -/
def Fallback.isCtx (f : Fallback) (c : Nat) : Bool := match f with | .ctx d => d == c | _ => false

/-- Bound contexts that name a closed one as fallback receive frame repeat, which counts as a clamp (R506). -/
def State.dropFallback (c : Nat) (s : State) : State :=
  let cs := (s.easel.ctxs.filter (fun p => p.2.st == .bound &&
    (p.2.bind.fb.isCtx c || ((p.2.next.map (fun b => b.fb.isCtx c)).getD false)))).map (·.1)
  each cs (fun d s => (s.onCtx d (fun x =>
    let cut (b : Bind) : Bind := if b.fb.isCtx c then { b with fb := .frameRepeat } else b
    { x with bind := cut x.bind, next := x.next.map cut })).clampAt d 0x03 0xFFFE) s

/-- CLOSE_RELEASE (R506): a CLOSING context gives up everything but its counters and clamp record, and CTX_CLOSE completes;
an ABORT that still runs completes with the fence (R533). -/
def State.closeRelease (c : Nat) (s : State) : State :=
  let x := s.ctx c
  match x.closeCmd with
  | none => s
  | some cmd =>
    let s := onlyIf (!x.abortCmds.isEmpty) (State.abortEnds c) s
    let s := each x.refs (fun o s => s.onObj o (fun b => { b with ref := b.ref - 1 })) s
    let s := (s.freeStreams c).onCtx c (fun x => {
      cnt := x.cnt, latched := x.latched, clampCnt := x.clampCnt, clampOp := x.clampOp, clampTick := x.clampTick, clampWhere := x.clampWhere })
    let s := ((s.releasePanels x.bothMaps).dropFallback c).complete cmd 0 0 0 []
    s.noteEst

-- Binds, marks, trims of programmed panels, Retouch.

/-- A CTX_BIND takes effect (R52); the first one of a context puts map A in use (R553). -/
def Ctx.takeBind (x : Ctx) : Ctx :=
  match x.st, x.next with
  | .bound, some b =>
    let y : Ctx := { x with bind := b, bindLive := true, next := none, firstBind := false }
    if x.firstBind then { y with maps := { y.maps with live := true, useB := false } } else y
  | _, _ => x

/-- Marks that waited for the edge, and clears (R129, R133, R134). -/
def State.takeMarks (s : State) : State :=
  each s.panels.panels (fun p s =>
    let s := if p.2.pendCause ≠ 0 ∧ p.2.st = PState.serving then s.markPanel p.1 p.2.pendCause.toNat else s
    s.onPanel p.1 (fun x =>
      let y : Panel := { x with pendCause := 0, pendClear := false, finish := false }
      if p.2.pendClear && p.2.st == .marked then { y with st := .serving, rngrun := 0, mmrun := 0 } else y)) s

/-- Trims that a verify pass left become the trims in effect and the targets, at the four windows. -/
def Panel.startTrims (p : Panel) : Panel :=
  (List.range 4).foldl (fun (a : Panel) w => match p.start[w]? with
    | some t => a.onWin w (fun _ => { gain := t.1.toNat, ofs := signed 12 t.2.toNat, tg := t.1.toNat, to_ := signed 12 t.2.toNat })
    | none => a) p

/-- A panel whose verify has passed is SERVING where a map names it, and EMPTY else (R142, R552). -/
def State.servePanels (s : State) : State :=
  each ((s.panels.panels.filter (·.2.verified)).map (·.1)) (fun p s =>
    let named := s.inAnyMap p
    (s.onPanel p (fun x => { x.startTrims with
      st := if named then .serving else .empty, relSince := x.relSince || !named, verified := false, rngrun := 0, mmrun := 0, mmTick := 0
      start := [], takes := false })).savePanel p) s

/-- Maps of a context that are staged and not in use. -/
def CtxMaps.unused (m : CtxMaps) : List CMap := if m.live then m.other.toList else m.a.toList ++ m.b.toList

/-- Adoption (R551): an EMPTY panel, released since the start, whose source record is the image that a staged map names there. -/
def State.adopt (s : State) : State :=
  let gs := s.easel.ctxs.flatMap (fun p => p.2.maps.unused.flatMap (fun m => m.segs.filter (fun g => !g.dropped)))
  each gs (fun g s =>
    match s.panelAt g.grp g.slot with
    | none => s
    | some p =>
      let x := s.panel p
      let match_ : Bool := match x.src with | some r => r.obj == g.img.obj && r.off == g.img.off | none => false
      let free : Bool := x.req.isNone && (s.group (p / 17)).queue.all (fun r => r.panel != p) && !(s.group (p / 17)).fenced
      onlyIf (x.st == .empty && x.relSince && match_ && free) (State.onPanel p (fun x => { x with st := .serving, relSince := false })) s) s

/-- The copies that a LOWRANK layer's steps left become those in use (R229). -/
def LowRank.takeUp (w : LowRank) : LowRank := if w.newA.isEmpty then w else { w with useA := w.newA, useB := w.newB, newA := [], newB := [] }

/-- Copies kept for a frame: those of its own first. -/
def keepLow (low kept : SMap (List Half × List Half)) : SMap (List Half × List Half) := kept ++ low.filter (fun p => !kept.any (fun q => q.1 == p.1))

/-- Frames that have begun in a context keep the copies that they run on there (R229), those of the Canvas where none were trained: its own, and
those handed to it. -/
def State.keepFrames (begun : Task → Bool) (c : Nat) (s : State) : State :=
  let low := (s.ctx c).low.map (fun p => (p.1, (p.2.useA, p.2.useB)))
  s.onEasel (fun e => { e with tasks := e.tasks.map (fun t =>
    if !begun t then t
    else if t.ctx = c then { t with low := keepLow low t.low }
    else if t.workOf c then { t with lowBy := keepLow low t.lowBy }
    else t) })

/-- The Retouch steps completed in the tick that ends are taken up (R229); after its last step the RETOUCH completes and the next one
begins. -/
def State.retouchEdge (c : Nat) (s : State) : State :=
  match (s.ctx c).retouch with
  | none => s
  | some r =>
    let r2 : RetouchRun := { r with done := r.done + r.ready, taken := r.taken + r.ready, ready := 0 }
    let s := (s.keepFrames (fun t => t.tick != s.tick.count && t.tick != s.tick.count + 1) c).onCtx c (fun x => { x with
      retouch := some r2, cnt := { x.cnt with linRetouch := satAdd x.cnt.linRetouch r.ready }
      low := x.low.map (fun p => (p.1, p.2.takeUp)) })
    if r2.done < r2.steps then s
    else
      (s.onCtx c (fun x => { x with retouch := x.retouchNext.head?, retouchNext := x.retouchNext.drop 1 })).complete r.cmd 0 r2.taken 0 []

-- Switches (R171 to R177, R217, R561).

/-- LOWRANK copies that the next map keeps: layers of the same shape at the same index (R562). -/
def keepCopies (a b : CMap) (t : SMap LowRank) : SMap LowRank :=
  t.filter (fun p =>
    let x := a.ll p.1
    let y := b.ll p.1
    x.kind == 5 && y.kind == 5 && x.k == y.k && x.m == y.m && x.rank == y.rank)

/-- Stream queues, tensors, semaphores and credits of the map that a switch puts in use (R265, R416, R431). -/
def State.mapStreams (c : Nat) (m : CMap) (s : State) : State :=
  let s := (s.cancelRuns c).freeStreams c
  let g := refitTensors (s.otherTensors c) m.glaze 0 (m.glaze.map (fun g => g.2.1))
  let m2 : CMap := { m with glaze := g.1 }
  let s := s.onCtx c (fun x => { x with maps := if x.maps.useB then { x.maps with b := some m2 } else { x.maps with a := some m2 } })
  let s := each g.2 (fun i s => s.clampAt c 0x21 (atMan (m.glazeAt + 4 * i))) s
  let a := s.assignStreams c m
  let fresh := m.buffers.filter (fun b => !(s.ctx c).sems.contains b.1)
  let s := a.2.setPairs c { m with buffers := fresh }
  let n := m.streams.length
  each ((List.range n).filter (fun i => decide (n - a.1 ≤ i))) (fun i s => s.clampAt c 0x21 (atMan (m.streamAt + 64 * i))) s

/-- A context counts as a reference to the objects that its maps in use name (R350). -/
def State.fitRefs (c : Nat) (s : State) : State :=
  let x := s.ctx c
  let want := ((x.maps.cur.toList ++ x.maps.old.toList).flatMap (·.objects)).eraseDups
  let s := each (want.filter (fun o => !x.refs.contains o)) (fun o s => s.onObj o (fun b => { b with ref := b.ref + 1 })) s
  let s := each (x.refs.filter (fun o => !want.contains o)) (fun o s => s.onObj o (fun b => { b with ref := b.ref - 1 })) s
  s.onCtx c (fun y => { y with refs := want })

/-- The pointer moves to the staged map (R171, R173): work that has begun stays on the old one, but for what has passed to the fallback of a REALTIME
context (R175). Recurrent state becomes zero (R217, R562). The switch completes (R177). -/
def State.movePointer (isOld : Task → Bool) (c : Nat) (s : State) : State :=
  let x := s.ctx c
  match x.maps.cur, x.maps.staged with
  | some prev, some m =>
    let isOld (t : Task) : Bool := isOld t && !(t.ctx == c && x.bind.realtime && t.by_.isSome)
    let s := (s.keepFrames isOld c).onEasel (fun e => { e with tasks := e.tasks.map (fun t =>
      if !isOld t then t else if t.ctx = c then { t with old := t.last } else if t.workOf c then { t with oldBy := t.last } else t) })
    let s := s.onCtx c (fun x => { x with
      maps := { x.maps with
        old := some prev, useB := !x.maps.useB, releasing := false, switching := []
        a := if x.maps.useB then x.maps.a else none
        b := if x.maps.useB then none else x.maps.b }
      stateBuf := [], stateNew := [], stateOk := [], loopRun := [], loopEnds := [], low := keepCopies prev m x.low })
    let s := ((s.mapStreams c m).drainTo c).fitRefs c
    each x.maps.switching (fun k s => s.complete k 0 (if x.maps.useB then 0 else 1) 0 []) s
  | _, _ => s

/-- A context's switch is due: accepted, every panel of the staged map SERVING, no earlier map draining (R171, R176). -/
def State.switchDue (s : State) (c : Nat) : Bool :=
  let x := s.ctx c
  x.st == .bound && x.maps.live && !x.maps.switching.isEmpty && x.maps.old.isNone &&
    (match x.maps.staged with | some m => (m.segs.filter (fun g => !g.dropped)).all s.segServes | none => false)

/-- Maps of a context whose switch is by slice (R561). -/
def State.sliceSwitch (s : State) (c : Nat) : Bool :=
  (s.curMap c).players.isEmpty && (match (s.ctx c).maps.staged with | some m => m.bySlice | none => false)

/-- A map that drained before is released (R174). -/
def State.releaseMap (c : Nat) (s : State) : State :=
  let x := (s.ctx c).maps
  if x.releasing then
    ((s.onCtx c (fun y => { y with maps := { y.maps with old := none, releasing := false } })).fitRefs c).releasePanels x.old.toList
  else s

-- Spares, fenced banks, queues and engines.

/-- A request for a spare rewrite whose fenced panel still holds its slot: the spare takes slot and source record, and is written; the request goes
where no spare is left (R180, R182; log 94). -/
def State.spareTakes (g : Nat) (r : Req) (s : State) : State :=
  match s.spareOf g with
  | some sp => (s.takeSlot r.panel sp).onGroup g (fun x => { x with queue := x.queue.map (fun q => if q = r then { q with panel := sp } else q) })
  | none => s.onGroup g (fun x => { x with queue := dropReq r x.queue })

/-- Spares take over in a group (R180), the lowest fenced panel first. -/
def State.spareTakeover (g : Nat) (s : State) : State :=
  if (s.group g).fenced then s
  else
    let rs := (s.group g).queue.filter (fun r => r.kind == 2 && (s.panel r.panel).st == .fenced && decide ((s.panel r.panel).slot.toNat < 16))
    each ((List.range 17).flatMap (fun i => rs.filter (fun r => r.panel == 17 * g + i))) (State.spareTakes g) s

/-- A stream descriptor that names one bank names another. -/
def descBankTo (old new : Nat) (d : Line) : Line :=
  if hdrBits d 7 0 = old then BitVec.ofNat 512 (putBits d.toNat 7 0 new) else d
/-- A block of a list whose PALETTE sides name one bank names another. -/
def blockBankTo (old new : Nat) (b : List Byte) : List Byte :=
  let r := fieldB b 0 32
  let r1 := if bits r 152 151 = 2 ∧ bits r 20 13 = old then putBits r 20 13 new else r
  let r2 := if bits r1 154 153 = 2 ∧ bits r1 84 77 = old then putBits r1 84 77 new else r1
  bytesOf 32 r2
/-- Streams of a map whose entries move from one bank to another (R612). -/
def CMap.streamBank (old new : Nat) (m : CMap) : CMap :=
  { m with streams := m.streams.map (descBankTo old new), blocks := m.blocks.map (blockBankTo old new) }

/-- Easel writes a context's stream descriptors and block lists again where its queues and lists now stand. -/
def State.rewriteStreams (c : Nat) (s : State) : State :=
  let m := s.curMap c
  let qs := (s.ctx c).queues
  let s := each (listsOf m.streams m.blocks) (fun l s => s.placeList l.1 l.2) s
  let s := each (qs.zip m.streams) (fun p s => s.easelLines (s.queue p.1).bank.toNat (s.queue p.1).line.toNat (lineBytes p.2)) s
  match qs.head? with
  | some q => s.easelLines (s.queue q).bank.toNat ((s.queue q).line.toNat + 1) ((m.streams.drop qs.length).flatMap lineBytes)
  | none => s

/-- Every name of a bank moves to another bank: dispatch entries, streams, pool, records, ranges of other units (R612). -/
def State.renameBank (old new : Nat) (s : State) : State :=
  let to1 (b : Nat) : Nat := if b = old then new else b
  let s := s.rebank old new
  let s := s.onEveryCtx (fun _ x => { x with maps := { x.maps with
    a := x.maps.a.map (CMap.streamBank old new), b := x.maps.b.map (CMap.streamBank old new), old := x.maps.old.map (CMap.streamBank old new) } })
  let s := s.onSw (fun w => { w with
    pool := (w.pool.map to1).mergeSort (· ≤ ·), leaving := w.leaving.map to1, records := w.records.map (fun p => (p.1, to1 p.2))
    table := (w.table.filter (fun p => !(!p.2.t2 && p.2.bank == old && p.2.st == .resident && !p.2.homeEnt))).map (fun p =>
      (p.1, if !p.2.t2 && p.2.bank == old then { p.2 with bank := new } else p.2)) })
  let s := s.onChest (fun k => { k with banks := k.banks.map to1 })
  let s := s.onMover (fun v => { v with
    descBank := v.descBank.map to1
    queues := v.queues.map (fun q => (q.1, if q.2.bank.toNat = old then { q.2 with bank := BitVec.ofNat 8 new } else q.2)) })
  each s.boundIds State.rewriteStreams s

/-- BANK_REPLACE (R612): a fenced bank's owner receives a free bank of the same mode; without one its copies and pool place go. -/
def State.replaceBank (b : Nat) (s : State) : State :=
  let k := s.bank b
  let new := (s.freeBanks (k.ctl.pin || careful k.ctl.mode)).head?
  let s := s.onBank b (fun x => { x with owner := 0 })
  match new with
  | none => s.onSw (fun w => { w with
      pool := w.pool.filter (· != b), leaving := w.leaving.filter (· != b)
      table := w.table.filter (fun p => !(!p.2.t2 && p.2.bank == b && p.2.st == .resident && !p.2.homeEnt)) })
  | some n =>
    let c : BankCtl := { k.ctl with state := 2 }
    (s.onBank n (fun x => { x with
      owner := k.owner, set := k.set, shadow := c, ctl := c, convWait := none, conv := none, clear := true, lines := [] })).renameBank b n

/-- Banks that were fenced and still have an owner. -/
def State.fencedOwned (s : State) : List Nat := (s.pal.banks.filter (fun p => p.2.fenced && p.2.owner != 0)).map (·.1)

/-- Copies n lines of a bank to a place in another one. -/
def State.copyLines (b l b2 l2 n : Nat) (s : State) : State :=
  s.easelLines b2 l2 ((List.range n).flatMap (fun i =>
    lineBytes (((s.bank b).line (l + i)).read (careful (s.bank b).ctl.mode)).1))

/-- QUEUE_MOVE (R613) of one fenced queue. -/
def State.moveQueue (q : Nat) (s : State) : State :=
  let x := s.queue q
  let s := s.onQueue q (fun y => { y with moved := true })
  if q < 4 then
    match (List.range 4).find? (fun r => !(s.queue r).fenced) with
    | some r => (s.onQueue r (fun y => { y with jobs := y.jobs ++ x.jobs })).onQueue q (fun y => { y with jobs := [] })
    | none => s
  else if q < 8 then s
  else
    match x.owner with
    | none => s
    | some c =>
      let s := (s.cancelQueue q).onQueue q (fun y => { y with owner := none, run := none, cancelling := false, slot := none, surplus := [], jobs := [] })
      match s.freeQueues.head? with
      | some n =>
        let s := (s.onQueue n (fun y => { y with
          owner := some c, bank := x.bank, line := x.line, log2 := x.log2, shadow := x.shadow, eff := x.eff, extra := x.extra, slot := x.slot
          moved := false })).onCtx c (fun y => { y with queues := y.queues.map (fun i => if i = q then n else i) })
        if x.slot.isSome then s.nextRun n else s
      | none =>
        let s := s.onCtx c (fun y => { y with queues := y.queues.filter (· != q) })
        match (s.ctx c).queues.find? (fun i => !(s.queue i).fenced) with
        | some n =>
          let y := s.queue n
          (s.copyLines x.bank.toNat x.line.toNat y.bank.toNat (y.line.toNat + 1 + y.extra) (1 + x.extra)).onQueue n (fun y =>
            { y with extra := y.extra + 1 + x.extra })
        | none => s

/-- Fenced engines leave every engine set (R611). -/
def State.trimEsets (s : State) : State :=
  let bad : BitVec 16 := BitVec.ofNat 16 (sumN ((below 16 (fun e => (s.eng e).fenced)).map (2 ^ ·)))
  if bad = 0 then s
  else
    let cut (m : CMap) : CMap := { m with llayers := m.llayers.map (fun l => { l with eset := l.eset &&& ~~~bad }) }
    s.onEveryCtx (fun _ x => { x with maps := { x.maps with a := x.maps.a.map cut, b := x.maps.b.map cut, old := x.maps.old.map cut } })

/-- A context passes to its fallback in the tick that begins (R611, R612, R621, R599): its map names a fenced bank, or one whose entries
are being reinstalled, a coded tensor while Glaze is fenced, a channel to a fenced worker, or a layer whose engine set is empty. -/
def State.wholeTickLost (s : State) (c : Nat) : Bool :=
  let m := s.curMap c
  let far := (s.fab.chans.filter (fun p => p.2.getLsbD 31 && s.gone (bits p.2.toNat 12 8))).map (·.1)
  m.banks.any (fun b => (s.bank b).fenced) || (m.pieces.map (·.1)).any s.easel.reinstall.contains ||
    (s.glaze.fenced && m.glaze.any (·.1)) ||
    m.streams.any (fun d => hdrBits d 53 53 == 1 && far.contains (hdrBits d 52 45)) || m.llayers.any (fun l => l.eset == 0)

end Sys2Proof.Machine
end

