-- ==== Sys2Proof/Machine/Edge.lean ====
section
/-! DEFINITION. REGISTERED_EDGE and SLICE_BOUNDARY (R24, R30, R39, R47, R57, R61, R141, R361, R370 to R372, R518, R561, R583, R669). -/

namespace Sys2Proof.Machine

/-- Settings latched for the edge (R146, R296, R449, R713, R714). -/
def State.takeSettings (s : State) : State :=
  let s := s.onPrimer (fun p => { p with eff := p.latched.getD p.eff, latched := none })
  let s := s.onGlaze (fun g => { g with eff := g.latched.getD g.eff, latched := none })
  s.onMover (fun m => { m with queues := m.queues.map (fun q => (q.1, { q.2 with eff := q.2.latched.getD q.2.eff, latched := none })) })

/-- Counts that units keep per tick start again (R128, R200, R319, R516, R608). -/
def State.tickResets (s : State) : State :=
  let n := s.tick.count
  let s := s.onPanels (fun u => { u with groups := u.groups.map (fun g => (g.1, { g.2 with residue := 0, probes := 0 })) })
  let s := s.onLiner (fun u => { u with engs := u.engs.map (fun e => (e.1, { e.2 with bad := [] })) })
  let s := s.onPal (fun p => { p with banks := p.banks.map (fun b => (b.1, { b.2 with lost := [], bad := [] })) })
  s.onEveryCtx (fun _ x => { x with
    handed := 0, missed := false, dNow := min x.bind.d (s.tick.slices - 1), runs := x.runs.filter (fun r => r.1 == n || r.1 == n + 1) })

/-- Vectors in flight on a panel that serves no longer are discarded (R79, R110): they are struck again on the route of the new tick. -/
def State.dropLost (s : State) : State :=
  s.onPanels (fun u => { u with groups := u.groups.map (fun p => (p.1, { p.2 with vecs := p.2.vecs.filter (fun v =>
    let m := s.mapFor v.ctx v.work
    (if v.twin then m.twinOf v.layer v.replica else m.replica v.layer v.replica).all s.segServes) })) })

/-- Refinement loops start again with the tick's frame (R218); a BESTEFFORT frame that carries over goes on. -/
def State.loopResets (s : State) : State :=
  let n := s.tick.count
  s.onEveryCtx (fun c x =>
    if x.bind.realtime || (s.tasksOf c).all (fun t => t.tick == n || t.tick == n + 1) then { x with loopRun := [], loopEnds := [] } else x)

/-- Token reload (R39, R72, R641): every context without a fence holds its table's tokens, BESTEFFORT ones scaled, and no other holds any. -/
def State.reloadTokens (s : State) : State :=
  s.onEveryCtx (fun _ x => { x with tok :=
    if x.st == .bound && x.bindLive && !x.fence then
      (if x.bind.realtime then x.bind.budget else x.bind.budget.scale (16 * s.pmu.scale.toNat))
    else {} })

/-- Parts of frames whose last part has not been taken belong to the next tick (R515). -/
def State.carryParts (s : State) : State :=
  s.onEasel (fun e => { e with tasks := e.tasks.map (fun t =>
    if !t.last && !e.tasks.any (fun u => t.partOf u) then { t with tick := s.tick.count + 1 } else t) })

/-- Everything that the edge makes take effect for the tick that begins, in the units and in Easel. -/
def State.edgeEffects (s : State) : State :=
  let n := s.tick.count
  let s := s.takeSettings.takeMarks
  let s := each s.ctxIds State.retouchEdge s
  let s := s.ppinClear.unpoison.liftFences
  let s := each s.ctxIds State.closeRelease s
  let s := each s.ctxIds State.releaseMap s
  let s := s.servePanels.adopt
  let first := s.ctxIds.filter (fun c => (s.ctx c).st == .bound && (s.ctx c).next.isSome && (s.ctx c).firstBind)
  let s := s.onEveryCtx (fun _ x => x.takeBind)
  let moving := s.ctxIds.filter s.switchDue
  let s := each moving (State.movePointer (fun t => t.tick != n && t.tick != n + 1)) s
  let s := each (List.range 32) State.spareTakeover s
  let s := (each s.fencedOwned State.replaceBank s).settle
  let s := each ((s.mover.queues.filter (fun q => q.2.fenced && !q.2.moved)).map (·.1)) State.moveQueue s
  let s := s.trimEsets.edgePrograms
  let s := s.tickResets.loopResets
  let s := (each s.boundIds State.fixRoutes s).dropLost
  let s := handTogether (fun s => each s.boundIds (fun c s => if s.wholeTickLost c then s.handTick c 7 else s) s.poisonHandover) s.reloadTokens
  let s := each (s.easel.tasks.filter (fun t => t.tick == n && (s.ctx t.ctx).fence)) State.abortTask s
  let s := s.carryParts.onBoot (fun b => { b with switch := false, left := if b.trial && b.left != 0 then b.left - 1 else b.left })
  let s := each (first ++ moving) (fun c s => each (s.ctx c).queues (fun q s => s.armQueue q 0) s) s
  s.wakeRecord.bcastGo

/-- The tick begins; answers of the mailbox that the edge has completed are posted (R478). -/
def State.beginTick (s : State) : State := s.edgeEffects.flushUrgent

/-- TICK_FWD is pulsed (R583): pins count pulses. -/
def State.forwardTick (s : State) : State :=
  onlyIf (s.manager && s.fab.tfwd) (State.onPins (fun p => { p with tickFwd := p.tickFwd + 1 })) s

/-- An edge that begins a tick. In HOLD and under a whole-stack fence only the Tick unit follows it (R616, R625). -/
def State.edge (e : SyncEvent) (draw : Half) (same : List Nat) (s : State) : State :=
  if s.serving then (((s.endTick draw same).onTick (TickUnit.accept e)).forwardTick).beginTick
  else (s.onTick (TickUnit.accept e)).forwardTick

/-- REGISTERED_EDGE (R24): the oldest event in the synchroniser is registered; `draw` is the mean draw of the ended tick in 10 mW, `same` the contexts
that handed over in the cycle of the edge (R68). -/
def execRegisteredEdge (draw : Half) (same : List Nat) (s : State) : Host.Outcome State Fault Refusal :=
  .next (onlyIf s.ticking (fun s => match s.tick.sync with
    | [] => s
    | e :: rest =>
      let s := s.onTick (fun k => { k with sync := rest })
      match s.tick.judge e with
      | .realigns => s.onTick (TickUnit.realignTo e)
      | .ignored => s.onTick TickUnit.ignore
      | .begins => s.edge e draw same) s)

/-- The context's work of the slice that begins at the boundary has not begun; every other task of the tick, and of earlier ones, has. -/
def State.sliceBegun (s : State) (t : Task) : Bool :=
  t.tick != s.tick.count + 1 && (t.tick != s.tick.count || t.frameCmd || decide (t.part < s.tick.sliceNow.toNat))

/-- SLICE_BOUNDARY (R30, R561): the next slice of the grid begins; switches by slice take effect. -/
def execSliceBoundary (s : State) : Host.Outcome State Fault Refusal :=
  .next (onlyIf (s.ticking && s.tick.begun && decide (s.tick.sliceNow.toNat + 1 < s.tick.slices)) (fun s =>
    let s := s.onTick (fun k => { k with sliceNow := k.sliceNow + 1 })
    onlyIf s.serving (fun s =>
      let moving := s.ctxIds.filter (fun c => s.switchDue c && s.sliceSwitch c)
      let s := each moving (fun c s => s.movePointer s.sliceBegun c) s
      each moving (fun c s => each (s.ctx c).queues (fun q s => s.armQueue q 0) s) s) s) s)

end Sys2Proof.Machine
end

