-- ==== Sys2Proof/Machine/Posting.lean ====
section
/-! DEFINITION. Completions and event records that waited for room (R472, R528). -/

namespace Sys2Proof.Machine

/-- Removes the first waiting completion of a ring. -/
def dropFirst (r : Nat) : List Waiting → List Waiting
  | [] => []
  | w :: ws => if w.ring = r then ws else w :: dropFirst r ws

/-- COMPLETION_POST (R472): the oldest completion that waits for the ring is written once the ring has room for it; under
a whole-stack fence only one of DIAG or ATTEST is (R616). -/
def execCompletionPost (ring : Nat) (s : State) : Host.Outcome State Fault Refusal :=
  .next (match s.easel.waiting.find? (fun w => w.ring == ring) with
    | none => s
    | some w => onlyIf (s.up && s.canPost ring (1 + (pieces 64 w.payload).length) &&
        (!s.easel.wholeFence || underFence (hdrBits w.slot 135 128)))
        (fun s => (s.onEasel (fun e => { e with waiting := dropFirst ring e.waiting })).postRing ring w.slot w.payload
          (.completion (hdrBits w.slot 159 150)) (cqBit (s.ring ring))) s)

/-- EVENT_RECORD_POST (R528): the oldest record held is posted once its ring is enabled with room. -/
def execEventRecordPost (s : State) : Host.Outcome State Fault Refusal :=
  .next (match s.easel.records with
    | [] => s
    | w :: rest => onlyIf (s.up && s.canPost w.ring 1)
        (fun s => (s.onEasel (fun e => { e with records := rest })).postRing w.ring w.slot []
          (.completion (hdrBits w.slot 159 150)) (4 ||| cqBit (s.ring w.ring))) s)

end Sys2Proof.Machine
end

