-- ==== Sys2Proof/Machine/Dispatch.lean ====
section
/-! DEFINITION. One arm per row of the table: a direct call of its meaning. -/

namespace Sys2Proof.Machine

def exec (i : Instr) (s : State) : Host.Outcome State Fault Refusal :=
  match i with
  | .tickBumpEdge t wide => Sys2Proof.Machine.execTickBumpEdge t wide s
  | .tick hl t => Sys2Proof.Machine.execTick hl t s
  | .internalTimer => Sys2Proof.Machine.execInternalTimer s
  | .synthesisedEdge => Sys2Proof.Machine.execSynthesisedEdge s
  | .registeredEdge draw same => Sys2Proof.Machine.execRegisteredEdge draw same s
  | .sliceBoundary => Sys2Proof.Machine.execSliceBoundary s
  | .creditWaitExpiry unit ctx waited => Sys2Proof.Machine.execCreditWaitExpiry unit ctx waited s
  | .creditReturn ctx pair => Sys2Proof.Machine.execCreditReturn ctx pair s
  | .strikeIssue group cands residueBad cut => Sys2Proof.Machine.execStrikeIssue group cands residueBad cut s
  | .probeStrike group cands reads => Sys2Proof.Machine.execProbeStrike group cands reads s
  | .tileStart eng cands => Sys2Proof.Machine.execTileStart eng cands s
  | .tileEnd eng wait upset => Sys2Proof.Machine.execTileEnd eng wait upset s
  | .swwaitExpiry eng ctx arrived => Sys2Proof.Machine.execSwwaitExpiry eng ctx arrived s
  | .retouchStepDone ctx inp => Sys2Proof.Machine.execRetouchStepDone ctx inp s
  | .warpJob ctx work inp => Sys2Proof.Machine.execWarpJob ctx work inp s
  | .sourceLineFill line cycles => Sys2Proof.Machine.execSourceLineFill line cycles s
  | .payloadUnpack ctx frame slice width height dst acts => Sys2Proof.Machine.execPayloadUnpack ctx frame slice width height dst acts s
  | .pack ctx frame slice line0 lines before after out acts count => Sys2Proof.Machine.execPack ctx frame slice line0 lines before after out acts count s
  | .classicalBlock line0 lines sizes => Sys2Proof.Machine.execClassicalBlock line0 lines sizes s
  | .completionPost ring => Sys2Proof.Machine.execCompletionPost ring s
  | .eventRecordPost => Sys2Proof.Machine.execEventRecordPost s
  | .compressBlock lane => Sys2Proof.Machine.execCompressBlock lane s
  | .expandBlock lane => Sys2Proof.Machine.execExpandBlock lane s
  | .palAccess bank reqs => Sys2Proof.Machine.execPalAccess bank reqs s
  | .palBankOwner writer bank value => Sys2Proof.Machine.execPalBankOwner writer bank value s
  | .bankHandoverDone bank => Sys2Proof.Machine.execBankHandoverDone bank s
  | .palCommit => Sys2Proof.Machine.execPalCommit s
  | .bankClearDone bank => Sys2Proof.Machine.execBankClearDone bank s
  | .conversionDone bank => Sys2Proof.Machine.execConversionDone bank s
  | .testerChunk recent fail => Sys2Proof.Machine.execTesterChunk recent fail s
  | .rawWrite => Sys2Proof.Machine.execRawWrite s
  | .rawRead => Sys2Proof.Machine.execRawRead s
  | .winCommit => Sys2Proof.Machine.execWinCommit s
  | .winBusyExpiry => Sys2Proof.Machine.execWinBusyExpiry s
  | .swatchAccess requester ctx obj off op bufHit => Sys2Proof.Machine.execSwatchAccess requester ctx obj off op bufHit s
  | .moveStart => Sys2Proof.Machine.execMoveStart s
  | .fillDone obj idx good data => Sys2Proof.Machine.execFillDone obj idx good data s
  | .writebackDone obj idx => Sys2Proof.Machine.execWritebackDone obj idx s
  | .readTimeout obj idx => Sys2Proof.Machine.execReadTimeout obj idx s
  | .refetchDone obj idx good data => Sys2Proof.Machine.execRefetchDone obj idx good data s
  | .chestRead addr sys find => Sys2Proof.Machine.execChestRead addr sys find s
  | .chestWrite addr sys data ctx => Sys2Proof.Machine.execChestWrite addr sys data ctx s
  | .chestWriteDone quad blockSet page failed => Sys2Proof.Machine.execChestWriteDone quad blockSet page failed s
  | .relocation blockSet finds => Sys2Proof.Machine.execRelocation blockSet finds s
  | .refreshScan find => Sys2Proof.Machine.execRefreshScan find s
  | .xipFetch addr lat busy => Sys2Proof.Machine.execXipFetch addr lat busy s
  | .suspendedResume plane => Sys2Proof.Machine.execSuspendedResume plane s
  | .read find => Sys2Proof.Machine.execRead find s
  | .readRaw => Sys2Proof.Machine.execReadRaw s
  | .program verified => Sys2Proof.Machine.execProgram verified s
  | .erase verified => Sys2Proof.Machine.execErase verified s
  | .blankCheck programmedBits => Sys2Proof.Machine.execBlankCheck programmedBits s
  | .chsCommit => Sys2Proof.Machine.execChsCommit s
  | .transferIssue queue cycles => Sys2Proof.Machine.execTransferIssue queue cycles s
  | .transferRetire queue id fault => Sys2Proof.Machine.execTransferRetire queue id fault s
  | .arm queue desc => Sys2Proof.Machine.execArm queue desc s
  | .cancel queue => Sys2Proof.Machine.execCancel queue s
  | .cancelComplete queue => Sys2Proof.Machine.execCancelComplete queue s
  | .movSemSig value => Sys2Proof.Machine.execMovSemSig value s
  | .movCommit => Sys2Proof.Machine.execMovCommit s
  | .resetNDeassert strap vddq => Sys2Proof.Machine.execResetNDeassert strap vddq s
  | .moduleActive m rate => Sys2Proof.Machine.execModuleActive m rate s
  | .trainingTimeout m => Sys2Proof.Machine.execTrainingTimeout m s
  | .trainingRetry m => Sys2Proof.Machine.execTrainingRetry m s
  | .linkManagementRequest hl => Sys2Proof.Machine.execLinkManagementRequest hl s
  | .vddqLoss m => Sys2Proof.Machine.execVddqLoss m s
  | .mrdc rx id data => Sys2Proof.Machine.execMrdc rx id data s
  | .cwr rx off data resp portB => Sys2Proof.Machine.execCwr rx off data resp portB s
  | .crd rx off len portB => Sys2Proof.Machine.execCrd rx off len portB s
  | .ack link good seq credit => Sys2Proof.Machine.execAck link good seq credit s
  | .nak link good seq => Sys2Proof.Machine.execNak link good seq s
  | .replayTimeout link seq => Sys2Proof.Machine.execReplayTimeout link seq s
  | .linkDownTimeout => Sys2Proof.Machine.execLinkDownTimeout s
  | .linkLossTimeout => Sys2Proof.Machine.execLinkLossTimeout s
  | .produce ring index => Sys2Proof.Machine.execProduce ring index s
  | .consume ring index => Sys2Proof.Machine.execConsume ring index s
  | .enable ring => Sys2Proof.Machine.execEnable ring s
  | .disable ring => Sys2Proof.Machine.execDisable ring s
  | .hlkUrgDb mask => Sys2Proof.Machine.execHlkUrgDb mask s
  | .hlkCommit => Sys2Proof.Machine.execHlkCommit s
  | .unsupported p => Sys2Proof.Machine.execUnsupported p s
  | .ctxOpen p => Sys2Proof.Machine.execCtxOpen p s
  | .ctxBind p => Sys2Proof.Machine.execCtxBind p s
  | .ctxClose p => Sys2Proof.Machine.execCtxClose p s
  | .objDefine p => Sys2Proof.Machine.execObjDefine p s
  | .objDefineUndef p => Sys2Proof.Machine.execObjDefineUndef p s
  | .objWrite p remote => Sys2Proof.Machine.execObjWrite p remote s
  | .objRead p remote => Sys2Proof.Machine.execObjRead p remote s
  | .objPlace p => Sys2Proof.Machine.execObjPlace p s
  | .modelStage p remote => Sys2Proof.Machine.execModelStage p remote s
  | .modelSwitch p => Sys2Proof.Machine.execModelSwitch p s
  | .panelProgram p => Sys2Proof.Machine.execPanelProgram p s
  | .panelReprime p => Sys2Proof.Machine.execPanelReprime p s
  | .programStart group fetched next => Sys2Proof.Machine.execProgramStart group fetched next s
  | .programComplete group good pulses time refs => Sys2Proof.Machine.execProgramComplete group good pulses time refs s
  | .runSlice p blocks => Sys2Proof.Machine.execRunSlice p blocks s
  | .runFrame p blocks => Sys2Proof.Machine.execRunFrame p blocks s
  | .abort p urgent => Sys2Proof.Machine.execAbort p urgent s
  | .abortCompletion ctx => Sys2Proof.Machine.execAbortCompletion ctx s
  | .tickConfig p => Sys2Proof.Machine.execTickConfig p s
  | .tckCommit => Sys2Proof.Machine.execTckCommit s
  | .calControlSet p => Sys2Proof.Machine.execCalControlSet p s
  | .calControlMark p => Sys2Proof.Machine.execCalControlMark p s
  | .calControlClear p => Sys2Proof.Machine.execCalControlClear p s
  | .prmCommit => Sys2Proof.Machine.execPrmCommit s
  | .retouch p => Sys2Proof.Machine.execRetouch p s
  | .fabJoin p => Sys2Proof.Machine.execFabJoin p s
  | .fabBroadcast p remote => Sys2Proof.Machine.execFabBroadcast p remote s
  | .powerActive p => Sys2Proof.Machine.execPowerActive p s
  | .powerHold p => Sys2Proof.Machine.execPowerHold p s
  | .powerDoze p => Sys2Proof.Machine.execPowerDoze p s
  | .powerRest p => Sys2Proof.Machine.execPowerRest p s
  | .powerOff p => Sys2Proof.Machine.execPowerOff p s
  | .fwStage p => Sys2Proof.Machine.execFwStage p s
  | .fwActivate p verified => Sys2Proof.Machine.execFwActivate p verified s
  | .fwSwap loadOk => Sys2Proof.Machine.execFwSwap loadOk s
  | .selfTestDone passed => Sys2Proof.Machine.execSelfTestDone passed s
  | .confirmWindowExpiry => Sys2Proof.Machine.execConfirmWindowExpiry s
  | .clamps p => Sys2Proof.Machine.execClamps p s
  | .palCheck p => Sys2Proof.Machine.execPalCheck p s
  | .winCheck p collided => Sys2Proof.Machine.execWinCheck p collided s
  | .service p => Sys2Proof.Machine.execService p s
  | .chestRaw p find verified => Sys2Proof.Machine.execChestRaw p find verified s
  | .swatch p => Sys2Proof.Machine.execSwatch p s
  | .sem p => Sys2Proof.Machine.execSem p s
  | .events p => Sys2Proof.Machine.execEvents p s
  | .attest p => Sys2Proof.Machine.execAttest p s
  | .keyExpansionDone => Sys2Proof.Machine.execKeyExpansionDone s
  | .slotDigestDone => Sys2Proof.Machine.execSlotDigestDone s
  | .enum w => Sys2Proof.Machine.execEnum w s
  | .enumReply w => Sys2Proof.Machine.execEnumReply w s
  | .enumTimeout port => Sys2Proof.Machine.execEnumTimeout port s
  | .cmd w => Sys2Proof.Machine.execCmd w s
  | .cpl w => Sys2Proof.Machine.execCpl w s
  | .rmt w => Sys2Proof.Machine.execRmt w s
  | .rmtReply w => Sys2Proof.Machine.execRmtReply w s
  | .remoteRead => Sys2Proof.Machine.execRemoteRead s
  | .remoteWrite => Sys2Proof.Machine.execRemoteWrite s
  | .bcastStart w => Sys2Proof.Machine.execBcastStart w s
  | .bcastStartTimeout d => Sys2Proof.Machine.execBcastStartTimeout d s
  | .shard w => Sys2Proof.Machine.execShard w s
  | .shardAck w => Sys2Proof.Machine.execShardAck w s
  | .shardNack w => Sys2Proof.Machine.execShardNack w s
  | .shardTimeout sno => Sys2Proof.Machine.execShardTimeout sno s
  | .bcastEnd w => Sys2Proof.Machine.execBcastEnd w s
  | .bcastFail w sno => Sys2Proof.Machine.execBcastFail w sno s
  | .entry w => Sys2Proof.Machine.execEntry w s
  | .entryCredit w => Sys2Proof.Machine.execEntryCredit w s
  | .glzAck w => Sys2Proof.Machine.execGlzAck w s
  | .glzResend w => Sys2Proof.Machine.execGlzResend w s
  | .tierRd w => Sys2Proof.Machine.execTierRd w s
  | .tierRdc w obj idx => Sys2Proof.Machine.execTierRdc w obj idx s
  | .tierWr w => Sys2Proof.Machine.execTierWr w s
  | .tierWrack w obj idx => Sys2Proof.Machine.execTierWrack w obj idx s
  | .lendBankReturn bank => Sys2Proof.Machine.execLendBankReturn bank s
  | .fabCommit => Sys2Proof.Machine.execFabCommit s
  | .fabRoute d value => Sys2Proof.Machine.execFabRoute d value s
  | .heartbeat w => Sys2Proof.Machine.execHeartbeat w s
  | .heartbeatSend => Sys2Proof.Machine.execHeartbeatSend s
  | .heartbeatLoss d => Sys2Proof.Machine.execHeartbeatLoss d s
  | .hopDownTimeout port pos => Sys2Proof.Machine.execHopDownTimeout port pos s
  | .helperWatchdog unit index => Sys2Proof.Machine.execHelperWatchdog unit index s
  | .dispatchReinstallDone bank => Sys2Proof.Machine.execDispatchReinstallDone bank s
  | .sensorSample tj => Sys2Proof.Machine.execSensorSample tj s
  | .refclkLoss => Sys2Proof.Machine.execRefclkLoss s
  | .coldReset rstAsserted pwrGood => Sys2Proof.Machine.execColdReset rstAsserted pwrGood s
  | .start inp => Sys2Proof.Machine.execStart inp s
  | .recoveryGo verified => Sys2Proof.Machine.execRecoveryGo verified s
  | .watchdogExpiry => Sys2Proof.Machine.execWatchdogExpiry s
  | .easWdog value => Sys2Proof.Machine.execEasWdog value s
  | .wakeBump level cycles short coreLow => Sys2Proof.Machine.execWakeBump level cycles short coreLow s
  | .wake hl byte1 cycles coreLow => Sys2Proof.Machine.execWake hl byte1 cycles coreLow s
  | .wakeTimer us coreLow => Sys2Proof.Machine.execWakeTimer us coreLow s
  | .easelResume loadOk => Sys2Proof.Machine.execEaselResume loadOk s
  | .allowanceGain => Sys2Proof.Machine.execAllowanceGain s
  | .trimSave => Sys2Proof.Machine.execTrimSave s
  | .glzCommit => Sys2Proof.Machine.execGlzCommit s
  | .migCommit => Sys2Proof.Machine.execMigCommit s
  | .registerWrite a off v => Sys2Proof.Machine.execRegisterWrite a off v s
  | .loadPhaseComplete eng wait upset => Sys2Proof.Machine.execLoadPhaseComplete eng wait upset s
  | .blockEraseDone blockSet failed => Sys2Proof.Machine.execBlockEraseDone blockSet failed s
  | .vddqReturn m => Sys2Proof.Machine.execVddqReturn m s
  | .sidebandMessageIgnored hl vendor code => Sys2Proof.Machine.execSidebandMessageIgnored hl vendor code s
  | .undefinedKindFrame w kind vc => Sys2Proof.Machine.execUndefinedKindFrame w kind vc s
  | .flWpNChange asserted => Sys2Proof.Machine.execFlWpNChange asserted s
  | .jtagTckEdge tms tdi => Sys2Proof.Machine.execJtagTckEdge tms tdi s
  | .trstNAssert => Sys2Proof.Machine.execTrstNAssert s
  | .diagUndefinedFunc p => Sys2Proof.Machine.execDiagUndefinedFunc p s
  | .poweredHour => Sys2Proof.Machine.execPoweredHour s

end Sys2Proof.Machine
end

