-- ==== Sys2Proof/Safety.lean ====
section
/-! DEFINITION. What counts as a safe state: the tables keep their canonical form, the numbers the spec bounds stay within bounds, and
what serves can serve. Statements are made in these terms. -/

namespace Sys2Proof.Safety

open Sys2Proof.Machine

/-- What few rows touch: the queue, the Window's words, the Plan chest's flash and the debug registers with the test port. -/
def still (s : State) : List Instr × SMap WWord × Flash × Debug := (s.pending, s.win.words, s.chest.flash, s.dbg)

/-- A property of the state that an outcome leaves, where it is a next state. -/
def ends (o : Host.Outcome State Fault Refusal) (P : State → Prop) : Prop := ∀ t, o = .next t → P t

/-- A byte memory is in canonical form: keys rise and no listed byte is 0, what an unlisted one reads as. -/
def ByteMem (m : SMap Byte) : Prop := memWf 0 m = true

/-- The memories of the Plan chest are in canonical form: its two spaces and the two firmware slots. -/
def FlashMem (f : Flash) : Prop := ByteMem f.user ∧ ByteMem f.sys ∧ ByteMem f.slotA ∧ ByteMem f.slotB

/-- The memories of the block are in canonical form: the Window's words and those of the Plan chest. -/
def MemInv (s : State) : Prop := memWf ({} : WWord) s.win.words = true ∧ FlashMem s.chest.flash

/-- The test port is consistent (R711): the bumps are driven from the scan chain only under an instruction that says so, and
Test-Logic-Reset has no other instruction than IDCODE in force. -/
def PortOk (d : Debug) : Prop :=
  d.bscan = (match d.ir with | some c => Config.tapScan c | none => false) ∧ (d.tap = 15 → d.ir = none)

/-- The test port of the state is consistent. -/
def PortInv (s : State) : Prop := PortOk s.dbg

/-- A command row meets its command: the packet is the header that Easel takes next and is of the kind given (R481); no whole-stack fence
stands, and the ring is not routed to a worker. -/
def Taken (s : State) (p : Packet) (ok : Line → Bool) : Prop :=
  (∃ h, s.nextHeader = some h ∧ h.ring = p.ring ∧ h.hdr = p.hdr) ∧ ok p.hdr = true ∧ s.easel.wholeFence = false ∧
    s.workerOf p.ring = none

/-- A Weave frame arrives at this stack (R571 to R574): its link carries, the Fabric unit serves, the frame passes its check and is not
handed on; `u` is the state once it is acknowledged and its lines have left the receive buffer. -/
def arrives (kind vc : Nat) (s : State) (w : Wrx) (u : State) : Prop :=
  s.carries (.fab w.port) = true ∧ s.fab.fenced = false ∧ w.stomp = false ∧
    (∃ v, s.checkFrame (.fab w.port) w.rx = (true, v) ∧ u = v.linesBack kind vc w) ∧ u.hopOut w = none ∧ (w.dst = u.addr ∨ w.dst = 31)

end Sys2Proof.Safety
end

