-- ==== Sys2Proof/Certificates/Slice0/Obligations.lean ====
section
/-! DEFINITION. The statements: what the commands and the block do, by the rules of the spec. Each says for states and operands that meet its
premises what exec or step answers; an equation with the next state is also the frame, since it names every part that changes. -/

open Sys2Proof Sys2Proof.Machine

/-- A step runs the command at the front of the queue (14_command_set.md, notes/assumptions/11.md). -/
def Obligations.StepRunsTheFront : Prop :=
  (∀ (c : Instr) (q : List Instr) (s : State), step { s with pending := c :: q } = exec c { s with pending := q }) ∧
    ∀ s : State, s.pending = [] → step s = .next s

/-- The state after reset has its memories in canonical form, a consistent test port and an empty queue (17_containment.md,
19_boot_firmware_security.md, 21_register_reference.md R711, notes/assumptions/11.md). -/
def Obligations.ResetIsGood : Prop :=
  Safety.MemInv State.reset ∧ Safety.PortInv State.reset ∧ State.reset.pending = []

/-- Every step keeps the memories in canonical form and the test port consistent (11_plan_chest.md R392, 09_palette_and_banks.md R327,
21_register_reference.md R711, 19_boot_firmware_security.md R679). -/
def Obligations.StepKeepsTheInvariant : Prop :=
  ∀ s t : State, Safety.MemInv s → Safety.PortInv s → step s = .next t → Safety.MemInv t ∧ Safety.PortInv t

/-- A step takes one command off the queue and no command puts one on it (14_command_set.md, notes/assumptions/11.md). -/
def Obligations.OnlyTheFrontLeavesTheQueue : Prop :=
  (∀ (c : Instr) (s t : State), exec c s = .next t → t.pending = s.pending) ∧
    ∀ (c : Instr) (q : List Instr) (s t : State), s.pending = c :: q → step s = .next t → t.pending = q

/-- Each tick source gives one event to the synchroniser, and a source that is not selected gives none (02_tick_and_budgets.md R23,
02_tick_and_budgets.md R24, 02_tick_and_budgets.md R32, 13_host_link.md R456). Points that the spec leaves open stand as the model
chose, logged in notes/assumptions/13.md. -/
def Obligations.TickSourcesGiveEdges : Prop :=
  (∀ (t : Nat) (wide : Bool) (s : State), s.ticking = true → s.tick.src = 0 →
      exec (.tickBumpEdge t wide) s = .next (
        if wide then s.syncEvent true t
        else let r := s.freeBit; onlyIf r.1 (State.syncEvent true t) r.2)) ∧
    (∀ (hl t : Nat) (s : State), hl = 0 → s.ticking = true → s.tick.src = 1 →
      exec (.tick hl t) s = .next (State.syncEvent true t s)) ∧
    (∀ (s : State), s.ticking = true → s.tick.src = 2 → s.tick.sync.isEmpty = true →
      exec .internalTimer s = .next (s.syncEvent true (s.tick.lastAcc + s.tick.eff.nomIn))) ∧
    (∀ (s : State), s.ticking = true → s.tick.src ≠ 2 → s.tick.sync.isEmpty = true →
      exec .synthesisedEdge s = .next (s.syncEvent false (s.tick.lastAcc + s.tick.deadline))) ∧
    (∀ (t : Nat) (s : State), s.ticking = true → s.tick.src = 0 →
      exec (.tickBumpEdge t true) s = .next (s.onTick (fun k => { k with sync := k.sync ++ [{ real := true, at_ := t }] }))) ∧
    (∀ (t : Nat) (w : Bool) (s : State), s.tick.src ≠ 0 → exec (.tickBumpEdge t w) s = .next s) ∧
    (∀ (t : Nat) (s : State), s.ticking = true → s.tick.src = 1 →
      exec (.tick 0 t) s = .next (s.onTick (fun k => { k with sync := k.sync ++ [{ real := true, at_ := t }] }))) ∧
    (∀ (t : Nat) (s : State), exec (.tick 1 t) s = .next s) ∧
    (∀ (h t : Nat) (s : State), s.tick.src ≠ 1 → exec (.tick h t) s = .next s) ∧
    (∀ s : State, s.ticking = true → s.tick.src = 2 → s.tick.sync = [] →
      exec .internalTimer s =
        .next (s.onTick (fun k => { k with sync := [{ real := true, at_ := s.tick.lastAcc + s.tick.eff.nomIn }] }))) ∧
    (∀ s : State, s.tick.src ≠ 2 → exec .internalTimer s = .next s) ∧
    ∀ s : State, s.ticking = true → s.tick.src ≠ 2 → s.tick.sync = [] →
      exec .synthesisedEdge s =
        .next (s.onTick (fun k => { k with sync := [{ real := false, at_ := s.tick.lastAcc + s.tick.deadline }] }))

/-- A pulse of less than 20 ns on the TICK bump is lost or registers once (R25). -/
def Obligations.ShortPulseIsLostOrRegistersOnce : Prop :=
  (∀ (t : Nat) (s : State), s.ticking = true → s.tick.src = 0 → ∃ u, exec (.tickBumpEdge t false) s = .next u ∧
      u = { s with freeCtr := s.freeCtr + 1, tick := u.tick } ∧
      (u.tick = s.tick ∨ u.tick = { s.tick with sync := s.tick.sync ++ [{ real := true, at_ := t }] })) ∧
    ∀ (t : Nat) (s : State), s.ticking = true → s.tick.src = 0 → ∃ u, exec (.tickBumpEdge t true) s = .next u ∧
      u = { s with tick := { s.tick with sync := s.tick.sync ++ [{ real := true, at_ := t }] } }

/-- A registered edge realigns, is ignored, or ends one tick and begins the next (02_tick_and_budgets.md R24, 02_tick_and_budgets.md
R27, 02_tick_and_budgets.md R31, 02_tick_and_budgets.md R33, 17_containment.md R616, 18_power_and_clocks.md R625). Points that the spec
leaves open stand as the model chose, logged in notes/assumptions/16.md, notes/assumptions/17.md and notes/assumptions/93.md. -/
def Obligations.RegisteredEdgeBeginsATick : Prop :=
  (∀ (d : Half) (c : List Nat) (s : State), s.tick.sync = [] → exec (.registeredEdge d c) s = .next s) ∧
    (∀ (d : Half) (c : List Nat) (e : SyncEvent) (rest : List SyncEvent) (s : State), s.ticking = true → s.tick.sync = e :: rest →
      exec (.registeredEdge d c) s = .next
        (let u := s.onTick (fun k => { k with sync := rest })
         match u.tick.judge e with
         | .realigns => u.onTick (TickUnit.realignTo e)
         | .ignored => u.onTick (fun k => { k with ignored := true, ignoredCnt := satInc k.ignoredCnt })
         | .begins =>
           if u.serving then (((u.endTick d c).onTick (TickUnit.accept e)).forwardTick).beginTick
           else (u.onTick (TickUnit.accept e)).forwardTick)) ∧
    (∀ (t : Nat) (e : SyncEvent) (k : TickUnit), k.lastSynth = some t → e.real = true → e.at_ ≤ t + k.meas.toNat / 8 → k.judge e = .realigns) ∧
    (∀ (e : SyncEvent) (k : TickUnit), e.real = true → (∀ t, k.lastSynth = some t → t + k.meas.toNat / 8 < e.at_) →
      k.judge e = if k.begun = true ∧ e.at_ < k.lastAcc + k.eff.minIn then .ignored else .begins) ∧
    (∀ (e : SyncEvent) (k : TickUnit), e.real = false → k.judge e = .begins) ∧
    (∀ (e : SyncEvent) (k : TickUnit), (k.realignTo e).realign = true ∧ (k.realignTo e).lastAcc = e.at_ ∧ (k.realignTo e).lastReal = some e.at_ ∧
      (k.realignTo e).count = k.count ∧
      (k.realignTo e).periods = match k.lastReal with | some t => keep4 (k.periods ++ [e.at_ - t]) | none => keep4 k.periods) ∧
    ∀ (e : SyncEvent) (k : TickUnit),
      (k.accept e).count = k.count + 1 ∧ (k.accept e).sliceNow = 0 ∧ (k.accept e).begun = true ∧ (k.accept e).lastAcc = e.at_

/-- A slice boundary advances the slice, up to the last of the tick (02_tick_and_budgets.md R30, 15_models_and_weights.md R561). -/
def Obligations.SliceBoundaryAdvances : Prop :=
  (∀ (s : State), s.ticking = true → s.tick.begun = true → s.tick.sliceNow.toNat + 1 < s.tick.slices →
      exec .sliceBoundary s = .next (
        let s := s.onTick (fun k => { k with sliceNow := k.sliceNow + 1 })
        onlyIf s.serving (fun s =>
          let moving := s.ctxIds.filter (fun c => s.switchDue c && s.sliceSwitch c)
          let s := each moving (fun c s => s.movePointer s.sliceBegun c) s
          each moving (fun c s => each (s.ctx c).queues (fun q s => s.armQueue q 0) s) s) s)) ∧
    (∀ s : State, s.ticking = true → s.tick.begun = true → s.tick.sliceNow.toNat + 1 < s.tick.slices →
      (∀ c ∈ s.ctxIds, ((s.onTick (fun k => { k with sliceNow := k.sliceNow + 1 })).switchDue c &&
        (s.onTick (fun k => { k with sliceNow := k.sliceNow + 1 })).sliceSwitch c) = false) →
      exec .sliceBoundary s = .next (s.onTick (fun k => { k with sliceNow := k.sliceNow + 1 }))) ∧
    ∀ s : State, s.tick.slices ≤ s.tick.sliceNow.toNat + 1 → exec .sliceBoundary s = .next s

/-- A returned credit is added up to the entries of its buffer, and from boundary D on a wait of W cycles hands a REALTIME context over
(02_tick_and_budgets.md R49, 06_liner_engines.md R207, 15_models_and_weights.md R537, 02_tick_and_budgets.md R60,
02_tick_and_budgets.md R67, 02_tick_and_budgets.md R68, 06_liner_engines.md R219). Points that the spec leaves open stand as the model
chose, logged in notes/assumptions/102.md. -/
def Obligations.CreditsReturnAndCreditWaitsHandOver : Prop :=
  (
  (∀ (c p n : Nat) (s : State), s.serving = true → (s.workMap c).entries p = some n → (s.ctx c).credits p + s.heldEntries c p < n →
      exec (.creditReturn c p) s = .next (s.onCtx c (fun x => { x with credit := modify 0 p (· + 1) x.credit }))) ∧
    (∀ (x : Ctx) (p : Nat), ({ x with credit := modify 0 p (· + 1) x.credit } : Ctx).credits p = x.credits p + 1) ∧
    (∀ (c p n : Nat) (s : State), (s.workMap c).entries p = some n → n ≤ (s.ctx c).credits p + s.heldEntries c p →
      exec (.creditReturn c p) s = .next s) ∧
    ∀ (c p : Nat) (s : State), (s.workMap c).entries p = none → exec (.creditReturn c p) s = .next s) ∧
  (
  (∀ (u c w : Nat) (s : State), s.serving = true → (s.ctx c).st = .bound → (s.ctx c).bindLive = true →
      (s.ctx c).bind.realtime = true → (s.ctx c).bind.w ≤ w → (s.ctx c).dNow ≤ s.tick.sliceNow.toNat → s.mayWait u c = true →
      exec (.creditWaitExpiry u c w) s = .next (match s.waitLoop u c with | some l => s.endLoop c l | none => s.handover c 2)) ∧
    (∀ (u c w : Nat) (s : State), s.tick.sliceNow.toNat < (s.ctx c).dNow → exec (.creditWaitExpiry u c w) s = .next s) ∧
    (∀ (u c w : Nat) (s : State), w < (s.ctx c).bind.w → exec (.creditWaitExpiry u c w) s = .next s) ∧
    (∀ (u c w : Nat) (s : State), (s.ctx c).bind.realtime = false → exec (.creditWaitExpiry u c w) s = .next s) ∧
    ∀ (u c w : Nat) (s : State), s.retouchOn u c = true → exec (.creditWaitExpiry u c w) s = .next s)

/-- A strike slot serves the one ready context: the strike, a handover for want of tokens, or the fallback route of a replica
(03_panels.md R87, 03_panels.md R92, 03_panels.md R107, 02_tick_and_budgets.md R40, 02_tick_and_budgets.md R59, 02_tick_and_budgets.md
R67, 02_tick_and_budgets.md R68, 04_live_calibration.md R137, 06_liner_engines.md R219). Points that the spec leaves open stand as the
model chose, logged in notes/assumptions/27.md, notes/assumptions/76.md and notes/assumptions/98.md. -/
def Obligations.StrikeGoesToTheChosenContext : Prop :=
  (∀ (group : Nat) (cands : List StrikeCand) (residueBad : Bool) (cut : Option Nat) (s : State), s.serving = true →
      exec (.strikeIssue group cands residueBad cut) s = .next (
        let cands := s.allCands group cands
        let s := each cands (State.skipEmpty group) (handTogether (fun s => each cands (State.routeOut group) s) s)
        let ks := s.claims group cands
        let real := (ks.filter (fun k => (s.ctx k.ctx).bind.realtime)).map (·.ctx)
        let best := (ks.filter (fun k => !(s.ctx k.ctx).bind.realtime)).map (·.ctx)
        match chooseCtx real best (s.group group).rrReal (s.group group).rrBest with
        | some c => match ks.find? (fun k => k.ctx == c) with
          | some k => s.strikeChosen group k residueBad cut
          | none => s
        | none => s)) ∧
    (∀ (g : Nat) (bad : Bool) (cut : Option Nat) (s : State), (s.group g).vecs = [] → exec (.strikeIssue g [] bad cut) s = .next s) ∧
    (∀ (g : Nat) (ks : List StrikeCand) (k : StrikeCand) (bad : Bool) (cut : Option Nat) (s : State), s.serving = true →
      s.allCands g ks = [k] → k.parts.filterMap (s.partFallback g k.ctx) = [] → 0 < s.candSubs g k →
      ((s.ctx k.ctx).bind.realtime = true ∨ s.candSubs g k ≤ (s.ctx k.ctx).strikeTok g) →
      exec (.strikeIssue g ks bad cut) s = .next
        (if (s.ctx k.ctx).strikeTok g < s.candSubs g k then
          (match s.optionalHits k.ctx (s.strikeOf g k) with
            | some l => s.endLoop k.ctx l
            | none => s.handover k.ctx 1)
        else if (s.strikeOf g k).all s.hitFits then
          s.issue g k.ctx (s.strikeOf g k) (s.candSubs g k) (min (s.candSubs g k) (cut.getD (s.candSubs g k))) bad
        else s)) ∧
    (∀ (g cause : Nat) (k : StrikeCand) (s : State), (k.parts.filterMap (s.partFallback g k.ctx)).min? = some cause →
      s.servable k.ctx = true → (s.ctx k.ctx).handed = 0 →
      s.routeOut g k = (s.onCtx k.ctx (fun x => { x with cnt := { x.cnt with fb := satAdd x.cnt.fb (s.leftRouted k) } })).handRoute k.ctx cause) ∧
    ∀ (g : Nat) (ks : List StrikeCand) (s : State) (v : Vec), v ∈ (s.group g).vecs → ∃ k ∈ s.allCands g ks, k.ctx = v.ctx

/-- At most PROBE_MAX probe slots per group per tick, and none in QUIET mode (R128). -/
def Obligations.ProbesStayWithinTheirMaximum : Prop :=
  (∀ (group : Nat) (cands : List StrikeCand) (reads : List ProbeRead) (s : State), s.serving = true → (s.group group).fenced = false → s.primer.running = true → s.primer.fenced = false → s.primer.eff.mode ≠ 2 → (s.group group).probes < s.primer.eff.probeMax.toNat → ((s.claims group (s.allCands group cands)).isEmpty) = true → ((s.probed group).all (fun p => reads.any (fun r => r.panel == p))) = true → (reads.all (fun r => !(s.probed group).contains r.panel || s.probeFits r)) = true →
      exec (.probeStrike group cands reads) s = .next (
        each ((s.probed group).filterMap (fun p => reads.find? (fun r => r.panel == p))) State.probePanel
          (s.onGroup group (fun g => { g with probes := g.probes + 1 })))) ∧
    (∀ (g : Nat) (ks : List StrikeCand) (rs : List ProbeRead) (s : State), s.serving = true → (s.group g).fenced = false →
      s.primer.running = true → s.primer.fenced = false → s.primer.eff.mode ≠ 2 →
      (s.group g).probes < s.primer.eff.probeMax.toNat → s.claims g (s.allCands g ks) = [] →
      (∀ p ∈ s.probed g, ∃ r ∈ rs, r.panel = p) → (∀ r ∈ rs, r.panel ∈ s.probed g → s.probeFits r = true) →
      exec (.probeStrike g ks rs) s = .next
        (each ((s.probed g).filterMap (fun p => rs.find? (fun r => r.panel == p)))
          State.probePanel (s.onGroup g (fun x => { x with probes := x.probes + 1 })))) ∧
    (∀ (g : Nat) (ks : List StrikeCand) (rs : List ProbeRead) (s : State), s.primer.eff.probeMax.toNat ≤ (s.group g).probes →
      exec (.probeStrike g ks rs) s = .next s) ∧
    (∀ (g : Nat) (ks : List StrikeCand) (rs : List ProbeRead) (s : State), s.primer.eff.mode = 2 → exec (.probeStrike g ks rs) s = .next s) ∧
    ∀ (s : State) (g : Nat), (s.tickResets.group g).probes = 0

/-- A tile starts when its engine is free and its cost is covered, loads, then computes, and frees the engine (06_liner_engines.md
R193, 06_liner_engines.md R194, 06_liner_engines.md R195, 06_liner_engines.md R196, 06_liner_engines.md R197, 06_liner_engines.md R198,
06_liner_engines.md R223, 02_tick_and_budgets.md R70). Points that the spec leaves open stand as the model chose, logged in
notes/assumptions/28.md, notes/assumptions/86.md and notes/assumptions/92.md. -/
def Obligations.TilesStartLoadAndCompute : Prop :=
  (∀ (eng : Nat) (cands : List TileCand) (s : State), s.serving = true → (s.eng eng).fenced = false → (s.eng eng).ready = true → (s.eng eng).tile.isNone = true →
      exec (.tileStart eng cands) s = .next (
        let ks := s.engTiles eng cands
        let now := ks.filter (fun k => !s.tileAbsent eng k && (s.tileReal k || decide (s.tileCost k ≤ (s.ctx k.ctx).cycleTok eng)))
        let t := s.waitTiles eng (ks.filter (s.tileAbsent eng))
        match s.pickTile eng now with
        | some k => t.serveTile eng k
        | none => t)) ∧
    (∀ (eng wait : Nat) (upset : Option (Nat × Line)) (t : Tile) (s : State), (s.eng eng).tile = some t →
      s.up = true → t.computing = true →
      exec (.tileEnd eng wait upset) s = .next (
        let m := s.mapFor t.ctx t.work
        let ran := m.tileCycles t.toTileCand + wait
        let u := (s.eng eng).upset upset
        let count (x : Engine) : Engine := { x with compCyc := x.compCyc + BitVec.ofNat 32 ran }
        match u.2 with
        | some l => (s.onEng eng (fun _ => count u.1)).lineCheck eng l t
        | none =>
          if !t.dead && !t.retouch && !s.partsHere t m then s.onEng eng (fun _ => { u.1 with phase := 3 })
          else
            let s := ((s.onEng eng (fun _ => count u.1)).chargeExcess eng t ran).idleEng eng
            onlyIf (!t.dead && !t.retouch) (State.tileResults eng t) s)) ∧
    (∀ (eng wait : Nat) (upset : Option (Nat × Line)) (t : Tile) (s : State), (s.eng eng).tile = some t →
      s.up = true → t.computing = false →
      exec (.loadPhaseComplete eng wait upset) s = .next (
        if t.dead then (s.countLoad eng (t.loadCycles wait)).idleEng eng
        else
          let d := s.readEach (0x50 + eng) t.ctx (t.loads.map (·.1))
          if d.2.1 then d.2.2.onEng eng (fun x => { x with phase := 3 })
          else
            let s := (d.2.2.loadLines eng t d.1).countLoad eng (t.loadCycles wait)
            let u := (s.eng eng).upset upset
            let s := s.onEng eng (fun _ => u.1)
            match u.2 with
            | some l => s.lineCheck eng l t
            | none => s.beginCompute eng (t.loadCycles wait) t)) ∧
    (∀ (e : Nat) (ks : List TileCand) (k : TileCand) (s : State), s.serving = true → (s.eng e).fenced = false → (s.eng e).ready = true →
      (s.eng e).tile = none → s.engTiles e ks = [k] → s.tileAbsent e k = false → s.tileReal k = true →
      exec (.tileStart e ks) s = .next
        (let u := s.waitTiles e []
         if (u.ctx k.ctx).cycleTok e < u.tileCost k then
           (match u.optionalWork k.ctx k.loop with
             | some l => u.endLoop k.ctx l
             | none => u.handover k.ctx 1)
         else u.startTile e k)) ∧
    (∀ (e n : Nat) (t : Tile) (s : State), s.up = true → (s.eng e).tile = some t → t.computing = false → t.dead = true →
      exec (.loadPhaseComplete e n none) s = .next ((s.countLoad e (t.loadCycles n)).idleEng e)) ∧
    ∀ (e n : Nat) (t : Tile) (s : State), s.up = true → (s.eng e).tile = some t → t.computing = true → t.dead = true →
      exec (.tileEnd e n none) s = .next
        ((((s.onEng e (fun _ => { s.eng e with compCyc := (s.eng e).compCyc + BitVec.ofNat 32 ((s.mapFor t.ctx t.work).tileCycles t.toTileCand + n) })).chargeExcess e t
          ((s.mapFor t.ctx t.work).tileCycles t.toTileCand + n))).idleEng e)

/-- A wait for streamed swatches ends by their arrival or by a handover with cause SWATCH_LATE; a Retouch step takes every layer one
step on (06_liner_engines.md R223, 06_liner_engines.md R227, 06_liner_engines.md R229, 06_liner_engines.md R231, 02_tick_and_budgets.md
R68). Points that the spec leaves open stand as the model chose, logged in notes/assumptions/77.md and notes/assumptions/117.md. -/
def Obligations.StreamedWaitAndRetouchSteps : Prop :=
  (∀ (eng ctx : Nat) (arrived : Bool) (s : State), s.serving = true → ((s.eng eng).waits.any (fun w => w.ctx == ctx && s.tileLate eng w)) = true →
      exec (.swwaitExpiry eng ctx arrived) s = .next (
        if arrived then s.endWait eng ctx
        else if (s.ctx ctx).bind.realtime && !(s.ctx ctx).fence && (s.ctx ctx).handed == 0 && s.holds ctx then
          ((s.endWait eng ctx).onCtx ctx (fun x => { x with cnt := { x.cnt with linLate := satInc x.cnt.linLate } })).handover ctx 6
        else s)) ∧
    (∀ (ctx : Nat) (inp : RetouchIn) (r : RetouchRun) (s : State), (s.ctx ctx).retouch = some r →
      s.serving = true → r.done + r.ready < r.steps →
      exec (.retouchStepDone ctx inp) s = .next (
        if r.spoiled then s.onCtx ctx (fun x => { x with retouch := some { r with done := r.done + 1, spoiled := false } })
        else s.retouchStep ctx r inp)) ∧
    (∀ (e c : Nat) (s : State), s.serving = true → (s.eng e).waits.any (fun w => w.ctx == c && s.tileLate e w) = true →
      exec (.swwaitExpiry e c true) s = .next (s.endWait e c)) ∧
    (∀ (e c : Nat) (s : State), s.serving = true → (s.eng e).waits.any (fun w => w.ctx == c && s.tileLate e w) = true →
      (s.ctx c).bind.realtime = true → (s.ctx c).fence = false → (s.ctx c).handed = 0 → s.holds c = true →
      exec (.swwaitExpiry e c false) s = .next (((s.endWait e c).onCtx c
        (fun x => { x with cnt := { x.cnt with linLate := satInc x.cnt.linLate } })).handover c 6)) ∧
    (∀ (e c : Nat) (s : State), (s.ctx c).bind.realtime = false → exec (.swwaitExpiry e c false) s = .next s) ∧
    (∀ (c : Nat) (inp : RetouchIn) (r : RetouchRun) (s : State), s.serving = true → (s.ctx c).retouch = some r → r.spoiled = true →
      r.done + r.ready < r.steps →
      exec (.retouchStepDone c inp) s = .next (s.onCtx c (fun x => { x with retouch := some { r with done := r.done + 1, spoiled := false } }))) ∧
    (∀ (c : Nat) (inp : RetouchIn) (r : RetouchRun) (s : State), s.serving = true → (s.ctx c).retouch = some r → r.spoiled = false →
      r.done + r.ready < r.steps →
      (s.retouchReads (s.curMap c) r inp 0 (retouchPlaces (s.curMap c) r.nsamp r.layers 0 0)).2.1 = false →
      exec (.retouchStepDone c inp) s = .next (
        let d := s.retouchReads (s.curMap c) r inp 0 (retouchPlaces (s.curMap c) r.nsamp r.layers 0 0)
        d.2.2.onCtx c (fun x => { x with
          retouch := some { r with ready := r.ready + 1 }
          low := d.1.foldl (fun t i => modify {} i.layer (fun w => w.step ((s.curMap c).ll i.layer) r i) t) x.low }))) ∧
    ∀ (c : Nat) (inp : RetouchIn) (s : State), (s.ctx c).retouch = none → exec (.retouchStepDone c inp) s = .next s

/-- A Warp job waits for its grid rows and else makes its rows, and the line cache keeps at most 4,096 lines (07_warp_and_pixel.md
R238, 07_warp_and_pixel.md R239, 07_warp_and_pixel.md R240, 07_warp_and_pixel.md R241, 07_warp_and_pixel.md R244, 07_warp_and_pixel.md
R245). Points that the spec leaves open stand as the model chose, logged in notes/assumptions/32.md and notes/assumptions/90.md. -/
def Obligations.WarpGathersAndSourceLines : Prop :=
  (∀ (ctx : Nat) (work : Work) (inp : WarpIn) (t : Machine.Task) (p q luma : PlaneRef) (s : State), s.task work.owner work.frame work.part = some t →
      let m := s.mapFor ctx work
      let j := m.warp.getD inp.job {}
      let pics := (s.ctx t.ctx).pictures t
      let cur := pics.getD 0 []
      cur[inp.plane]? = some p → (if j.mode then (pics.getD 1 [])[inp.plane]? else cur[inp.plane]?) = some q → cur[0]? = some luma →
      let sub := (decide (p.w < luma.w), decide (p.h < luma.h))
      let outW := if sub.1 then ceilDiv inp.w 2 else inp.w
      let outH := if sub.2 then ceilDiv inp.h 2 else inp.h
      s.serving = true → s.wp.wReady = true → s.servable ctx = true → s.workOpen ctx work = true → s.ownWaits ctx work = false →
      inp.job < m.warp.length → 0 < inp.rows ∧ inp.row0 + inp.rows ≤ outH →
      let k0 := (j.cell 0 (lumaAt sub.2 (fmtMid t.ofmt).2 inp.row0)).k
      let k1 := (j.cell 0 (lumaAt sub.2 (fmtMid t.ofmt).2 (inp.row0 + inp.rows - 1))).k + 1
      let r := s.wp.runOf ctx work inp
      let g := s.readSpan 4 ctx (inp.grid + k0 * gridStride j inp.w) ((k1 + 1 - k0) * gridStride j inp.w)
      exec (.warpJob ctx work inp) s = .next (
        if inp.gridRows ≤ k1 then s.warpWaits r
        else if g.2.1 then g.2.2.warpWaits r else g.2.2.warpRows r m j p q sub (fmtMid t.ofmt) outW k0 g.1)) ∧
    (∀ (line cycles : Nat) (c : Nat) (s : State), s.wp.wants line = some c →
      s.serving = true → s.wp.wReady = true → (!s.wp.cache.any (fun l => l.1 == line)) = true →
      exec (.sourceLineFill line cycles) s = .next (
        let r := s.readEach 4 c [line]
        let s := r.2.2.onWp (fun w => { w with missCyc := w.missCyc + BitVec.ofNat 32 cycles })
        if r.2.1 then s
        else s.onWp (fun w => { w with cache := (if 4096 ≤ w.cache.length then w.cache.drop 1 else w.cache) ++ [(line, lineOf r.1)] }))) ∧
    (∀ (l n : Nat) (s : State) (c : Nat), s.serving = true → s.wp.wReady = true → s.wp.wants l = some c → s.wp.cache.any (fun x => x.1 == l) = false →
      let r := s.readEach 4 c [l]
      let keep : List (Nat × Line) → List (Nat × Line) := fun k => (if 4096 ≤ k.length then k.drop 1 else k) ++ [(l, lineOf r.1)]
      (r.2.1 = false → ∃ t, exec (.sourceLineFill l n) s = .next t ∧ t.wp.cache = keep r.2.2.wp.cache ∧
        t.wp.missCyc = r.2.2.wp.missCyc + BitVec.ofNat 32 n) ∧
      ∀ k : List (Nat × Line), k.length ≤ 4096 → (keep k).length ≤ 4096 ∧ (keep k).getLast? = some (l, lineOf r.1)) ∧
    (∀ (l n : Nat) (s : State), s.wp.cache.any (fun x => x.1 == l) = true → exec (.sourceLineFill l n) s = .next s) ∧
    ∀ (l n : Nat) (s : State), s.wp.wants l = none → exec (.sourceLineFill l n) s = .next s

/-- Frames are unpacked, packed and laid out within their task, and a classical block carries status OK_FALLBACK (07_warp_and_pixel.md
R235, 07_warp_and_pixel.md R248, 07_warp_and_pixel.md R255, 07_warp_and_pixel.md R258, 02_tick_and_budgets.md R63,
02_tick_and_budgets.md R65, 02_tick_and_budgets.md R66, 07_warp_and_pixel.md R237, 07_warp_and_pixel.md R257). Points that the spec
leaves open stand as the model chose, logged in notes/assumptions/32.md and notes/assumptions/90.md. -/
def Obligations.PixelPacksAndCarriesOkFallback : Prop :=
  (∀ (ctx frame slice width height : Nat) (dst : List Nat) (acts : Nat) (t0 : Machine.Task) (s : State), s.task ctx frame slice = some t0 →
      let ps := s.easel.tasks.filter (fun u => u.partOf t0)
      let t := { t0 with payload := ps.flatMap (·.payload) ++ t0.payload }
      s.serving = true → s.wp.pReady = true → t.last = true → t.ready = true → (ps.all (·.ready)) = true → t.unpacked = false →
      exec (.payloadUnpack ctx frame slice width height dst acts) s = .next (
        let s := s.endParts t
        if (s.taskMap t.ctx t).tensors then
          (s.writeSpan 3 ctx acts t.payload).onTask t.cmd.seq (fun u => { u with unpacked := true, acts := some (acts, t.payload.length) })
        else s.unpackPicture t width height dst acts)) ∧
    (∀ (ctx frame slice line0 lines before after out : Nat) (acts : List Nat) (count : Nat) (t : Machine.Task) (s : State), s.task ctx frame slice = some t →
      let p := match t.by_ with | some (.ctx d) => d | _ => t.ctx
      let w : Work := { owner := ctx, frame := frame, part := slice }
      s.serving = true → s.wp.pReady = true → t.unpacked = true → s.due t = true → (t.workOf p) = true → s.servable p = true → t.packed < t.blocks ∧ t.line ≤ line0 → (!s.ownWaits p w) = true →
      exec (.pack ctx frame slice line0 lines before after out acts count) s = .next (
        let m := s.mapFor p w
        let r := s.readActs p (linBits out) count acts
        if r.2.1 then r.2.2
        else (r.2.2.onTask t.cmd.seq (fun u => { u with line := line0 + lines })).queueBlock t p {
          idx := t.packed, line0 := line0, lines := lines, status := if t.by_.isNone then 0 else 1,
          cause := if t.by_.isNone then 0 else t.cause, payload := m.packPayload t.ofmt out before lines after r.1 })) ∧
    (∀ (line0 lines : Nat) (sizes : List (Nat × Nat)) (j : ClassJob) (rest : List ClassJob) (s : State), s.wp.lane = j :: rest →
      s.serving = true → s.wp.pReady = true →
      exec (.classicalBlock line0 lines sizes) s = .next (
        match s.task j.ctx j.frame.toNat j.part with
        | none => s.onWp (fun w => { w with lane := rest })
        | some t => onlyIf (decide (t.line ≤ line0) && ratiosOk (((s.ctx t.ctx).pictures t).getD 0 []) sizes)
            (State.classBlock j rest t line0 lines sizes) s)) ∧
    (
  ∀ (c f p w h : Nat) (dst : List Nat) (a : Nat) (t : Machine.Task) (s : State), s.task c f p = some t →
      (s.easel.tasks.filter (fun u => u.partOf t)) = [] → s.serving = true → s.wp.pReady = true → t.last = true → t.ready = true →
      t.unpacked = false → exec (.payloadUnpack c f p w h dst a) s = .next
        (if ((s.endParts t).taskMap t.ctx t).tensors then ((s.endParts t).writeSpan 3 c a t.payload).onTask t.cmd.seq
          (fun u => { u with unpacked := true, acts := some (a, t.payload.length) })
        else (s.endParts t).unpackPicture t w h dst a)) ∧
  (
  (∀ (l0 n : Nat) (z : List (Nat × Nat)) (s : State), s.wp.lane = [] → exec (.classicalBlock l0 n z) s = .next s) ∧
    (∀ (l0 n : Nat) (z : List (Nat × Nat)) (j : ClassJob) (rest : List ClassJob) (s : State), s.serving = true → s.wp.pReady = true →
      s.wp.lane = j :: rest → s.task j.ctx j.frame.toNat j.part = none →
      exec (.classicalBlock l0 n z) s = .next (s.onWp (fun w => { w with lane := rest }))) ∧
    ∀ (l0 n : Nat) (z : List (Nat × Nat)) (j : ClassJob) (rest : List ClassJob) (t : Task) (s : State), s.serving = true →
      s.wp.pReady = true → s.wp.lane = j :: rest → s.task j.ctx j.frame.toNat j.part = some t → t.line ≤ l0 →
      ratiosOk (((s.ctx t.ctx).pictures t).getD 0 []) z = true →
      let m := s.taskMap t.ctx t
      let r := s.classPlanes t.ctx j.path m.phase ((s.ctx t.ctx).pictures t) z
      let ps := (chromaDown t.ofmt r.1).map (fun p => planeLines p (z.headD (0, 0)).2 l0 n)
      exec (.classicalBlock l0 n z) s = .next (if r.2.1 then r.2.2 else State.queueBlock t t.ctx
        { idx := t.nextBlk, line0 := l0, lines := n, status := 1, cause := t.cause,
          payload := if m.tensors then ps.flatMap (fun p => p.px.map (fun x => BitVec.ofNat 8 x.toNat)) else blockPayload t.ofmt ps }
        (((r.2.2.onWp (fun w => { w with
            lane := if t.blocks ≤ t.nextBlk + 1 then rest else w.lane
            classicGathers := w.classicGathers + sumN (ps.map (fun p => p.px.length))
            cntRepeat := if j.path = .frameRepeat then satInc w.cntRepeat else w.cntRepeat
            cntBlend := if j.path = .blend then satInc w.cntBlend else w.cntBlend
            cntLanczos := if j.path = .lanczos then satInc w.cntLanczos else w.cntLanczos })).onCtx t.ctx
          (fun x => { x with cnt := { x.cnt with pixClassic := satInc x.cnt.pixClassic } })).onTask t.cmd.seq
            (fun u => { u with nextBlk := u.nextBlk + 1, line := l0 + n }))))

/-- A waiting completion or event record is posted, in order, once its ring can take it (13_host_link.md R472, 14_command_set.md R528,
17_containment.md R616). Points that the spec leaves open stand as the model chose, logged in notes/assumptions/53.md. -/
def Obligations.WaitingPostsGoWhenTheRingHasRoom : Prop :=
  (∀ (ring : Nat) (w : Waiting) (s : State), s.easel.waiting.find? (fun w => w.ring == ring) = some w →
      s.up = true → (s.canPost ring (1 + (pieces 64 w.payload).length)) = true → ((!s.easel.wholeFence || underFence (hdrBits w.slot 135 128))) = true →
      exec (.completionPost ring) s = .next (
        (s.onEasel (fun e => { e with waiting := dropFirst ring e.waiting })).postRing ring w.slot w.payload
                 (.completion (hdrBits w.slot 159 150)) (cqBit (s.ring ring)))) ∧
    (∀  (w : Waiting) (rest : List Waiting) (s : State), s.easel.records = w :: rest →
      s.up = true → (s.canPost w.ring 1) = true →
      exec .eventRecordPost s = .next (
        (s.onEasel (fun e => { e with records := rest })).postRing w.ring w.slot []
                 (.completion (hdrBits w.slot 159 150)) (4 ||| cqBit (s.ring w.ring)))) ∧
    (∀ (r : Nat) (w : Waiting) (s : State), s.easel.waiting.find? (fun w => w.ring == r) = some w → s.up = true →
      s.canPost r (1 + (pieces 64 w.payload).length) = true → (s.easel.wholeFence = true → underFence (hdrBits w.slot 135 128) = true) →
      exec (.completionPost r) s = .next ((s.onEasel (fun e => { e with waiting := dropFirst r e.waiting })).postRing r w.slot w.payload
        (.completion (hdrBits w.slot 159 150)) (cqBit (s.ring r)))) ∧
    (∀ (r : Nat) (s : State), (∀ n, s.canPost r n = false) → exec (.completionPost r) s = .next s) ∧
    (∀ (w : Waiting) (rest : List Waiting) (s : State), s.easel.records = w :: rest → s.up = true → s.canPost w.ring 1 = true →
      exec .eventRecordPost s = .next ((s.onEasel (fun e => { e with records := rest })).postRing w.ring w.slot []
        (.completion (hdrBits w.slot 159 150)) (4 ||| cqBit (s.ring w.ring)))) ∧
    ∀ s : State, s.easel.records = [] → exec .eventRecordPost s = .next s

/-- A coded block is kept for its port until it is acknowledged, its table goes ahead of it, and a lane without room waits
(08_glaze_compression.md R275, 08_glaze_compression.md R283, 08_glaze_compression.md R284, 08_glaze_compression.md R293). Points that
the spec leaves open stand as the model chose, logged in notes/assumptions/12.md, notes/assumptions/34.md and notes/assumptions/118.md. -/
def Obligations.GlazeKeepsARecordUntilAcknowledged : Prop :=
  (∀ (lane : Nat) (j : GlzJob) (s : State), s.glaze.jobs.find? (fun j => j.lane == lane) = some j →
      s.serving = true → s.glaze.ready = true → s.glaze.fenced = false → s.fab.fenced = false →
      exec (.compressBlock lane) s = .next (State.codeJob j s)) ∧
    (∀ (k : Nat) (s : State), s.glaze.jobs.find? (fun j => j.lane == k) = none → exec (.compressBlock k) s = .next s) ∧
    ∀ (k : Nat) (j : GlzJob) (s : State), s.glaze.jobs.find? (fun j => j.lane == k) = some j → s.serving = true → s.glaze.ready = true →
      s.glaze.fenced = false → s.fab.fenced = false →
      let e := s.glaze.entryFor j.tensor j.elem (pieces 4096 j.data)
      let r := blockRecord s.glaze.eff.rawcut.toNat j.tensor e.gen.toNat j.elem e.lens (j.data.take 4096)
      (512 * 1024 < s.glaze.sentBytes j.port + r.1.length → exec (.compressBlock k) s = .next s) ∧
      (s.glaze.sentBytes j.port + r.1.length ≤ 512 * 1024 → ∃ u, exec (.compressBlock k) s = .next u ∧
        u.glaze.sent = s.glaze.sent ++ [{ id := s.glaze.nextId, port := j.port, dst := j.dst, aux := j.aux, bytes := r.1
                                          param := entryParam (decide (j.data.length ≤ 4096)) true j.gradient (!j.begun) s.glaze.nextId }] ∧
        u.glaze.nextId = s.glaze.nextId + 1 ∧
        u.glaze.jobs = (s.glaze.jobs.map (fun x => if x = j then { j with begun := true, data := j.data.drop 4096 } else x)).filter (fun x => !x.data.isEmpty) ∧
        u.glaze.coded = (if r.2 then s.glaze.coded else s.glaze.coded + 1) ∧ u.glaze.raw = (if r.2 then s.glaze.raw + 1 else s.glaze.raw))

/-- A received table is kept, a block is decoded against a credit and acknowledged, a corrupt block is asked for again, and work of a
fenced context is discarded (08_glaze_compression.md R284, 08_glaze_compression.md R289, 08_glaze_compression.md R291,
08_glaze_compression.md R292, 08_glaze_compression.md R294, 16_fabric.md R572). Points that the spec leaves open stand as the model
chose, logged in notes/assumptions/12.md and notes/assumptions/34.md. -/
def Obligations.GlazeExpandsOrAsksAgain : Prop :=
  (∀ (lane : Nat) (r : GlzIn) (s : State), s.expandNext lane = some r →
      s.serving = true → s.glaze.ready = true → s.glaze.fenced = false →
      exec (.expandBlock lane) s = .next (State.expand r s)) ∧
    (∀ (k : Nat) (s : State), s.expandNext k = none → exec (.expandBlock k) s = .next s) ∧
    (∀ (k : Nat) (r : GlzIn) (s : State), s.expandNext k = some r →
      r ∈ s.glaze.inq ∧ r.lane = k ∧ r.asked = false ∧ s.glaze.inq.find? r.sameTensor = some r ∧ s.recGranted r = true) ∧
    (∀ (k : Nat) (r : GlzIn) (s : State), s.expandNext k = some r → s.serving = true → s.glaze.ready = true → s.glaze.fenced = false →
      let u := s.returnLines r.port 3 (ceilDiv r.bytes.length 64)
      let gone := u.onGlaze (fun g => { g with inq := g.inq.erase r })
      (r.isTable = true → exec (.expandBlock k) s = .next (gone.onGlaze (fun g => g.putDec r.src r.bytes))) ∧
      (r.isTable = false → u.outOfUse r = true → exec (.expandBlock k) s = .next gone) ∧
      (r.isTable = false → u.outOfUse r = false → u.glaze.decode r.src r.bytes = none → r.again = false →
        exec (.expandBlock k) s = .next (State.glzReply 0x33 r ((u.onGlaze (fun g => { g with corrupt := satInc g.corrupt, corruptEvent := true })).onGlaze
          (fun g => { g with inq := g.inq.map (fun x => if x = r then { x with asked := true } else x) })))) ∧
      ∀ b : List Byte, r.isTable = false → u.outOfUse r = false → u.glaze.decode r.src r.bytes = some b →
        exec (.expandBlock k) s = .next (State.storeBytes r.pair b (bit r.param 28) (bit r.param 31) (State.glzReply 0x32 r
          (gone.onGlaze (fun g => { g with
            dec := g.dec.map (fun d => if d.src = r.src ∧ d.tensor = recField r.bytes 63 48 then { d with used := g.clock } else d)
            clock := g.clock + 1 })))))

/-- An access needs a bank that is on and its owner: a dark bank answers ones, another owner's zeros; a cycle's requests are served in
the order of R304 (09_palette_and_banks.md R302, 09_palette_and_banks.md R304, 09_palette_and_banks.md R305, 09_palette_and_banks.md
R308, 09_palette_and_banks.md R316, 09_palette_and_banks.md R325, 06_liner_engines.md R199). Points that the spec leaves open stand as
the model chose, logged in notes/assumptions/35.md. -/
def Obligations.PaletteAccessNeedsPowerAndOwnership : Prop :=
  (∀ (bank : Nat) (reqs : List PalReq) (s : State), s.up = true → bank < 256 →
      exec (.palAccess bank reqs) s = .next (
        State.serveAll bank
            (reqs.filter (fun r => decide (r.line < 8192 ∧ (r.agent = 0 ∨ r.agent = 2 ∨ r.agent = 6)))) s)) ∧
    (∀ (b : Nat) (r : PalReq) (s : State), s.up = true → b < 256 → r.line < 8192 → (r.agent = 0 ∨ r.agent = 2 ∨ r.agent = 6) →
      (s.bank b).on = true → (s.bank b).ownedBy r.unit = true → (s.bank b).holdsUp = false → r.op = .read →
      exec (.palAccess b [r]) s = .next (State.scrub b r.line (State.serveReq b r (s.onPal (fun p => { p with answers := [] }))))) ∧
    (∀ (b : Nat) (r : PalReq) (s : State), s.up = true → b < 256 → r.line < 8192 → (r.agent = 0 ∨ r.agent = 2 ∨ r.agent = 6) →
      (r.op ≠ .read ∨ (s.bank b).on = false ∨ (s.bank b).ownedBy r.unit = false) →
      exec (.palAccess b [r]) s = .next (State.serveReq b r (s.onPal (fun p => { p with answers := [] })))) ∧
    (∀ (b : Nat) (r : PalReq) (s : State), s.up = true → b < 256 → r.line < 8192 → (r.agent = 0 ∨ r.agent = 2 ∨ r.agent = 6) →
      (s.bank b).on = true → (s.bank b).ownedBy r.unit = true → (s.bank b).holdsUp = true →
      exec (.palAccess b [r]) s = .next (State.respond 0 5
        ((s.onPal (fun p => { p with answers := [] })).onBank b (fun k => { k with waiting := k.waiting ++ [r] })))) ∧
    (∀ (b : Nat) (q : PalReq) (s : State), q.upset = 0 →
      ((s.bank b).on = false → s.access b q = (s.darkAccess q.unit).respond (BitVec.allOnes 512) 2) ∧
      ((s.bank b).on = true → (s.bank b).ownedBy q.unit = false → s.access b q = (s.nonOwner q.unit).respond 0 1) ∧
      ((s.bank b).on = true → (s.bank b).ownedBy q.unit = true → (s.bank b).holdsUp = true →
        s.access b q = (s.onBank b (fun k => { k with waiting := k.waiting ++ [q] })).respond 0 5) ∧
      ((s.bank b).on = true → (s.bank b).ownedBy q.unit = true → (s.bank b).holdsUp = false → s.access b q = (s.testerYield b).serveLine b q)) ∧
    ∀ x y : PalReq, reqRank x < reqRank y → servedOrder [x, y] = [x, y] ∧ servedOrder [y, x] = [x, y]

/-- Only Easel or the owner hands a bank over, and handover, clear and conversion each end once (09_palette_and_banks.md R305,
09_palette_and_banks.md R306, 09_palette_and_banks.md R307, 09_palette_and_banks.md R309, 09_palette_and_banks.md R320). Points that
the spec leaves open stand as the model chose, logged in notes/assumptions/35.md. -/
def Obligations.BankOwnershipAndPower : Prop :=
  (∀ (writer bank : Nat) (value : Word) (s : State), s.up = true → bank < 256 →
      exec (.palBankOwner writer bank value) s = .next (
        let k := s.bank bank
        if (writer == 1 || k.ownedBy writer) && !k.busy then s.handBank bank (bits value.toNat 7 0) (bits value.toNat 31 16)
        else s.nonOwner writer)) ∧
    (∀ (bank : Nat) (s : State), s.up = true → (s.bank bank).busy = true → (s.bank bank).conv.isNone = true →
      exec (.bankHandoverDone bank) s = .next ((s.onBank bank (fun k => ({ k with busy := false } : Bank).beginConv)).serveWaiting bank)) ∧
    (∀ (s : State), s.easelRuns = true →
      exec .palCommit s = .next (State.palCommit s)) ∧
    (∀ (bank : Nat) (s : State), s.up = true → (s.bank bank).clear = true →
      exec (.bankClearDone bank) s = .next ((s.onBank bank (fun k => ({ k with clear := false } : Bank).beginConv)).serveWaiting bank)) ∧
    (∀ (bank : Nat) (m : BitVec 2) (s : State), (s.bank bank).conv = some m →
      s.up = true →
      exec (.conversionDone bank) s = .next ((s.testerYield bank).onBank bank (fun k => k.convert m))) ∧
    (∀ (w b : Nat) (v : Word) (s : State), s.up = true → b < 256 → (w = 1 ∨ (s.bank b).ownedBy w = true) → (s.bank b).busy = false →
      exec (.palBankOwner w b v) s = .next ((s.testerYield b).onBank b (fun k => { k with
        owner := BitVec.ofNat 8 (ownerCode (bits v.toNat 7 0)), set := BitVec.ofNat 16 (bits v.toNat 31 16), busy := true }))) ∧
    (∀ (w b : Nat) (v : Word) (s : State), s.up = true → b < 256 → (w ≠ 1 ∧ (s.bank b).ownedBy w = false ∨ (s.bank b).busy = true) →
      exec (.palBankOwner w b v) s = .next (s.nonOwner w)) ∧
    (∀ (b : Nat) (s : State), s.up = true → (s.bank b).busy = true → (s.bank b).conv = none → (s.bank b).waiting = [] →
      exec (.bankHandoverDone b) s = .next (s.onBank b (fun k => ({ k with busy := false } : Bank).beginConv))) ∧
    (∀ (b : Nat) (s : State), s.up = true → (s.bank b).clear = true → (s.bank b).waiting = [] →
      exec (.bankClearDone b) s = .next (s.onBank b (fun k => ({ k with clear := false } : Bank).beginConv))) ∧
    (∀ (b : Nat) (s : State), (s.bank b).waiting ≠ [] → (s.bank b).holdsUp = false →
      s.serveWaiting b = (
        let u := each (s.bank b).waiting (State.serveReq b) ((s.onBank b (fun k => { k with waiting := [] })).onPal (fun p => { p with answers := [] }))
        each ((s.bank b).waiting.filter (fun r => r.op == .read && (u.bank b).ownedBy r.unit && (u.bank b).on)) (fun r => State.scrub b r.line) u)) ∧
    (∀ (b : Nat) (m : BitVec 2) (s : State), s.up = true → (s.bank b).conv = some m →
      exec (.conversionDone b) s = .next ((s.testerYield b).onBank b (fun k => k.convert m)) ∧
      ∀ k : Bank, (k.convert m).ctl.mode = m ∧ (k.convert m).conv = none) ∧
    ∀ s : State, s.easelRuns = true → exec .palCommit s = .next s.palCommit

/-- The tester borrows a bank by chunks of 64 lines and a failing cell fences it; raw accesses run through the test registers where
they are allowed (09_palette_and_banks.md R321, 09_palette_and_banks.md R324, 09_palette_and_banks.md R326). Points that the spec
leaves open stand as the model chose, logged in notes/assumptions/35.md. -/
def Obligations.TesterBorrowsAndRawAccessRuns : Prop :=
  (∀ (recent : List Nat) (fail : Option MarchFail) (s : State), s.serving = true → s.pal.tester.run = true →
      exec (.testerChunk recent fail) s = .next (
        match s.pal.tester.hold with
        | some (b, first, saved) =>
          let s := s.chunkDone b first saved
          match fail with
          | none => s
          | some f => (s.onPal (fun p => { p with tester := { p.tester with
              fail := true, bank := BitVec.ofNat 8 b, line := BitVec.ofNat 13 f.line } })).fenceBank b
        | none =>
          let t := s.pal.tester.turn
          match ((List.range 256).map (fun i => (t + i) % 256)).find? (s.mayBorrow recent) with
          | none => s
          | some b =>
            let first := 64 * (s.bank b).chunk
            s.onPal (fun p => { p with tester := { p.tester with
              turn := b, hold := some (b, first, (List.range 64).map (fun i => (s.bank b).line (first + i))) } }))) ∧
    (∀ (s : State), s.up = true →
      exec .rawWrite s = .next (State.rawWrite s)) ∧
    (∀ (s : State), s.up = true →
      exec .rawRead s = .next (State.rawRead s)) ∧
    (
  (∀ (recent : List Nat) (f : Option MarchFail) (b : Nat) (s : State), s.serving = true → s.pal.tester.run = true → s.pal.tester.hold = none →
      ((List.range 256).map (fun i => (s.pal.tester.turn + i) % 256)).find? (s.mayBorrow recent) = some b →
      exec (.testerChunk recent f) s = .next (s.onPal (fun p => { p with tester := { p.tester with
        turn := b, hold := some (b, 64 * (s.bank b).chunk, (List.range 64).map (fun i => (s.bank b).line (64 * (s.bank b).chunk + i))) } }))) ∧
    (∀ (recent : List Nat) (b n : Nat) (ls : List PLine) (s : State), s.serving = true → s.pal.tester.run = true →
      s.pal.tester.hold = some (b, n, ls) →
      exec (.testerChunk recent none) s = .next (s.chunkDone b n ls) ∧
      ∀ f : MarchFail, exec (.testerChunk recent (some f)) s = .next (State.fenceBank b ((s.chunkDone b n ls).onPal
        (fun p => { p with tester := { p.tester with fail := true, bank := BitVec.ofNat 8 b, line := BitVec.ofNat 13 f.line } })))) ∧
    (∀ s : State, s.pal.tester.run = false → ∀ r f, exec (.testerChunk r f) s = .next s) ∧
    ∀ s : State, s.up = true → (s.onPal (fun p => { p with test := { p.test with done := false } })).rawOk = false →
      exec .rawWrite s = .next (s.onPal (fun p => { p with test := { p.test with done := false } })) ∧
      exec .rawRead s = .next (s.onPal (fun p => { p with test := { p.test with done := false } }))) ∧
  (
  (∀ s : State, s.up = true → (s.onPal (fun p => { p with test := { p.test with done := false } })).rawOk = true → s.pal.tester.hold = none →
      exec .rawWrite s = .next (((s.onPal (fun p => { p with test := { p.test with done := false } })).onBank s.pal.test.bank.toNat
        (fun k => k.store s.pal.test.place.1 ((k.line s.pal.test.place.1).setWord s.pal.test.place.2
          (s.pal.test.lo.toNat + 2 ^ 32 * s.pal.test.hi.toNat) s.pal.test.check.toNat))).onPal
            (fun p => { p with test := { p.test with done := true } }))) ∧
    ∀ s : State, s.up = true → (s.onPal (fun p => { p with test := { p.test with done := false } })).rawOk = true → s.pal.tester.hold = none →
      ∃ t, exec .rawRead s = .next t ∧ t = { s with pal := { s.pal with test := t.pal.test } } ∧ t.pal.test.done = true)

/-- WIN_COMMIT puts WIN_CFG in effect, and WIN_BUSY_N is released (09_palette_and_banks.md R335, 09_palette_and_banks.md R336). -/
def Obligations.WindowSettingsAndBusy : Prop :=
  (∀ (s : State), s.reaches = true →
      exec .winCommit s = .next (State.winCommit s)) ∧
    (∀ (s : State), s.dead = false →
      exec .winBusyExpiry s = .next (State.onWin (fun w => { w with busy := false }) s)) ∧
    (∀ s : State, s.reaches = true → exec .winCommit s = .next (s.onWin (fun w => { w with compat := w.shadow, was := w.compat }))) ∧
    (∀ s : State, s.reaches = false → exec .winCommit s = .next s) ∧
    ∀ s : State, s.dead = false → exec .winBusyExpiry s = .next (s.onWin (fun w => { w with busy := false }))

/-- A word written to the Window through port B is the word that a read of it delivers, and every other word reads as before
(09_palette_and_banks.md R328, 09_palette_and_banks.md R331). -/
def Obligations.WindowWordReadsAsWritten : Prop :=
  ∀ (w : Nat) (d : DWord) (s : State), Safety.MemInv s →
    look {} (s.winPut w d).win.words w = validWord d.toNat ∧
    (∀ j, j ≠ w → look {} (s.winPut w d).win.words j = look {} s.win.words j) ∧ Safety.MemInv (s.winPut w d) ∧
    s.winPut w d = { s with win := { s.win with words := (s.winPut w d).win.words } }

/-- A swatch access is answered by the state of the swatch: no swatch, resident, evicting, promoting, poisoned, or none
(10_tiers_and_swatches.md R360, 10_tiers_and_swatches.md R363, 10_tiers_and_swatches.md R365, 10_tiers_and_swatches.md R374). Points
that the spec leaves open stand as the model chose, logged in notes/assumptions/41.md. -/
def Obligations.SwatchAccessByState : Prop :=
  (∀ (requester ctx obj off : Nat) (op : SwOp) (bufHit : Bool) (s : State), s.serving = true → s.sw.swReady = true → s.sw.swFenced = false → requester < 0x60 →
      exec (.swatchAccess requester ctx obj off op bufHit) s = .next (State.swatchAccess requester ctx obj off op bufHit s)) ∧
    ∀ (r c o off : Nat) (op : SwOp) (hit : Bool) (s : State), s.serving = true → s.sw.swReady = true → s.sw.swFenced = false → r < 0x60 →
    let i := off / 16384
    let d := s.readerOf r c
    (s.obj o = none → op = .read → exec (.swatchAccess r c o off op hit) s = .next (s.unmapped.respond 0 4)) ∧
    (∀ b : Obj, s.obj o = some b → b.size ≤ i → op = .read → exec (.swatchAccess r c o off op hit) s = .next (s.unmapped.respond 0 4)) ∧
    (∀ b : Obj, s.obj o = some b → i < b.size → b.ro = true → op ≠ .read → exec (.swatchAccess r c o off op hit) s = .next s.unmapped) ∧
    ∀ (b : Obj) (k : Nat) (e : Entry), s.obj o = some b → i < b.size → (b.ro = false ∨ op = .read) → s.sw.copy o i = some (k, e) →
      let s1 := (s.countLook (hit && e.holders.contains r)).onEntry k (fun x => { x with
        ppin := true, use := true, holders := if x.holders.contains r then x.holders else r :: x.holders })
      (e.st = .resident → exec (.swatchAccess r c o off op hit) s = .next (s1.serveEntry k d off op)) ∧
      (e.st = .evicting → exec (.swatchAccess r c o off op hit) s = .next ((s1.raceWon k).serveEntry k d off op)) ∧
      (∀ (n : Nat) (l : Line), e.st = .promoting → op = .write n l → exec (.swatchAccess r c o off op hit) s = .next (s1.writeLater k n l)) ∧
      (e.st = .poisoned → s1.realReader d = true → exec (.swatchAccess r c o off op hit) s = .next (s1.handover d 5)) ∧
      (e.st = .poisoned → s1.realReader d = false → op = .read → exec (.swatchAccess r c o off op hit) s = .next (s1.readLater k (d, off % 16384 / 64)))

/-- A free place starts a queued move of the lowest rank, and a fill, a write-back, a refetch and a late read end as their state says
(10_tiers_and_swatches.md R359, 10_tiers_and_swatches.md R360, 10_tiers_and_swatches.md R367, 10_tiers_and_swatches.md R371,
10_tiers_and_swatches.md R378). Points that the spec leaves open stand as the model chose, logged in notes/assumptions/41.md. -/
def Obligations.MovesStartInOrderAndEnd : Prop :=
  (∀ (s : State), s.up = true → s.sw.migReady = true → s.sw.migFenced = false → s.sw.mayFly = true →
      exec .moveStart s = .next (
        match (s.sw.queue.filter s.startable).foldl (fun (a : Option Move) m => match a with
          | none => some m
          | some b => if m.rank < b.rank then some m else some b) none with
        | none => s
        | some m => s.startMove m)) ∧
    (∀ (obj idx : Nat) (good : Bool) (data : List Byte) (s : State), s.up = true → s.sw.migFenced = false →
      exec (.fillDone obj idx good data) s = .next (State.fillDone obj idx good data s)) ∧
    (∀ (obj idx : Nat) (s : State), s.up = true → s.sw.migFenced = false →
      exec (.writebackDone obj idx) s = .next ((s.writebackDone obj idx).powerEnter)) ∧
    (∀ (obj idx : Nat) (s : State), s.up = true → s.sw.migFenced = false →
      exec (.readTimeout obj idx) s = .next (State.readTimeout obj idx s)) ∧
    (∀ (obj idx : Nat) (good : Bool) (data : List Byte) (s : State), s.up = true → s.sw.migFenced = false →
      exec (.refetchDone obj idx good data) s = .next (State.refetchDone obj idx good data s)) ∧
    (∀ (s : State), s.reaches = true →
      exec .migCommit s = .next (State.migCommit s)) ∧
    (∀ s : State, s.up = true → s.sw.migReady = true → s.sw.migFenced = false → s.sw.mayFly = true → s.sw.queue.filter s.startable ≠ [] →
      ∃ m, m ∈ s.sw.queue ∧ s.startable m = true ∧ (∀ x ∈ s.sw.queue, s.startable x = true → m.rank ≤ x.rank) ∧
        exec .moveStart s = .next (s.startMove m)) ∧
    (∀ s : State, s.sw.queue.filter s.startable = [] → exec .moveStart s = .next s) ∧
    (∀ s : State, s.sw.mayFly = false → exec .moveStart s = .next s) ∧
    (∀ (o i : Nat) (good : Bool) (data : List Byte) (s : State), s.homeReads o i = [] → s.sw.inFlight o i [.homeMove] = none →
      exec (.fillDone o i good data) s = .next s) ∧
    (∀ (o i : Nat) (good : Bool) (data : List Byte) (s : State), s.up = true → s.sw.migFenced = false → s.homeReads o i ≠ [] →
      s.sw.inFlight o i [.homeMove] = none → (s.homeOf o i).1 = 4 →
      let d := s.tierData o i 4 (s.homeOf o i).2 good data
      exec (.fillDone o i good data) s = .next
        (if d.1.2.2 && tagOk o i d.1.1 d.1.2.1 then d.2.homeGood o i d.1.1 d.1.2.1 else d.2.homeBad o i d.1.1 false)) ∧
    (∀ (o i : Nat) (good : Bool) (data : List Byte) (s : State), s.sw.inFlight o i [.refetch] = none →
      exec (.refetchDone o i good data) s = .next s) ∧
    (∀ (o i : Nat) (s : State), s.up = true → s.sw.migFenced = false →
      exec (.writebackDone o i) s = .next (s.writebackDone o i).powerEnter) ∧
    (∀ (o i : Nat) (m : Move) (r : List Move) (s : State), s.up = true → s.sw.migFenced = false →
      (s.sw.entriesOf o i).find? (fun p => p.2.t2 && s.gone p.2.stack && (p.2.whole || !p.2.reads.isEmpty)) = none →
      s.sw.inFlight o i [.refetch] = none → s.homeReads o i = m :: r → (s.homeOf o i).1 = 3 →
      let u := (s.onSw (fun w => { w with timeouts := satInc w.timeouts })).onLink (fun l => { l with
        reads := l.reads.filter (fun r => r.by_ != .gallery o i) })
      exec (.readTimeout o i) s = .next (if m.again then u.tierCame o i false []
        else State.readTier o i 3 (s.homeOf o i).2 (u.onSw (fun w =>
          let mark (x : Move) : Move := if x.obj == o && x.idx == i then { x with again := true } else x
          { w with flight := w.flight.map mark, direct := w.direct.map mark, parts := w.parts.filter (fun p => !(p.obj == o && p.idx == i)) })))) ∧
    ∀ s : State, s.reaches = true → exec .migCommit s = .next s.migCommit

/-- An arm of an idle queue starts a run and of a running one fills its slot; a cancel stops the run and frees the queue when all is
back (12_streams_and_movement.md R436, 12_streams_and_movement.md R438, 12_streams_and_movement.md R440, 12_streams_and_movement.md
R443, 21_register_reference.md R713). Points that the spec leaves open stand as the model chose, logged in notes/assumptions/45.md. -/
def Obligations.QueueRunsArmAndCancel : Prop :=
  (∀ (queue desc : Nat) (s : State), s.serving = true → s.mover.ready = true → s.mover.fenced = false → queue < 64 →
      exec (.arm queue desc) s = .next (State.armQueue queue (desc % 1024) s)) ∧
    (∀ (queue : Nat) (r : Run) (s : State), (s.queue queue).run = some r →
      s.up = true → s.mover.fenced = false →
      exec (.cancel queue) s = .next ((s.cancelQueue queue).countCancel r.ctx)) ∧
    (∀ (queue : Nat) (s : State), s.up = true → (s.queue queue).cancelling = true → (s.queue queue).out.isEmpty = true →
      exec (.cancelComplete queue) s = .next (State.nextRun queue s)) ∧
    (∀ (s : State), s.reaches = true →
      exec .movCommit s = .next (State.movCommit s)) ∧
    (∀ (ring index : Nat) (s : State), s.canRing ring = true →
      exec (.produce ring index) s = .next (State.doorbell ring 0 (index % 2 ^ 17) s)) ∧
    (∀ (ring index : Nat) (s : State), s.canRing ring = true →
      exec (.consume ring index) s = .next (State.doorbell ring 1 (index % 2 ^ 17) s)) ∧
    (∀ (q d i : Nat) (l : Line) (s : State), s.serving = true → s.mover.ready = true → s.mover.fenced = false → q < 64 →
      (s.queue q).fenced = false → (s.fetchDesc q (d % 1024)).1 = some (i, l) →
      let u := (s.fetchDesc q (d % 1024)).2
      exec (.arm q d) s = .next (if (u.queue q).run.isNone && !(u.queue q).cancelling && (u.queue q).surplus.isEmpty then u.startRun q i l
        else u.onQueue q (fun x => { x with
          slot := some (i, l), rearms := satInc x.rearms, lost := if x.slot.isSome then satInc x.lost else x.lost }))) ∧
    (∀ (q : Nat) (r : Machine.Run) (s : State), s.up = true → s.mover.fenced = false → (s.queue q).run = some r →
      exec (.cancel q) s = .next ((s.cancelQueue q).countCancel r.ctx) ∧
      ((s.cancelQueue q).queue q).cancelling = true ∧ ((s.cancelQueue q).queue q).slot = none ∧ ((s.cancelQueue q).queue q).surplus = []) ∧
    (∀ (q : Nat) (s : State), (s.queue q).run = none → exec (.cancel q) s = .next s) ∧
    (∀ (q : Nat) (s : State), (s.queue q).out ≠ [] → exec (.cancelComplete q) s = .next s) ∧
    (∀ (q : Nat) (s : State), s.up = true → (s.queue q).cancelling = true → (s.queue q).out = [] → (s.queue q).surplus = [] →
      (s.queue q).slot = none →
      exec (.cancelComplete q) s = .next (s.onQueue q (fun x => { x with run := none, cancelling := false }))) ∧
    ∀ s : State, s.reaches = true → exec .movCommit s = .next
      (s.onMover (fun m => { m with queues := m.queues.map (fun q => (q.1, { q.2 with latched := some q.2.shadow })) }))

/-- A semaphore signal adds one, and at 65,535 leaves the value and sets SEM_SAT (12_streams_and_movement.md R431). -/
def Obligations.SemaphoresCountAndSaturate : Prop :=
  (∀ (value : Word) (s : State), s.up = true → (value.getLsbD 9) = true →
      exec (.movSemSig value) s = .next (State.semSignal (bits value.toNat 8 0) s)) ∧
    (∀ (v : Word) (s : State), v.getLsbD 9 = false → exec (.movSemSig v) s = .next s) ∧
    (∀ (v : Word) (s : State), s.up = true → v.getLsbD 9 = true → look 0 s.mover.sems (bits v.toNat 8 0) = 65535#16 →
      exec (.movSemSig v) s = .next (s.onMover (fun m => { m with semSat := true }))) ∧
    ∀ (v : Word) (s : State), s.up = true → v.getLsbD 9 = true → look 0 s.mover.sems (bits v.toNat 8 0) ≠ 65535#16 →
      ∃ m, exec (.movSemSig v) s = .next { s with mover := { s.mover with sems := m } } ∧
        look 0 m (bits v.toNat 8 0) = look 0 s.mover.sems (bits v.toNat 8 0) + 1 ∧
        ∀ j, j ≠ bits v.toNat 8 0 → look 0 m j = look 0 s.mover.sems j

/-- A queue issues the offer of the context whose turn it is and a transfer retires into its count; a dropped one lands nothing
(12_streams_and_movement.md R424, 12_streams_and_movement.md R427, 12_streams_and_movement.md R429, 12_streams_and_movement.md R437).
Points that the spec leaves open stand as the model chose, logged in notes/assumptions/45.md and notes/assumptions/46.md. -/
def Obligations.TransfersIssueAndRetire : Prop :=
  (∀ (queue cycles : Nat) (s : State), s.serving = true → s.mover.ready = true → s.mover.fenced = false → queue < 64 →
      exec (.transferIssue queue cycles) s = .next (
        let s := s.onQueue queue (fun x => { x with bucket := min 196608 (x.bucket + 5 * x.eff.rate.toNat * cycles) })
        if 512 ≤ sumN (s.mover.queues.map (fun q => q.2.out.length)) then s
        else match s.moverTurn with
          | none => s
          | some c => match ((s.offers queue).filter s.offerStands).find? (fun o => o.ctx == c) with
            | some o => s.issueOffer queue o
            | none => s)) ∧
    (∀ (queue id : Nat) (fault : Option Nat) (x : Xfer) (s : State), (s.queue queue).out.find? (fun x => x.id == id) = some x →
      s.up = true → s.mover.fenced = false →
      exec (.transferRetire queue id fault) s = .next (
        match fault with
        | some k =>
          let s := s.midStream queue x k
          if k = 3 then s.fenceChannel queue else s
        | none =>
          if !s.retires x then s
          else
            let s := if x.dropped then s else
              (((s.land queue x).onQueue queue (fun y => { y with bytes := y.bytes + x.len })).onCtx x.ctx (fun c =>
                { c with cnt := { c.cnt with movBytes := c.cnt.movBytes + x.len } }))
            ((s.dropXfer queue id).handOvers queue).runCheck queue)) ∧
    (∀ (q n : Nat) (s : State), s.serving = true → s.mover.ready = true → s.mover.fenced = false → q < 64 →
      let u := s.onQueue q (fun x => { x with bucket := min 196608 (x.bucket + 5 * x.eff.rate.toNat * n) })
      (512 ≤ sumN (u.mover.queues.map (fun q => q.2.out.length)) → exec (.transferIssue q n) s = .next u) ∧
      (sumN (u.mover.queues.map (fun q => q.2.out.length)) < 512 →
        (u.moverTurn = none → exec (.transferIssue q n) s = .next u) ∧
        ∀ (c : Nat) (o : Offer), u.moverTurn = some c → ((u.offers q).filter u.offerStands).find? (fun o => o.ctx == c) = some o →
          exec (.transferIssue q n) s = .next (u.issueOffer q o))) ∧
    (∀ (q id : Nat) (f : Option Nat) (s : State), (s.queue q).out.find? (fun x => x.id == id) = none →
      exec (.transferRetire q id f) s = .next s) ∧
    ∀ (q id : Nat) (x : Xfer) (s : State), s.up = true → s.mover.fenced = false → (s.queue q).out.find? (fun x => x.id == id) = some x →
      s.retires x = true → exec (.transferRetire q id none) s = .next ((((if x.dropped then s else
        ((s.land q x).onQueue q (fun y => { y with bytes := y.bytes + x.len })).onCtx x.ctx (fun c =>
          { c with cnt := { c.cnt with movBytes := c.cnt.movBytes + x.len } })).dropXfer q id).handOvers q).runCheck q)

/-- The chest takes a write into its buffer, refuses a protected one, reads a unit from its page, scans and relocates (11_plan_chest.md
R385, 11_plan_chest.md R391, 11_plan_chest.md R394, 11_plan_chest.md R395, 11_plan_chest.md R403, 11_plan_chest.md R414). Points that
the spec leaves open stand as the model chose, logged in notes/assumptions/43.md, notes/assumptions/44.md and notes/assumptions/122.md. -/
def Obligations.ChestReadsWritesAndScans : Prop :=
  (∀ (addr : Nat) (sys : Bool) (find : ReadFinding) (s : State), s.up = true → s.chest.ready = true → s.chest.fenced = false → (chestOk sys addr 1) = true →
      exec (.chestRead addr sys find) s = .next (if s.chest.buffer.any (fun w => w.unit == unitKey sys addr) then s else s.readUnit (unitKey sys addr) find)) ∧
    (∀ (addr : Nat) (sys : Bool) (data : List Byte) (ctx : Nat) (s : State), s.up = true → s.chest.ready = true → s.chestWritable = true → (chestOk sys addr data.length) = true →
      exec (.chestWrite addr sys data ctx) s = .next (    if protectedAddr sys addr && s.pins.flWp then s.wpRefuse ctx else s.chestPut sys addr data ctx)) ∧
    (∀ (blockSet : Nat) (finds : List ReadFinding) (s : State), s.up = true → s.chest.ready = true → s.chest.fenced = false →
      exec (.relocation blockSet finds) s = .next (
        match s.chest.reloc.find? (fun r => r.1 == blockSet) with
        | some r => s.relocate blockSet r.2 finds
        | none => s.levelWear blockSet finds)) ∧
    (∀ (find : ReadFinding) (s : State), s.dead = false → s.ready = true → s.power ≤ 1 → s.chest.ready = true → s.chest.fenced = false →
      exec (.refreshScan find) s = .next (
        match nextAfter s.chest.scan s.chest.flash.programmed with
        | none => s
        | some n =>
          let b := n / 64
          let s := ((s.onChest (fun c => { c with scan := n })).countRead find).countPages [b]
          if !(failPages find).isEmpty then s.losePage b (n % 64)
          else if s.chest.refreshT < maxBits find ∧ !slotBlock b ∧ !(s.chest.flash.block b).rawUsed then s.queueReloc (setOf b) 1
          else s)) ∧
    (∀ (a : Nat) (sys : Bool) (d : List Byte) (c : Nat) (s : State), s.up = true → s.chest.ready = true → s.chest.readonly_ = false →
      s.chest.fenced = false → chestOk sys a d.length = true → exec (.chestWrite a sys d c) s = .next
        (if protectedAddr sys a && s.pins.flWp then s.wpRefuse c else s.chestPut sys a d c)) ∧
    (∀ (a n : Nat), (chestOk false a n = true ↔ a + n ≤ 16 * 2 ^ 30) ∧ (chestOk true a n = true ↔ a + n ≤ 256 * 2 ^ 20)) ∧
    (∀ (a : Nat) (sys : Bool) (f : ReadFinding) (s : State), s.up = true → s.chest.ready = true → s.chest.fenced = false → chestOk sys a 1 = true →
      exec (.chestRead a sys f) s = .next
        (if s.chest.buffer.any (fun w => w.unit == unitKey sys a) then s else s.readUnit (unitKey sys a) f)) ∧
    (∀ (f : ReadFinding) (n : Nat) (s : State), s.dead = false → s.ready = true → s.power ≤ 1 → s.chest.ready = true →
      s.chest.fenced = false → nextAfter s.chest.scan s.chest.flash.programmed = some n → failPages f = [] → maxBits f ≤ s.chest.refreshT →
      exec (.refreshScan f) s = .next (((s.onChest (fun c => { c with scan := n })).countRead f).countPages [n / 64])) ∧
    (∀ (k : Nat) (g : List ReadFinding) (s : State), s.up = true → s.chest.ready = true → s.chest.fenced = false →
      s.chest.reloc.find? (fun r => r.1 == k) = none → s.chest.flash.wearDue k = false →
      s.chest.flash.stale k = false → exec (.relocation k g) s = .next s) ∧
    (∀ (k : Nat) (g : List ReadFinding) (s : State), s.up = true → s.chest.ready = true → s.chest.fenced = false →
      s.chest.reloc.find? (fun r => r.1 == k) = none → s.chest.flash.wearDue k = false → s.chest.flash.stale k = true →
      s.chest.planeRoom (k / 2560) = true → exec (.relocation k g) s = .next (s.onChest (fun c => c.beginErase (k / 2560)))) ∧
    (∀ (k kind : Nat) (g : List ReadFinding) (s : State), s.chest.reloc.find? (fun r => r.1 == k) = some (k, kind) → s.chest.flash.freshSet = none →
      exec (.relocation k g) s = .next s) ∧
    ∀ (k kind n : Nat) (g : List ReadFinding) (s : State), s.up = true → s.chest.ready = true → s.chest.fenced = false →
      s.chest.reloc.find? (fun r => r.1 == k) = some (k, kind) → s.chest.flash.freshSet = some n →
      (kind = 2 ∨ s.chest.planeRoom (k / 2560) = true) →
      let us := (s.chest.flash.unitsIn k).filter (fun u => !s.chest.flash.lost.contains u)
      let t := s.relocReads us k g
      exec (.relocation k g) s = .next ((t.onFlash (fun f =>
        let f := f.moveTo (us.filter (fun u => !f.lost.contains u)) n
        { (f.unitsIn k).foldl (fun f u => f.retire u) f with free := f.free - 4 })).onChest (fun c =>
            let c := { c with
              reloc := c.reloc.filter (fun r => r.1 != k)
              relDisturb := if kind = 0 then satInc c.relDisturb else c.relDisturb
              relRefresh := if kind = 1 then satInc c.relRefresh else c.relRefresh }
            if t.chest.reloc.any (fun r => r == (k, 2)) then c else c.beginErase (k / 2560)))

/-- A block set that ends its erase is free or joins the bad blocks; a fetch suspends the erasing planes and they resume
(11_plan_chest.md R398, 11_plan_chest.md R404, 11_plan_chest.md R406, 11_plan_chest.md R408, 21_register_reference.md R713). Points
that the spec leaves open stand as the model chose, logged in notes/assumptions/43.md and notes/assumptions/44.md. -/
def Obligations.EraseEndsAndPlanesResume : Prop :=
  (∀ (quad blockSet page : Nat) (failed : List Nat) (s : State), s.up = true →
      exec (.chestWriteDone quad blockSet page failed) s = .next ((s.chestWriteDone quad blockSet page failed).durable.sendWracks.placingCheck.powerEnter)) ∧
    (∀ (addr lat : Nat) (busy : Bool) (s : State), s.up = true → s.chest.ready = true → s.chest.fenced = false →
      exec (.xipFetch addr lat busy) s = .next (
        if s.chest.eff.xipEn && decide (addr < 2 ^ 26) then
          let plane := addr / 2 ^ 25
          let stops := (busy || s.chest.busy.contains plane) && !s.chest.suspended.contains plane
          (s.countPages [s.chest.flash.slotBlk (decide (plane = 1)) (addr % 2 ^ 25)]).onChest (fun c => { c with
            maxlat := if c.maxlat.toNat < lat / 10 then satNat 16 (lat / 10) else c.maxlat
            suspends := if stops then satInc c.suspends else c.suspends
            suspended := if stops then c.suspended ++ [plane] else c.suspended })
        else (s.darkAccess 1))) ∧
    (∀ (plane : Nat) (s : State), s.up = true → s.chest.suspended.contains plane = true →
      exec (.suspendedResume plane) s = .next (State.onChest (fun c => { c with suspended := c.suspended.filter (· != plane) }) s)) ∧
    (∀ (s : State), s.easelRuns = true →
      exec .chsCommit s = .next (State.chsCommit s)) ∧
    (∀ (blockSet : Nat) (failed : List Nat) (s : State),
      let q := blockSet / 2560
      let bs := setBlocks q (blockSet % 2560)
      s.up = true → blockSet < 20480 → (s.chest.busy.any (fun p => p / 4 == q)) = true → (!s.chest.suspended.any (fun p => p / 4 == q)) = true → ((s.chest.flash.unitsIn blockSet).isEmpty) = true → (bs.all (fun b => !slotBlock b)) = true →
      exec (.blockEraseDone blockSet failed) s = .next (
        let s := s.onChest (fun c => { c with busy := c.busy.filter (fun p => p / 4 != q) })
        let s := s.onFlash (fun f => (f.wipe bs).onBlocks bs (fun b => { b with erases := b.erases + 1, reads := 0, pages := [] }))
        if failed.isEmpty then s.onFlash (fun f => { f with free := f.free + 4 }) else s.growBad (someBlocks bs failed))) ∧
    (∀ (k : Nat) (v : List Nat) (s : State), s.up = true → k < 20480 → s.chest.busy.any (fun p => p / 4 == k / 2560) = true →
      s.chest.suspended.any (fun p => p / 4 == k / 2560) = false → s.chest.flash.unitsIn k = [] →
      (setBlocks (k / 2560) (k % 2560)).all (fun b => !slotBlock b) = true →
      let u := (s.onChest (fun c => { c with busy := c.busy.filter (fun p => p / 4 != k / 2560) })).onFlash (fun f =>
        (f.wipe (setBlocks (k / 2560) (k % 2560))).onBlocks (setBlocks (k / 2560) (k % 2560)) (fun b => { b with erases := b.erases + 1, reads := 0, pages := [] }))
      exec (.blockEraseDone k v) s = .next (if v.isEmpty then u.onFlash (fun f => { f with free := f.free + 4 })
        else u.growBad (someBlocks (setBlocks (k / 2560) (k % 2560)) v))) ∧
    (∀ (a lat : Nat) (b : Bool) (s : State), s.up = true → s.chest.ready = true → s.chest.fenced = false → a < 2 ^ 26 →
      let stops := (b || s.chest.busy.contains (a / 2 ^ 25)) && !s.chest.suspended.contains (a / 2 ^ 25)
      (s.chest.eff.xipEn = true → exec (.xipFetch a lat b) s = .next
        ((s.countPages [s.chest.flash.slotBlk (decide (a / 2 ^ 25 = 1)) (a % 2 ^ 25)]).onChest (fun c => { c with
          maxlat := if c.maxlat.toNat < lat / 10 then satNat 16 (lat / 10) else c.maxlat
          suspends := if stops then satInc c.suspends else c.suspends
          suspended := if stops then c.suspended ++ [a / 2 ^ 25] else c.suspended }))) ∧
      (s.chest.eff.xipEn = false → exec (.xipFetch a lat b) s = .next (s.darkAccess 1))) ∧
    (∀ (p : Nat) (s : State), s.up = true → s.chest.suspended.contains p = true → exec (.suspendedResume p) s = .next
      (s.onChest (fun c => { c with suspended := c.suspended.filter (· != p) }))) ∧
    (∀ (q b p : Nat) (v : List Nat) (s : State), s.up = true →
      exec (.chestWriteDone q b p v) s = .next (s.chestWriteDone q b p v).durable.sendWracks.placingCheck.powerEnter) ∧
    (∀ s : State, s.easelRuns = true → (s.chest.eff.service = false ∨ s.chest.shadow.service = true) →
      exec .chsCommit s = .next (s.onChest (fun c => { c with eff := c.shadow }))) ∧
    ∀ s : State, s.easelRuns = false → exec .chsCommit s = .next s

/-- A raw operation runs in the service mode only and ends with its result: read, read raw, program, erase, blank check
(11_plan_chest.md R409, 11_plan_chest.md R410, 11_plan_chest.md R401, 11_plan_chest.md R414). Points that the spec leaves open stand as
the model chose, logged in notes/assumptions/5.md, notes/assumptions/43.md and notes/assumptions/44.md. -/
def Obligations.RawChestOperations : Prop :=
  (∀ (find : ReadFinding) (s : State), s.rawChest = true →
      exec (.read find) s = .next (State.chestRaw1 find s)) ∧
    (∀ (s : State), s.rawChest = true →
      exec .readRaw s = .next (State.chestRaw2 s)) ∧
    (∀ (verified : Bool) (s : State), s.rawChest = true →
      exec (.program verified) s = .next (State.chestRaw3 0 verified s)) ∧
    (∀ (verified : Bool) (s : State), s.rawChest = true →
      exec (.erase verified) s = .next (State.chestRaw4 0 verified s)) ∧
    (∀ (programmedBits : List Nat) (s : State), s.rawChest = true →
      exec (.blankCheck programmedBits) s = .next (State.chestRaw5 programmedBits s)) ∧
    (∀ (f : ReadFinding) (v : Bool) (l : List Nat) (s : State), s.rawChest = false → exec (.read f) s = .next s ∧ exec .readRaw s = .next s ∧
      exec (.program v) s = .next s ∧ exec (.erase v) s = .next s ∧ exec (.blankCheck l) s = .next s) ∧
    ∀ (f : ReadFinding) (v : Bool) (l : List Nat) (s : State), s.rawChest = true →
      (failPages f ≠ [] → exec (.read f) s = .next ((((s.countRead f).countPages [s.chest.rawBlk]).losePage s.chest.rawBlk s.chest.rawPage.toNat).onChest
        (fun c => c.rawEnd 3 63 false))) ∧
      (failPages f = [] → exec (.read f) s = .next (((s.countRead f).countPages [s.chest.rawBlk]).onChest (fun c =>
        (c.fillRaw (c.flash.page c.rawBlk c.rawPage.toNat)).rawEnd 0 (maxBits f) false))) ∧
      exec .readRaw s = .next ((s.countPages [s.chest.rawBlk]).onChest (fun c =>
        (c.fillRaw (c.flash.codewords c.rawBlk c.rawPage.toNat)).rawEnd 0 0 false)) ∧
      (∀ (g : Flash) (b p : Nat), g.codewords b p = (List.range 4).flatMap (fun k =>
        ((g.page b p).drop (1024 * k)).take 1024 ++ g.extra b p k (((g.page b p).drop (1024 * k)).take 1024))) ∧
      (s.rawProtected = true → exec (.erase v) s = .next ((s.wpRefuse 0).onChest (fun c => c.rawEnd 2 0 false)) ∧
        exec (.program v) s = .next ((s.wpRefuse 0).onChest (fun c => c.rawEnd 2 0 false))) ∧
      (s.rawProtected = false → exec (.erase v) s = .next (
        let u := s.onFlash (fun f => f.eraseBlock s.chest.rawBlk)
        if !s.chest.rawAllowed then s.onChest (fun c => c.rawEnd 2 0 false)
        else if v then u.onChest (fun c => c.rawEnd 0 0 false)
        else (u.growBad [s.chest.rawBlk]).onChest (fun c => c.rawEnd 4 0 false))) ∧
      (s.rawProtected = false → s.chest.rawWritten = true → exec (.program v) s = .next (
        s.onChest (fun c => c.rawEnd (if s.chest.rawAllowed then 1 else 2) 0 false))) ∧
      exec (.blankCheck l) s = .next ((s.countPages [s.chest.rawBlk]).onChest (fun c => c.rawEnd 0 0 (l.all (fun b => decide (b ≤ 8)))))

/-- A module in training becomes active at its rate or goes down, a down one tries again, and a lost supply resets it (13_host_link.md
R453, 13_host_link.md R455, 13_host_link.md R462, 20_physical.md R696, 20_physical.md R705). Points that the spec leaves open stand as
the model chose, logged in notes/assumptions/49.md. -/
def Obligations.ModulesTrainAndLeave : Prop :=
  (∀ (m : ModId) (rate : BitVec 2) (s : State), (modExists m) = true → s.mayTrain m = true → (((s.modOf m).st == .training || (s.modOf m).st == .retrain)) = true →
      exec (.moduleActive m rate) s = .next (
        let max := match m with | .hl _ => s.link.eff.maxrate | .fab _ => s.fab.rate
        let more := (s.modOf m).again
        let s := s.onMod m (fun x => { x with st := .active, rate := if max < rate then max else rate, again := false })
        let s := if more then s.retrain m else s
        match m with
        | .hl _ => ((s.linkTurns).onLink HostLink.flush).wakeRecord
        | .fab p => s.sendEnum p)) ∧
    (∀ (m : ModId) (s : State), (modExists m) = true → s.dead = false → (((s.modOf m).st == .training || (s.modOf m).st == .retrain)) = true →
      exec (.trainingTimeout m) s = .next (    (s.onMod m (fun x => { x with st := .down, rate := 0 })).linkTurns)) ∧
    (∀ (m : ModId) (s : State), (modExists m) = true → s.mayTrain m = true → (s.modOf m).st = .down →
      exec (.trainingRetry m) s = .next (State.train m s)) ∧
    (∀ (hl : Nat) (s : State), s.dead = false → hl < 2 →
      exec (.linkManagementRequest hl) s = .next (State.retrain (ModId.hl hl) s)) ∧
    (∀ (m : ModId) (s : State), (modExists m) = true → s.dead = false →
      exec (.vddqLoss m) s = .next (((s.modReset m).onMod m (fun x => { x with vddq := false })).linkTurns)) ∧
    (∀ (m : ModId) (s : State), (modExists m) = true → s.dead = false → (s.modOf m).vddq = false →
      exec (.vddqReturn m) s = .next (
        let s := s.onMod m (fun x => { x with vddq := true })
        if s.mayTrain m && (s.modOf m).st == .reset then s.train m else s)) ∧
    (∀ (m : ModId) (r : BitVec 2) (s : State), modExists m = true → s.mayTrain m = true → (s.modOf m).again = false →
      ((s.modOf m).st = .training ∨ (s.modOf m).st = .retrain) →
      let u (max : BitVec 2) := s.onMod m (fun x => { x with st := .active, rate := if max < r then max else r, again := false })
      exec (.moduleActive m r) s = .next (match m with
        | .hl _ => ((u s.link.eff.maxrate).linkTurns.onLink HostLink.flush).wakeRecord
        | .fab p => (u s.fab.rate).sendEnum p)) ∧
    (∀ (m : ModId) (s : State), modExists m = true → s.dead = false → ((s.modOf m).st = .training ∨ (s.modOf m).st = .retrain) →
      exec (.trainingTimeout m) s = .next (s.onMod m (fun x => { x with st := .down, rate := 0 })).linkTurns) ∧
    (∀ (m : ModId) (s : State), (s.modOf m).st = .active ∨ (s.modOf m).st = .down ∨ (s.modOf m).st = .reset →
      exec (.trainingTimeout m) s = .next s) ∧
    (∀ (m : ModId) (s : State), modExists m = true → s.mayTrain m = true → (s.modOf m).st = .down →
      exec (.trainingRetry m) s = .next (s.onMod m (fun x => { x with st := .training }))) ∧
    (∀ (n : Nat) (s : State), s.dead = false → n < 2 →
      exec (.linkManagementRequest n) s = .next (if (s.modOf (.hl n)).st = .active then s.retrain (.hl n) else s)) ∧
    (∀ (m : ModId) (s : State), modExists m = true → s.dead = false →
      exec (.vddqLoss m) s = .next ((s.modReset m).onMod m (fun x => { x with vddq := false })).linkTurns) ∧
    ∀ (m : ModId) (s : State), modExists m = true → s.dead = false → (s.modOf m).vddq = false →
      let u := s.onMod m (fun x => { x with vddq := true })
      exec (.vddqReturn m) s = .next (if u.mayTrain m && (u.modOf m).st == .reset then u.train m else u)

/-- When RESET_N is deasserted with power good the straps are taken and training begins (19_boot_firmware_security.md R647,
13_host_link.md R453, 16_fabric.md R564). Points that the spec leaves open stand as the model chose, logged in notes/assumptions/2.md
and notes/assumptions/58.md. -/
def Obligations.ResetReleaseLatchesTheStraps : Prop :=
  (∀ (strap : BitVec 4) (vddq : BitVec 6) (s : State), s.boot.held = true → s.pins.pwrGood = true →
      exec (.resetNDeassert strap vddq) s = .next (
        let s := (s.onBoot (fun b => { b with held := false })).onPins (fun p => { p with resetN := true, straps := strap })
        let s := s.onFab (fun f => { f with strap := strap, selfAddr := strap.toNat % 4 })
        let s := (List.range 6).foldl (fun s i =>
          s.onMod (if i < 2 then .hl i else .fab (i - 2)) (fun x => { x with vddq := vddq.getLsbD i })) s
        each (if s.manager then [.hl 0, .hl 1] else [.fab 0]) (fun m s => if s.mayTrain m then s.train m else s) s)) ∧
    (∀ (k : BitVec 4) (v : BitVec 6) (s : State), (s.boot.held = false ∨ s.pins.pwrGood = false) → exec (.resetNDeassert k v) s = .next s) ∧
    ∀ (k : BitVec 4) (v : BitVec 6) (s : State), s.boot.held = true → s.pins.pwrGood = true →
      ∃ t, exec (.resetNDeassert k v) s = .next t ∧ t = { s with boot := { s.boot with held := false }, link := t.link, fab := t.fab, pins := { s.pins with resetN := true, straps := k } } ∧
        t.fab.strap = k ∧ t.fab.selfAddr = k.toNat % 4 ∧ t.manager = k.getLsbD 3 ∧
        (t.manager = true → t.link.hl0.vddq = v.getLsbD 0 ∧ t.link.hl1.vddq = v.getLsbD 1)

/-- The four doorbells ring their ring, a doorbell before the part is ready and an unknown sideband message only count (13_host_link.md
R456, 13_host_link.md R463, 13_host_link.md R465, 13_host_link.md R474, 13_host_link.md R475). -/
def Obligations.DoorbellsAndSideband : Prop :=
  (∀ (mask : Half) (s : State), s.dead = false → s.manager = true → s.power < 2 →
      exec (.hlkUrgDb mask) s = .next (State.urgDb mask s)) ∧
    (∀ (s : State), s.reaches = true →
      exec .hlkCommit s = .next (State.hlkCommit s)) ∧
    (∀ (hl : Nat) (vendor : Half) (code : Byte) (s : State), s.dead = false → s.manager = true → hl < 2 → ((vendor != 0x5C31 || code == 0 || 3 < code)) = true →
      exec (.sidebandMessageIgnored hl vendor code) s = .next (State.onLink (fun l => { l with dbIgnored := satInc l.dbIgnored }) s)) ∧
    (∀ (r i op : Nat) (s : State), s.dead = false → s.manager = true → s.power < 2 → r < 32768 → s.ready = true → op < 4 →
      exec (match op with | 0 => .produce r i | 1 => .consume r i | 2 => .enable r | _ => .disable r) s =
        .next (s.ringBell r op (if op < 2 then i % 131072 else 0))) ∧
    (∀ (r i op : Nat) (s : State), s.dead = false → s.manager = true → s.power < 2 → r < 32768 → s.ready = false → op < 4 →
      exec (match op with | 0 => .produce r i | 1 => .consume r i | 2 => .enable r | _ => .disable r) s =
        .next (s.onLink (fun l => { l with dbIgnored := satInc l.dbIgnored }))) ∧
    (∀ (m : Half) (s : State), s.dead = false → s.manager = true → s.power < 2 →
      let u := each ((List.range 16).filter (fun n => m.getLsbD n)) State.urgBit s
      exec (.hlkUrgDb m) s = .next (if !s.ready then s.onLink (fun l => { l with dbIgnored := satInc l.dbIgnored })
        else if u.link.urgPending = 0 then u else (u.onPal (fun p => { p with urgent := true })).testerCheck)) ∧
    (∀ (n : Nat) (v : Half) (c : Byte) (s : State), s.dead = false → s.manager = true → n < 2 → (v ≠ 0x5C31 ∨ c = 0 ∨ 3 < c) →
      exec (.sidebandMessageIgnored n v c) s = .next (s.onLink (fun l => { l with dbIgnored := satInc l.dbIgnored }))) ∧
    ∀ s : State, s.reaches = true → exec .hlkCommit s = .next
      (s.onLink (fun l => { l with eff := l.shadow, hl0 := { l.hl0 with turn := true }, hl1 := { l.hl1 with turn := true } })).linkTurns

/-- An ACK frees what it covers, a NAK or a late ACK replays, and a bad frame is counted and answered with NAK (13_host_link.md R457,
13_host_link.md R458, 13_host_link.md R459, 13_host_link.md R460, 16_fabric.md R573). Points that the spec leaves open stand as the
model chose, logged in notes/assumptions/49.md. -/
def Obligations.FramesAreAcknowledgedAndReplayed : Prop :=
  (∀ (link : LinkId) (good : Bool) (seq : Half) (credit : List Nat) (s : State), s.carries link = true →
      exec (.ack link good seq credit) s = .next (
        if !good then s.discardFrame link
        else match link with
          | .host => s.onLink (fun l => ({ l with tx := freeUpto TxFrame.sent TxFrame.seq seq l.tx } : HostLink).flush)
          | .fab p => s.onPort p (fun x => Port.drain (x.wait.length + 1) { x with
              tx := freeUpto (fun _ => true) WFrame.seq seq x.tx, credit := (List.range 5).map (fun v => x.credit.getD v 0 + credit.getD v 0) }))) ∧
    (∀ (link : LinkId) (good : Bool) (seq : Half) (s : State), s.carries link = true →
      exec (.nak link good seq) s = .next (
        if !good then s.discardFrame link
        else match link with | .host => s.replayHost seq | .fab p => s.replayFab p seq)) ∧
    (∀ (link : LinkId) (seq : Half) (s : State), s.carries link = true →
      exec (.replayTimeout link seq) s = .next (match link with | .host => s.replayHost seq | .fab p => s.replayFab p seq)) ∧
    (∀ (s : State), s.dead = false → s.manager = true → s.link.hl0.st ≠ .active → s.link.hl1.st ≠ .active →
      exec .linkDownTimeout s = .next (s.unrecover (s.link.tx.filter (·.sent)))) ∧
    (∀ (g : Bool) (n : Half) (cr : List Nat) (s : State), s.carries .host = true →
      exec (.ack .host g n cr) s = .next (if g then s.onLink (fun l => ({ l with tx := freeUpto TxFrame.sent TxFrame.seq n l.tx } : HostLink).flush)
        else s.discardFrame .host) ∧
      exec (.nak .host g n) s = .next (if g then s.replayHost n else s.discardFrame .host) ∧
      exec (.replayTimeout .host n) s = .next (s.replayHost n)) ∧
    (∀ (p : Nat) (n : Half) (cr : List Nat) (s : State), s.carries (.fab p) = true →
      exec (.ack (.fab p) true n cr) s = .next (s.onPort p (fun x => Port.drain (x.wait.length + 1) { x with
          tx := freeUpto (fun _ => true) WFrame.seq n x.tx, credit := (List.range 5).map (fun v => x.credit.getD v 0 + cr.getD v 0) })) ∧
      exec (.ack (.fab p) false n cr) s = .next (s.discardFrame (.fab p)) ∧
      exec (.nak (.fab p) true n) s = .next (s.replayFab p n) ∧
      exec (.replayTimeout (.fab p) n) s = .next (s.replayFab p n)) ∧
    (∀ s : State, (s.discardFrame .host).link.errCrc = satInc s.link.errCrc ∧
      ((s.discardFrame .host).layer .host).naks = (s.layer .host).naks + 1) ∧
    ∀ s : State, s.dead = false → s.manager = true → s.link.hl0.st ≠ .active → s.link.hl1.st ≠ .active →
      exec .linkDownTimeout s = .next (s.unrecover (s.link.tx.filter (·.sent)))

/-- A good frame in sequence is acknowledged and served; a duplicate or a bad one is not (13_host_link.md R457, 13_host_link.md R458,
13_host_link.md R463, 13_host_link.md R464). -/
def Obligations.HostFramesAreCheckedAndServed : Prop :=
  (∀ (rx : Rx) (id : Nat) (data : List Byte) (s : State), (s.carries .host) = true →
      exec (.mrdc rx id data) s = .next (
        let r := s.checkFrame .host rx
        if !r.1 then r.2
        else match r.2.link.reads.find? (fun x => x.id == id) with
          | none => r.2
          | some x => (r.2.onLink (fun l => { l with reads := l.reads.filter (fun y => y.id != id) })).readReply x.by_ data)) ∧
    (∀ (rx : Rx) (off : Nat) (data : List Byte) (resp : Bool) (portB : List PortB) (s : State), s.hostReach = true →
      exec (.cwr rx off data resp portB) s = .next (
        let c := s.checkFrame .host rx
        if !c.1 then c.2
        else
          let r := c.2.writeSpace off data portB
          if resp then r.2.send (.cwrResp r.1.status r.1.busy) .control else r.2)) ∧
    (∀ (rx : Rx) (off len : Nat) (portB : List PortB) (s : State), s.hostReach = true →
      exec (.crd rx off len portB) s = .next (
        let c := s.checkFrame .host rx
        if !c.1 then c.2
        else
          let r := c.2.readSpace off len portB
          r.2.send (.crdc r.1.status r.1.busy r.1.data) .control)) ∧
    (∀ (x : Rx) (i : Nat) (d : List Byte) (o : HostRead) (s : State), s.carries .host = true → x.good = true → x.seq = (s.layer .host).rxNext →
      s.link.reads.find? (fun y => y.id == i) = some o →
      let u := s.onLayer .host (fun y => { y with rxNext := y.rxNext + 1, acks := y.acks + 1 })
      exec (.mrdc x i d) s = .next ((u.onLink (fun l => { l with reads := l.reads.filter (fun y => y.id != i) })).readReply o.by_ d)) ∧
    (∀ (x : Rx) (o n : Nat) (d : List Byte) (w : Bool) (b : List PortB) (s : State), s.hostReach = true → x.good = true →
      x.seq = (s.layer .host).rxNext →
      let u := s.onLayer .host (fun y => { y with rxNext := y.rxNext + 1, acks := y.acks + 1 })
      exec (.cwr x o d w b) s = .next (if w then (u.writeSpace o d b).2.send (.cwrResp (u.writeSpace o d b).1.status (u.writeSpace o d b).1.busy) .control
        else (u.writeSpace o d b).2) ∧
      exec (.crd x o n b) s = .next ((u.readSpace o n b).2.send
        (.crdc (u.readSpace o n b).1.status (u.readSpace o n b).1.busy (u.readSpace o n b).1.data) .control)) ∧
    ∀ (x : Rx) (i o n : Nat) (d : List Byte) (w : Bool) (b : List PortB) (s : State), s.carries .host = true → s.hostReach = true →
      (x.good = true ∧ x.seq ≠ (s.layer .host).rxNext ∧ ((s.layer .host).rxNext - x.seq).toNat ≤ 32768 →
        exec (.mrdc x i d) s = .next s ∧ exec (.cwr x o d w b) s = .next s ∧ exec (.crd x o n b) s = .next s) ∧
      (x.good = false → exec (.mrdc x i d) s = .next (s.discardFrame .host) ∧
        exec (.cwr x o d w b) s = .next (s.discardFrame .host) ∧ exec (.crd x o n b) s = .next (s.discardFrame .host))

/-- A link lost for 250 ms fences every bound context, empties what Easel holds and disables its rings (17_containment.md R615,
13_host_link.md R475). Points that the spec leaves open stand as the model chose, logged in notes/assumptions/50.md. -/
def Obligations.ALostLinkFencesEveryContext : Prop :=
  (∀ (s : State), s.up = true → s.manager = true → s.link.hl0.st ≠ .active → s.link.hl1.st ≠ .active →
      exec .linkLossTimeout s = .next (State.linkLoss s)) ∧
    (∀ s : State, s.up = true → s.manager = true → s.link.hl0.st ≠ .active → s.link.hl1.st ≠ .active →
      ∃ t, exec .linkLossTimeout s = .next t ∧ t.easel.waiting = [] ∧ t.easel.tasks = [] ∧ t.easel.urgentPosts = [] ∧
        t = s.linkLoss ∧ t.pending = s.pending ∧ t.dbg = s.dbg) ∧
    ∀ s : State, s.link.hl0.st = .active ∨ s.link.hl1.st = .active → exec .linkLossTimeout s = .next s

/-- A command row takes the header that Easel takes next, and no other (13_host_link.md R473, 13_host_link.md R481, 14_command_set.md
R529, 17_containment.md R616, 16_fabric.md R578). Points that the spec leaves open stand as the model chose, logged in
notes/assumptions/52.md. -/
def Obligations.AHeaderIsTakenForItsRow : Prop :=
  (∀ (p : Packet) (ok : Line → Bool) (s : State), Safety.Taken s p ok →
      ∃ t u, s.take p ok = (some t, u) ∧ t.cmd.hdr = p.hdr ∧ t.cmd.seq = s.easel.nextSeq ∧ u.easel.nextSeq = s.easel.nextSeq + 1 ∧
        u.easel.taken = s.easel.taken + 1 ∧ u.easel.tasks = s.easel.tasks ∧ u.easel.waiting = s.easel.waiting ∧
        u.easel.ctxs = s.easel.ctxs ∧
        u = { s with easel := u.easel, link := u.link, fab := u.fab, mover := u.mover }) ∧
    ∀ (p : Packet) (r : List Byte) (s : State), (∀ h, s.nextHeader = some h → h.ring ≠ p.ring ∨ h.hdr ≠ p.hdr) →
      exec (.unsupported p) s = .next s ∧ exec (.ctxOpen p) s = .next s ∧ exec (.ctxBind p) s = .next s ∧
      exec (.objWrite p r) s = .next s ∧ exec (.modelStage p r) s = .next s ∧ exec (.panelProgram p) s = .next s ∧
      exec (.runSlice p 1) s = .next s ∧ exec (.fwStage p) s = .next s ∧ exec (.fabJoin p) s = .next s

/-- An undefined opcode completes with status UNSUPPORTED, and a context opens, closes or has the command not performed
(14_command_set.md R489, 14_command_set.md R500, 14_command_set.md R503, 14_command_set.md R506). Points that the spec leaves open
stand as the model chose, logged in notes/assumptions/75.md. -/
def Obligations.UnsupportedAndNotPerformed : Prop :=
  (∀ (p : Packet) (t : Machine.Taken) (u s : State), s.take p (fun h => !knownOp (hdrOp h) || (!s.manager && (hdrOp h == 0x60 || hdrOp h == 0x61))) = (some t, u) → exec (.unsupported p) s = .next (u.complete t.cmd 8 0 0 [])) ∧
    (∀ (p : Packet) (t : Machine.Taken) (u s : State), s.take p (isOp 0x01) = (some t, u) → exec (.ctxOpen p) s = .next (State.ctxOpen t u)) ∧
    (∀ (p : Packet) (t : Machine.Taken) (u s : State), s.take p (isOp 0x03) = (some t, u) → exec (.ctxClose p) s = .next (State.ctxClose t u)) ∧
    (∀ (p : Packet) (t : Machine.Taken) (u s : State),
      s.take p (fun h => !knownOp (hdrOp h) || (!s.manager && (hdrOp h == 0x60 || hdrOp h == 0x61))) = (some t, u) →
      exec (.unsupported p) s = .next (u.complete t.cmd 8 0 0 [])) ∧
    (∀ (p : Packet) (t : Machine.Taken) (u s : State), s.take p (isOp 0x01) = (some t, u) →
      ((u.ctx t.ctx).st = .closed → exec (.ctxOpen p) s = .next (((u.onCtx t.ctx (fun _ =>
        { st := .open_, even := t.f 143 143 == 1, evq := BitVec.ofNat 15 (t.f 142 128) })).clamps t (t.lengthClamp 0)).complete t.cmd 0 0 0 [])) ∧
      ((u.ctx t.ctx).st ≠ .closed → exec (.ctxOpen p) s = .next ((u.clamps t (t.lengthClamp 0)).notPerformed t.cmd))) ∧
    ∀ (p : Packet) (t : Machine.Taken) (u s : State), s.take p (isOp 0x03) = (some t, u) →
      let v := u.clamps t (t.lengthClamp 0)
      ((v.ctx t.ctx).st = .open_ ∨ (v.ctx t.ctx).st = .bound → exec (.ctxClose p) s = .next ((v.onCtx t.ctx (fun x =>
        { x with st := .closing, next := none, closeCmd := some t.cmd, closeFence := true })).fenceCtx t.ctx)) ∧
      ((v.ctx t.ctx).st = .closed ∨ (v.ctx t.ctx).st = .closing → exec (.ctxClose p) s = .next (v.notPerformed t.cmd))

/-- CTX_BIND needs an open context with a staged map, and makes it bound; an ABORT fences a bound context and completes at its boundary
(14_command_set.md R504, 02_tick_and_budgets.md R57, 02_tick_and_budgets.md R70, 02_tick_and_budgets.md R72, 14_command_set.md R518,
13_host_link.md R480). Points that the spec leaves open stand as the model chose, logged in notes/assumptions/55.md and
notes/assumptions/56.md. -/
def Obligations.BindAndAbort : Prop :=
  (∀ (p : Packet) (t : Machine.Taken) (u s : State), s.take p (isOp 0x02) = (some t, u) → exec (.ctxBind p) s = .next (State.ctxBind t u)) ∧
    ((∀ (p : Packet) (n : Nat) (s : State), s.serving = true → s.manager = true → exec (.abort p (some n)) s = .next (s.urgentAbort n)) ∧
      ∀ (p : Packet) (t : Machine.Taken) (u s : State), s.take p (isOp 0x32) = (some t, u) →
      exec (.abort p none) s = .next ((u.clamps t (t.lengthClamp 0)).abort t.cmd)) ∧
    (∀ (ctx : Nat) (s : State), s.serving = true → (s.ctx ctx).abortCmds.isEmpty = false → s.atBoundary ctx = true →
      exec (.abortCompletion ctx) s = .next (State.abortDone ctx s)) ∧
    (∀ (p : Packet) (t : Machine.Taken) (u s : State), s.take p (isOp 0x02) = (some t, u) →
      (u.ctx t.ctx).st = .closed ∨ (u.ctx t.ctx).st = .closing ∨ (u.ctx t.ctx).st = .open_ ∧ (u.ctx t.ctx).maps.a = none →
      ∃ ws, exec (.ctxBind p) s = .next ((u.clamps t ws).notPerformed t.cmd)) ∧
    (∀ (p : Packet) (t : Machine.Taken) (u s : State), s.take p (isOp 0x02) = (some t, u) → (u.ctx t.ctx).st = .bound → t.f 129 128 = 1 →
      let top := u.tick.nextSlices - 1
      let w := if t.f 148 136 = 0 then 128 else clampN 16 4096 (t.f 148 136)
      ∃ (ws : List Nat) (fb : Fallback), let v := u.clamps t ws
        let z := ((v.onCtx t.ctx (fun y => { y with st := .bound, next := some { realtime := false, d := min (t.f 135 130) top, w := 16 * w, fb := fb, budget := (u.admission t false).1 }, maps := { y.maps with everBound := true } })).noteEst).fitPool
        exec (.ctxBind p) s = .next (z.complete t.cmd 0 (z.tick.count + 1).toNat 0 [])) ∧
    (∀ (p : Packet) (t : Machine.Taken) (u s : State), s.take p (isOp 0x32) = (some t, u) →
      exec (.abort p none) s = .next ((u.clamps t (t.lengthClamp 0)).abort t.cmd)) ∧
    (∀ (c : Cmd) (s : State), (s.ctx (hdrCtx c.hdr)).st = .bound → (s.ctx (hdrCtx c.hdr)).abortCmds = [] →
      s.abort c = (s.fenceCtx (hdrCtx c.hdr)).onCtx (hdrCtx c.hdr) (fun y => { y with abortCmds := y.abortCmds ++ [c] })) ∧
    ∀ (c : Nat) (s : State), (s.serving = true → (s.ctx c).abortCmds ≠ [] → s.atBoundary c = true →
        exec (.abortCompletion c) s = .next (s.abortDone c)) ∧
      ((s.ctx c).abortCmds = [] → exec (.abortCompletion c) s = .next s)

/-- An object takes the fields of its definition; one that a bound context names is not redefined; an undefined one gives back all it
holds (14_command_set.md R507, 14_command_set.md R508, 10_tiers_and_swatches.md R350, 10_tiers_and_swatches.md R351,
10_tiers_and_swatches.md R352). Points that the spec leaves open stand as the model chose, logged in notes/assumptions/40.md and
notes/assumptions/47.md. -/
def Obligations.ObjectsAreDefinedAndPlaced : Prop :=
  (∀ (p : Packet) (t : Machine.Taken) (u s : State), s.take p (fun h => isOp 0x10 h && hdrBits h 9 9 == 0) = (some t, u) → exec (.objDefine p) s = .next (State.objDefine t u)) ∧
    (∀ (p : Packet) (t : Machine.Taken) (u s : State), s.take p (fun h => isOp 0x10 h && hdrBits h 9 9 == 1) = (some t, u) → exec (.objDefineUndef p) s = .next (State.objUndefine t u)) ∧
    (∀ (p : Packet) (t : Machine.Taken) (u s : State), s.take p (isOp 0x13) = (some t, u) → exec (.objPlace p) s = .next (State.objPlace t u)) ∧
    (∀ (p : Packet) (t : Machine.Taken) (u s : State), s.take p (fun h => isOp 0x10 h && hdrBits h 9 9 == 0) = (some t, u) →
      (∀ b : Obj, u.obj (t.f 147 128) = some b → 0 < b.ref → ∃ ws, exec (.objDefine p) s = .next ((u.clamps t ws).notPerformed t.cmd)) ∧
      (u.obj (t.f 147 128) = none → homeField (t.f 180 178) = 3 → 0 < t.f 177 148 → u.serviceBars 3 = false → u.serviceBars 0 = false →
        let d := u.dropObj (t.f 147 128)
        let r := d.recordBank (t.f 147 128)
        let n := d.homeSize 3 (t.f 255 192) (t.f 177 148)
        r.1 = true → n ≠ 0 → ∃ (ws : List Nat) (base : Nat), exec (.objDefine p) s = .next (State.settle ((r.2.clamps t ws).onSw (fun w => { w with
          objs := putRaw (t.f 147 128) { home := 3, allow := BitVec.ofNat 5 (t.f 185 181), dclass := BitVec.ofNat 2 (classField (t.f 187 186)), pin := t.f 188 188 == 1, ro := t.f 189 189 == 1, size := n, base := BitVec.ofNat 64 base, master := BitVec.ofNat 64 (t.f 319 256) } w.objs
          placing := w.placing ++ [{ cmd := t.cmd, obj := t.f 147 128 }] }))))) ∧
    (∀ (p : Packet) (t : Machine.Taken) (u s : State), s.take p (fun h => isOp 0x10 h && hdrBits h 9 9 == 1) = (some t, u) →
      let v := u.clamps t (t.lengthClamp 0)
      (v.obj (t.f 147 128) = none → exec (.objDefineUndef p) s = .next (v.complete t.cmd 0 (t.f 147 128) 0 [])) ∧
      ∀ b : Obj, v.obj (t.f 147 128) = some b →
        (0 < b.ref → exec (.objDefineUndef p) s = .next (v.notPerformed t.cmd)) ∧
        (¬ 0 < b.ref → v.serviceBars b.home.toNat = false → exec (.objDefineUndef p) s = .next
          (((((v.dropObj (t.f 147 128)).onSw (fun w => { w with objs := eraseKey (t.f 147 128) w.objs })).clearHome b).freeRecord
            (t.f 147 128)).complete t.cmd 0 (t.f 147 128) 0 []))) ∧
    ∀ (p : Packet) (t : Machine.Taken) (u s : State), s.take p (isOp 0x13) = (some t, u) →
      (u.obj (t.f 147 128) = none → ∃ ws, exec (.objPlace p) s = .next ((u.clamps t ws).notPerformed t.cmd)) ∧
      ∀ b : Obj, u.obj (t.f 147 128) = some b → b.home.toNat = homeField (t.f 180 178) → u.serviceBars b.home.toNat = false →
        b.home.toNat ≤ 2 → ∃ ws, exec (.objPlace p) s = .next (State.settle (State.sendAway
            (((u.clamps t ws).fitPool.onObj (t.f 147 128) (fun x => { x with
              allow := BitVec.ofNat 5 (t.f 185 181), dclass := BitVec.ofNat 2 (classField (t.f 187 186)), pin := t.f 188 188 == 1
              master := BitVec.ofNat 64 (t.f 319 256) })).onSw (fun w => { w with
                placing := w.placing ++ [{ cmd := t.cmd, obj := t.f 147 128, left := [], oldHome := b.home, oldBase := b.base, pins := t.f 188 188 == 1 }] }))))

/-- OBJ_WRITE stores its swatches and completes when they are durable, OBJ_READ returns its bytes with the status of the worst swatch
(14_command_set.md R509, 14_command_set.md R510, 14_command_set.md R495, 10_tiers_and_swatches.md R373, 10_tiers_and_swatches.md R374,
11_plan_chest.md R389). Points that the spec leaves open stand as the model chose, logged in notes/assumptions/38.md,
notes/assumptions/39.md and notes/assumptions/73.md. -/
def Obligations.ObjectDataIsWrittenAndRead : Prop :=
  (∀ (p : Packet) (remote : List Byte) (t : Machine.Taken) (u s : State), s.take p (isOp 0x11) = (some t, u) → exec (.objWrite p remote) s = .next (State.objWrite remote t u)) ∧
    (∀ (p : Packet) (remote : List Byte) (t : Machine.Taken) (u s : State), s.take p (isOp 0x12) = (some t, u) → exec (.objRead p remote) s = .next (State.objRead remote t u)) ∧
    (∀ (p : Packet) (r : List Byte) (t : Machine.Taken) (u s : State), s.take p (isOp 0x11) = (some t, u) → t.f 9 9 = 0 →
      let off := t.f 191 148 / 64 * 64
      let v := u.clamps t (bad (t.f 191 148 != off) 148)
      (v.obj (t.f 147 128) = none → exec (.objWrite p r) s = .next (v.notPerformed t.cmd)) ∧
      ∀ b : Obj, v.obj (t.f 147 128) = some b → v.serviceBars b.home.toNat = false →
        (b.home = 4 → v.chestWritable = false → exec (.objWrite p r) s = .next (v.complete t.cmd 3 0 0 [])) ∧
        let items := v.writeItems (t.f 147 128) b.size off t.payload r
        let bytes := sumN (items.map (fun x => x.2.2.2.2))
        ((b.home = 1 ∨ b.home = 3) → t.payload.length ≤ bytes → exec (.objWrite p r) s = .next
          (((each items (fun x s => s.storeSwatch t.cmd (t.f 147 128) x.1 x.2.2.2.1 x.2.1 x.2.2.1) (v.readParts (t.f 147 128) off items r)).onChest (fun c =>
            { c with waits := c.waits ++ [(t.cmd, bytes / 64)] })).durable))) ∧
    (∀ (p : Packet) (r : List Byte) (t : Machine.Taken) (b : Obj) (u s : State), s.take p (isOp 0x11) = (some t, u) → t.f 9 9 = 1 →
      t.payload.length % 16448 = 0 →
      let off := t.f 191 148 / 16384 * 16384
      let v := u.clamps t (bad (t.f 191 148 != off) 148)
      let items := tagItems b.size off t.payload
      let bytes := sumN (items.map (fun x => x.2.2.2.2))
      v.obj (t.f 147 128) = some b → v.serviceBars b.home.toNat = false → (b.home = 1 ∨ b.home = 3) → t.payload.length ≤ bytes →
        exec (.objWrite p r) s = .next (((each items (fun x s => s.storeSwatch t.cmd (t.f 147 128) x.1 x.2.2.2.1 x.2.1 x.2.2.1) v).onChest
          (fun c => { c with waits := c.waits ++ [(t.cmd, bytes / 64)] })).durable)) ∧
    ∀ (p : Packet) (r : List Byte) (t : Machine.Taken) (u s : State), s.take p (isOp 0x12) = (some t, u) →
      let off := t.f 191 148 / 64 * 64
      let len := clampN 64 4194304 ((t.f 214 192 + 63) / 64 * 64)
      let v := u.clamps t (bad (t.f 191 148 != off) 148 ++ bad (t.f 214 192 != len) 192 ++ t.lengthClamp 0)
      (v.obj (t.f 147 128) = none → v.trained (t.f 147 128) = none → exec (.objRead p r) s = .next (v.notPerformed t.cmd)) ∧
      (∀ bs, v.obj (t.f 147 128) = none → v.trained (t.f 147 128) = some bs → len ≤ v.dataLimit t.cmd →
        exec (.objRead p r) s = .next (v.readTrained t.cmd bs off len)) ∧
      ∀ b : Obj, v.obj (t.f 147 128) = some b → v.serviceBars b.home.toNat = false → len ≤ v.dataLimit t.cmd →
        off + len ≤ b.size * 16384 →
        let d := State.readSwatches (t.f 147 128) (off / 16384) r
          ((List.range ((off + len + 16383) / 16384 - off / 16384)).map (off / 16384 + ·)) v
        exec (.objRead p r) s = .next (d.2.2.2.complete t.cmd (if d.2.1 then 4 else if d.2.2.1 then 6 else 0) (len / 64) 0
          (slice (slice d.1 (off % 16384) len) 0 len))

/-- A checked manifest becomes the staged map of its context; a switch of a bound context with a staged map waits for its boundary
(14_command_set.md R511, 15_models_and_weights.md R536, 15_models_and_weights.md R547, 05_writing_panels.md R171, 05_writing_panels.md
R176, 15_models_and_weights.md R561). Points that the spec leaves open stand as the model chose, logged in notes/assumptions/57.md and
notes/assumptions/72.md. -/
def Obligations.ModelsStageAndSwitch : Prop :=
  (∀ (p : Packet) (remote : List Byte) (t : Machine.Taken) (u s : State), s.take p (isOp 0x20) = (some t, u) → exec (.modelStage p remote) s = .next (State.modelStage remote t u)) ∧
    (∀ (p : Packet) (t : Machine.Taken) (u s : State), s.take p (isOp 0x21) = (some t, u) → exec (.modelSwitch p) s = .next (State.modelSwitch t u)) ∧
    (∀ (p : Packet) (r : List Byte) (t : Machine.Taken) (u s : State), s.take p (isOp 0x20) = (some t, u) →
      let off := t.f 191 148 / 16384 * 16384
      let v := u.clamps t (bad (t.f 191 148 != off) 148 ++ t.lengthClamp 0)
      (v.obj (t.f 147 128) = none → exec (.modelStage p r) s = .next (v.notPerformed t.cmd)) ∧
      (∀ b : Obj, v.obj (t.f 147 128) = some b → ((v.ctx t.ctx).st = .closed ∨ (v.ctx t.ctx).st = .closing) →
        exec (.modelStage p r) s = .next (v.notPerformed t.cmd)) ∧
      ∀ b : Obj, v.obj (t.f 147 128) = some b → ((v.ctx t.ctx).st = .open_ ∨ (v.ctx t.ctx).st = .bound) →
        let h := State.readSwatches (t.f 147 128) (off / 16384) r [off / 16384] v
        let hdr := h.1.take 64
        off < b.size * 16384 → h.2.1 = false → manifestOk hdr (b.size * 16384 - off) = true →
        let m := State.readSwatches (t.f 147 128) (off / 16384) r ((List.range (ceilDiv (fieldB hdr 12 4) 16384)).map (off / 16384 + ·)) h.2.2.2
        let man := m.1.take (fieldB hdr 12 4)
        m.2.1 = false → manifestCrc man = fieldB hdr 8 4 →
        let ss := sectionsOf man
        let w := each ss.2 (fun x s => s.clampAt t.ctx 0x20 x) m.2.2.2
        (recsOf man ss.1 8).any (fun x => (w.obj (bits x.2 19 0)).isNone) = false →
        ∀ ps z, w.takePieces (ceilDiv (fieldB hdr 12 4) 65536) = (some ps, z) →
          let g := z.buildMap t.ctx man ss.1 ps
          let y := each g.2 (fun x s => s.clampAt t.ctx 0x20 x) z
          exec (.modelStage p r) s = .next ((y.onCtx t.ctx (fun x => { x with maps := x.maps.setOther (some g.1) })).complete t.cmd 0
            (if (y.ctx t.ctx).maps.stageB then 1 else 0) 0 [])) ∧
    ∀ (p : Packet) (t : Machine.Taken) (u s : State), s.take p (isOp 0x21) = (some t, u) →
      let v := u.clamps t (t.lengthClamp 0)
      ((v.ctx t.ctx).st = .bound → (v.ctx t.ctx).maps.live = true → (v.ctx t.ctx).maps.staged.isSome = true →
        exec (.modelSwitch p) s = .next (v.onCtx t.ctx (fun y => { y with maps := { y.maps with switching := y.maps.switching ++ [t.cmd] } }))) ∧
      ((v.ctx t.ctx).st ≠ .bound ∨ (v.ctx t.ctx).maps.live = false ∨ (v.ctx t.ctx).maps.staged = none →
        exec (.modelSwitch p) s = .next (v.notPerformed t.cmd))

/-- A panel program of a panel that is not fenced and of a defined object joins its group's queue, a re-prime takes one of its
allowance (05_writing_panels.md R151, 05_writing_panels.md R152, 05_writing_panels.md R165, 05_writing_panels.md R166,
14_command_set.md R512). Points that the spec leaves open stand as the model chose, logged in notes/assumptions/23.md and
notes/assumptions/94.md. -/
def Obligations.PanelRequestsAreQueuedOrRefused : Prop :=
  (∀ (p : Packet) (t : Machine.Taken) (u s : State), s.take p (isOp 0x22) = (some t, u) → exec (.panelProgram p) s = .next (State.panelProgram t u)) ∧
    (∀ (p : Packet) (t : Machine.Taken) (u s : State), s.take p (isOp 0x23) = (some t, u) → exec (.panelReprime p) s = .next (State.panelReprime t u)) ∧
    (∀ (p : Packet) (t : Machine.Taken) (u s : State) (n : Nat), s.take p (isOp 0x22) = (some t, u) →
      (u.targetPanel t).1 = some n →
      let off := t.f 191 148 / 16384 * 16384
      let v := u.clamps t (bad (t.f 191 148 != off) 148 ++ (u.targetPanel t).2)
      (∀ b : Obj, v.obj (t.f 147 128) = some b → (v.panel n).st = .fenced →
        exec (.panelProgram p) s = .next ((each (t.lengthClamp 0) (fun w s => s.clampAt t.ctx 0x22 w) v).refuseReq (some t.cmd) n)) ∧
      (v.obj (t.f 147 128) = none →
        exec (.panelProgram p) s = .next ((each (t.lengthClamp 0) (fun w s => s.clampAt t.ctx 0x22 w) v).refuseReq (some t.cmd) n)) ∧
      ∀ b : Obj, v.obj (t.f 147 128) = some b → (v.panel n).st ≠ .fenced →
        let w := each (bad (v.inCurrentMap n != (t.f 202 202 == 1)) 202 ++ t.lengthClamp 0) (fun w s => s.clampAt t.ctx 0x22 w) v
        exec (.panelProgram p) s = .next (if 64 ≤ (w.group (n / 17)).queue.length then w.refuseReq (some t.cmd) n
          else w.onGroup (n / 17) (fun g => { g with
            queue := g.queue ++ [{ kind := 0, panel := n, src := { obj := t.f 147 128, off := off }, cmd := some t.cmd }] }))) ∧
    ∀ (p : Packet) (t : Machine.Taken) (u s : State), s.take p (isOp 0x23) = (some t, u) →
      let v := u.clamps t ((u.targetPanel t).2 ++ t.lengthClamp 0)
      ((u.targetPanel t).1 = none → exec (.panelReprime p) s = .next (v.refuseReq (some t.cmd) 0)) ∧
      ∀ n : Nat, (u.targetPanel t).1 = some n →
        ((v.panel n).src = none → exec (.panelReprime p) s = .next (v.refuseReq (some t.cmd) n)) ∧
        ∀ src, (v.panel n).src = some src →
          (((v.panel n).allow = 0 ∨ (v.panel n).st = .fenced) → exec (.panelReprime p) s = .next (v.refuseReq (some t.cmd) n)) ∧
          ((v.panel n).st = .serving ∨ (v.panel n).st = .marked → (v.obj src.obj).isSome = true → (v.panel n).allow ≠ 0 →
            (v.group (n / 17)).queue.length < 64 → exec (.panelReprime p) s = .next
              (((v.onPanel n (fun x => { x with allow := x.allow - 1 })).savePanel n).onGroup (n / 17) (fun g => { g with
                queue := g.queue ++ [{ kind := 1, panel := n, src := src, cmd := some t.cmd }] })))

/-- A program begins its erase with its image and ends well, is tried once more, or fences its panel (05_writing_panels.md R148,
05_writing_panels.md R150, 05_writing_panels.md R152, 05_writing_panels.md R153, 05_writing_panels.md R154, 05_writing_panels.md R155,
05_writing_panels.md R162, 05_writing_panels.md R186). Points that the spec leaves open stand as the model chose, logged in
notes/assumptions/24.md. -/
def Obligations.ProgramsStartAndEnd : Prop :=
  (∀ (group : Nat) (fetched next : List Byte) (s : State), s.serving = true → s.pmu.entering.isNone = true → group < 32 →
      exec (.programStart group fetched next) s = .next (State.programStart group fetched next s)) ∧
    (∀ (group : Nat) (good : Bool) (pulses : BitVec 4) (time : Half) (refs : List (List (Byte × Byte))) (s : State), s.serving = true → group < 32 →
      exec (.programComplete group good pulses time refs) s = .next ((s.programComplete group good pulses time refs).powerEnter)) ∧
    (∀ (g : Nat) (f n : List Byte) (s : State), s.running g = none → s.nextReq g = none → exec (.programStart g f n) s = .next s) ∧
    (∀ (g p : Nat) (f n : List Byte) (r : Req) (s : State), s.serving = true → s.pmu.entering = none → g < 32 → s.running g = some p →
      (s.panel p).req = some (r, false) → r.begun = false → (s.bufferedImage g r f).1.2 = true →
      let image := slice (s.bufferedImage g r f).1.1 0 147456
      exec (.programStart g f n) s = .next (((s.bufferedImage g r f).2.beginErase p { r with image := image } false).prefetchImage g p r.src image n)) ∧
    (∀ (g p : Nat) (f n : List Byte) (r : Req) (s : State), s.running g = some p → (s.panel p).req = some (r, false) →
      r.begun = true → exec (.programStart g f n) s = .next s) ∧
    ∀ (g p : Nat) (good : Bool) (pu : BitVec 4) (ti : Half) (refs : List (List (Byte × Byte))) (r : Req) (again : Bool) (s : State),
      s.serving = true → g < 32 → s.running g = some p → (s.panel p).req = some (r, again) → r.begun = true → r.cmd = none →
      (∀ tr, good = true → trimsOf refs = some tr → exec (.programComplete g good pu ti refs) s = .next (State.powerEnter
        ((s.onPanel p (fun x => { x with verified := true, unfinished := false, start := tr, cells := r.image })).endProgram p r
            (if again then 2 else 1) pu ti))) ∧
      (good = false ∨ trimsOf refs = none → exec (.programComplete g good pu ti refs) s = .next (State.powerEnter
        (if again then (((s.onPanels (fun u => { u with progFail := satInc u.progFail })).endProgram p r 3 pu ti).onPanel p (fun x =>
          { x with unfinished := false })).fencePanel p
        else s.beginErase p r true)))

/-- A RUN command of a bound context begins one task for its tick, once a slice; a RETOUCH joins those of its context
(14_command_set.md R513, 14_command_set.md R514, 14_command_set.md R515, 14_command_set.md R516, 06_liner_engines.md R227,
14_command_set.md R518). Points that the spec leaves open stand as the model chose, logged in notes/assumptions/31.md and
notes/assumptions/33.md. -/
def Obligations.RunsBeginTheirTask : Prop :=
  (∀ (p : Packet) (blocks : Nat) (t : Machine.Taken) (u s : State), s.take p (isOp 0x30) = (some t, u) → exec (.runSlice p blocks) s = .next (State.runSlice blocks t u)) ∧
    (∀ (p : Packet) (blocks : Nat) (t : Machine.Taken) (u s : State), s.take p (isOp 0x31) = (some t, u) → exec (.runFrame p blocks) s = .next (State.runFrame blocks t u)) ∧
    (∀ (p : Packet) (t : Machine.Taken) (u s : State), s.take p (isOp 0x50) = (some t, u) → exec (.retouch p) s = .next (State.retouchCmd t u)) ∧
    (∀ (p : Packet) (n : Nat) (t : Machine.Taken) (u s : State), s.take p (isOp 0x30) = (some t, u) →
      let sl := min (t.f 133 128) (u.tick.slices - 1)
      let v := u.clamps t (bad (decide (u.tick.slices - 1 < t.f 133 128)) 128)
      ((u.ctx t.ctx).st ≠ .bound → exec (.runSlice p n) s = .next (v.notPerformed t.cmd)) ∧
      ((u.ctx t.ctx).st = .bound →
        let w := each (v.runFormats t).2.2 (fun w s => s.clampAt t.ctx 0x30 w) v
        let tick := if w.tick.begun && decide (w.tick.sliceNow.toNat < sl) then w.tick.count else w.tick.count + 1
        ((u.ctx t.ctx).runs.contains (tick, sl) = true → exec (.runSlice p n) s = .next (w.notPerformed t.cmd)) ∧
        ((u.ctx t.ctx).runs.contains (tick, sl) = false → exec (.runSlice p n) s = .next
          ((w.onCtx t.ctx (fun x => { x with runs := x.runs ++ [(tick, sl)] })).beginTask t
            (runTask t false sl (v.runFormats t).1 (v.runFormats t).2.1 tick w.tick.count (u.ctx t.ctx).runMap.tone (max 1 n) true))))) ∧
    (∀ (p : Packet) (n : Nat) (t : Machine.Taken) (u s : State), s.take p (isOp 0x31) = (some t, u) →
      let v := u.clamps t []
      let last := t.f 136 136 == 1
      ((u.ctx t.ctx).st ≠ .bound → exec (.runFrame p n) s = .next (v.notPerformed t.cmd)) ∧
      ((u.ctx t.ctx).st = .bound →
        let w := each (v.runFormats t).2.2 (fun w s => s.clampAt t.ctx 0x31 w) v
        let k := runTask t true (t.f 135 128) (v.runFormats t).1 (v.runFormats t).2.1 (w.tick.count + 1) w.tick.count (u.ctx t.ctx).runMap.tone (if last then max 1 n else 0) last
        (t.f 135 128 ≠ (w.partsTaken t.ctx (t.f 191 160)).length → exec (.runFrame p n) s = .next (w.notPerformed t.cmd)) ∧
        (t.f 135 128 = (w.partsTaken t.ctx (t.f 191 160)).length → exec (.runFrame p n) s = .next
          (if last && (u.ctx t.ctx).runs.contains (w.tick.count + 1, 64) then (w.endParts k).notPerformed t.cmd
           else (if last then w.onCtx t.ctx (fun x => { x with runs := x.runs ++ [(w.tick.count + 1, 64)] }) else w).beginTask t k)))) ∧
    ∀ (p : Packet) (t : Machine.Taken) (u s : State), s.take p (isOp 0x50) = (some t, u) →
      ((u.ctx t.ctx).st ≠ .bound → ∃ ws, exec (.retouch p) s = .next ((u.clamps t ws).notPerformed t.cmd)) ∧
      ((u.ctx t.ctx).st = .bound → (u.obj (t.f 171 152)).isSome = true → (u.obj (t.f 191 172)).isSome = true →
        ((u.ctx t.ctx).fence = true → ∃ ws, exec (.retouch p) s = .next ((u.clamps t ws).complete t.cmd 2 0 0 [])) ∧
        ((u.ctx t.ctx).fence = false → ∃ ws r, exec (.retouch p) s = .next ((u.clamps t ws).onCtx t.ctx (fun x =>
            if x.retouch.isNone then { x with retouch := some r } else { x with retouchNext := x.retouchNext ++ [r] })) ∧
          r.cmd = t.cmd ∧ r.steps = max 1 (t.f 151 144) ∧ r.nsamp = t.f 255 240 + 1 ∧ r.samp = t.f 171 152 ∧ r.tgt = t.f 191 172 ∧
          r.lr = BitVec.ofNat 32 (clampLr (t.f 223 192)) ∧ r.mom = BitVec.ofNat 16 (clampMom (t.f 239 224))))

/-- A commit latches every shadow for the next edge; TICK_CONFIG and CAL_CONTROL write what they name and complete
(02_tick_and_budgets.md R26, 02_tick_and_budgets.md R28, 04_live_calibration.md R133, 04_live_calibration.md R134, 14_command_set.md
R517, 14_command_set.md R519, 08_glaze_compression.md R296). Points that the spec leaves open stand as the model chose, logged in
notes/assumptions/15.md. -/
def Obligations.SettingsCommandsCommit : Prop :=
  (∀ (ring : Nat) (s : State), s.canRing ring = true →
      exec (.enable ring) s = .next (State.doorbell ring 2 0 s)) ∧
    (∀ (ring : Nat) (s : State), s.canRing ring = true →
      exec (.disable ring) s = .next (State.doorbell ring 3 0 s)) ∧
    (∀ (p : Packet) (t : Machine.Taken) (u s : State), s.take p (isOp 0x40) = (some t, u) → exec (.tickConfig p) s = .next (State.tickConfig t u)) ∧
    (∀ (s : State), s.easelRuns = true →
      exec .tckCommit s = .next (State.tckCommit s)) ∧
    (∀ (p : Packet) (t : Machine.Taken) (u s : State), s.take p (isCal 0) = (some t, u) → exec (.calControlSet p) s = .next (State.calSet t u)) ∧
    (∀ (p : Packet) (t : Machine.Taken) (u s : State), s.take p (isCal 1) = (some t, u) → exec (.calControlMark p) s = .next (State.calMark t u)) ∧
    (∀ (p : Packet) (t : Machine.Taken) (u s : State), s.take p (isCal 2) = (some t, u) → exec (.calControlClear p) s = .next (State.calClear t u)) ∧
    (∀ (s : State), s.easelRuns = true →
      exec .prmCommit s = .next (State.prmCommit s)) ∧
    (∀ (s : State), s.easelRuns = true →
      exec .glzCommit s = .next (State.glzCommit s)) ∧
    (∀ s : State, s.easelRuns = true → exec .tckCommit s = .next (s.onTick (fun k => { k with latched := some k.shadow })) ∧
      exec .prmCommit s = .next (s.onPrimer (fun p => { p with latched := some p.shadow })) ∧
      exec .glzCommit s = .next (s.onGlaze (fun g => { g with latched := some g.shadow }))) ∧
    (∀ (p : Packet) (t : Machine.Taken) (u s : State), s.take p (isOp 0x40) = (some t, u) →
      let nom := clampN 200000 12500000 (t.f 183 160)
      let cfg : TickCfg := { slices := BitVec.ofNat 6 (t.f 136 131), holdover := BitVec.ofNat 1 (t.f 130 130), src := BitVec.ofNat 2 (if t.f 129 128 = 3 then 2 else t.f 129 128), nom := BitVec.ofNat 24 nom, min := BitVec.ofNat 24 (clampN 200000 nom (t.f 215 192)) }
      ∃ ws, exec (.tickConfig p) s = .next (((u.clamps t ws).onTick (fun k => { k with shadow := cfg, latched := some cfg })).complete t.cmd 0
        (u.clamps t ws).tick.count.toNat 0 [])) ∧
    (∀ (p : Packet) (t : Machine.Taken) (u s : State), s.take p (isCal 0) = (some t, u) → t.f 143 140 = 0 →
      exec (.calControlSet p) s = .next (((u.clamps t t.calClamps).onPrimer (fun p => { p with latched := some p.shadow })).complete t.cmd 0 0 0 [])) ∧
    (∀ (p : Packet) (t : Machine.Taken) (u s : State), s.take p (isCal 0) = (some t, u) → t.f 143 140 = 8 →
      exec (.calControlSet p) s = .next (((u.clamps t t.calClamps).onPrimer (fun p => { p with
        shadow := p.shadow.put 3 (t.f 287 256), latched := some (p.shadow.put 3 (t.f 287 256)) })).complete t.cmd 0 0 0 [])) ∧
    (∀ (p : Packet) (t : Machine.Taken) (u s : State), s.take p (isCal 1) = (some t, u) →
      let v := u.clamps t t.calClamps
      exec (.calControlMark p) s = .next (if (v.panel t.panel).st = .serving then (v.onPanel t.panel (fun p =>
        { p with pendCause := if p.pendCause = 0 then 4 else p.pendCause })).complete t.cmd 0 t.panel 0 [] else v.notPerformed t.cmd)) ∧
    ∀ (p : Packet) (t : Machine.Taken) (u s : State), s.take p (isCal 2) = (some t, u) →
      let v := u.clamps t t.calClamps
      exec (.calControlClear p) s = .next (if (v.panel t.panel).st = .marked then (v.onPanel t.panel (fun p =>
        { p with pendClear := true })).complete t.cmd 0 t.panel 0 [] else v.notPerformed t.cmd)

/-- POWER ACTIVE completes with the new cap; a lower state takes the wake settings and is entered as far as it can be, never on a trial
image (18_power_and_clocks.md R627, 18_power_and_clocks.md R628, 18_power_and_clocks.md R638, 18_power_and_clocks.md R640,
14_command_set.md R520). Points that the spec leaves open stand as the model chose, logged in notes/assumptions/65.md. -/
def Obligations.PowerCommandsEnterTheirState : Prop :=
  (∀ (p : Packet) (t : Machine.Taken) (u s : State), s.take p (isPower 0) = (some t, u) → exec (.powerActive p) s = .next (State.power_ t u)) ∧
    (∀ (p : Packet) (t : Machine.Taken) (u s : State), s.take p (isPower 1) = (some t, u) → exec (.powerHold p) s = .next (State.power_ t u)) ∧
    (∀ (p : Packet) (t : Machine.Taken) (u s : State), s.take p (isPower 2) = (some t, u) → exec (.powerDoze p) s = .next (State.power_ t u)) ∧
    (∀ (p : Packet) (t : Machine.Taken) (u s : State), s.take p (isPower 3) = (some t, u) → exec (.powerRest p) s = .next (State.power_ t u)) ∧
    (∀ (p : Packet) (t : Machine.Taken) (u s : State), s.take p (isPower 4) = (some t, u) → exec (.powerOff p) s = .next (State.power_ t u)) ∧
    (∀ (p : Packet) (t : Machine.Taken) (u s : State), s.take p (isPower 0) = (some t, u) →
      let cap := if t.f 137 131 = 0 then 0 else clampN 25 75 (t.f 137 131)
      ∃ ws, exec (.powerActive p) s = .next ((((u.clamps t ws).onPmu (fun m =>
        { m with next := if cap = 0 then m.next else BitVec.ofNat 7 cap })).fitPool).complete t.cmd 0 0 0 [])) ∧
    (∀ (k : Nat) (p : Packet) (t : Machine.Taken) (u s : State), 1 ≤ k → k ≤ 4 → s.take p (isPower k) = (some t, u) →
      powerState t.cmd.hdr = k →
      let cap := if t.f 137 131 = 0 then 0 else clampN 25 75 (t.f 137 131)
      let w := wakeFields k (t.f 140 138) (t.f 143 141) (t.f 175 144)
      ∃ ws, let v := u.clamps t ws
        exec (match k with | 1 => .powerHold p | 2 => .powerDoze p | 3 => .powerRest p | _ => .powerOff p) s = .next
          (if v.boot.trial then v.notPerformed t.cmd
           else State.powerEnter (((v.onPmu (fun m => { m with next := if cap = 0 then m.next else BitVec.ofNat 7 cap })).fitPool).onPmu
             (fun m => { m with en := BitVec.ofNat 3 w.1, lvl := BitVec.ofNat 3 w.2, timer := BitVec.ofNat 32 (t.f 175 144), entering := some (k, t.cmd) })))) ∧
    ∀ s : State, (s.pmu.entering = none ∨ s.programming = true ∨ s.chest.buffer ≠ []) → s.powerEnter = s

/-- An enabled wake source starts the exit from a sleep, from DOZE or REST with VDD_CORE low it stops, and the exit ends in ACTIVE
(18_power_and_clocks.md R633, 18_power_and_clocks.md R634, 18_power_and_clocks.md R636, 18_power_and_clocks.md R637, 20_physical.md
R690). Points that the spec leaves open stand as the model chose, logged in notes/assumptions/1.md, notes/assumptions/65.md and
notes/assumptions/66.md. -/
def Obligations.WakeSourcesEndASleep : Prop :=
  (∀ (l : Bool) (c : Nat) (low : Bool) (s : State), (s.onPins (fun p => { p with wake := l })).fires 0 l (l && !s.pins.wake) c = true →
      (low = false ∨ s.power < 2) → exec (.wakeBump l c false low) s = .next
        ((s.onPins (fun p => { p with wake := l })).onPmu (fun m => { m with leaving := some 1 }))) ∧
    (∀ (n c : Nat) (b : Byte) (low : Bool) (s : State), s.dead = false → s.manager = true → n < 2 →
      let u := s.onPmu (fun m => { m with sideLevel := if b = 1 then true else if b = 0 then false else m.sideLevel })
      u.fires 1 (b == 1) (b == 1) c = true → (low = false ∨ s.power < 2) → exec (.wake n b c low) s = .next (u.onPmu (fun m => { m with leaving := some 2 }))) ∧
    (∀ (low : Bool) (s : State), s.pmu.timer.toNat ≠ 0 → s.fires 2 true true 5 = true → (low = false ∨ s.power < 2) →
      exec (.wakeTimer s.pmu.timer.toNat low) s = .next (s.onPmu (fun m => { m with leaving := some 4 }))) ∧
    (∀ (loadOk : Bool) (m : BitVec 3) (s : State), s.pmu.leaving = some m →
      s.dead = false → s.pmu.asleep = true →
      exec (.easelResume loadOk) s = .next (
        let st := s.power
        let lost := if st = 3 then ((s.pal.banks.filter (fun b => b.2.ctl.state == 0 && b.2.shadow.state.getLsbD 1)).map (·.1)) else []
        let s := s.onPmu (fun p => { p with
          mode := 0, asleep := false, leaving := none, lastSrc := m, lastState := BitVec.ofNat 3 st, wakes := satInc p.wakes
          wakeRecord := some (lowestSrc m) })
        let s := if 2 ≤ st then
            (((s.palCommit).onWin (fun w => { w with power := 2 })).onTick (fun k => { k with
              periods := [], bandPeriods := [], lastReal := none })).retrainAll
          else s
        let s := if st = 3 then ((s.loseVolatile).zeroHomes lost).reloadHelpers loadOk else s
        let s := s.onBoot (fun b => { b with wdogRun := true, wdogKicks := 0 })
        let s := s.onLink (fun l => { l with side := if s.manager then l.side ++ [0, 1] else l.side })
        s.wakeRecord)) ∧
    (∀ (l : Bool) (c : Nat) (sh low : Bool) (s : State), (s.onPins (fun p => { p with wake := l && !sh })).fires 0 l (l && !s.pins.wake) c = false →
      exec (.wakeBump l c sh low) s = .next (s.onPins (fun p => { p with wake := l && !sh }))) ∧
    (∀ (l : Bool) (c : Nat) (low : Bool) (s : State), (s.onPins (fun p => { p with wake := l && !false })).fires 0 l (l && !s.pins.wake) c = true →
      exec (.wakeBump l c false low) s = (if low && decide (2 ≤ s.power) then .fault .coreBelowActive else .next
        { s with pins := { s.pins with wake := l && !false }, pmu := { s.pmu with leaving := some 1 } })) ∧
    (∀ (l : Bool) (c : Nat) (low : Bool) (s : State), (s.onPins (fun p => { p with wake := l && !true })).fires 0 l (l && !s.pins.wake) c = true →
      let u := s.onPins (fun p => { p with wake := l && !true })
      (s.pmu.lvl.getLsbD 0 = false → exec (.wakeBump l c true low) s = u.wakeBy 0 low) ∧
      (s.pmu.lvl.getLsbD 0 = true → exec (.wakeBump l c true low) s = (if u.freeBit.1 then u.freeBit.2.wakeBy 0 low else .next u.freeBit.2))) ∧
    (∀ (n c : Nat) (b : Byte) (low : Bool) (s : State), s.dead = false → s.manager = true → n < 2 →
      let u := s.onPmu (fun m => { m with sideLevel := if b = 1 then true else if b = 0 then false else m.sideLevel })
      (u.fires 1 (b == 1) (b == 1) c = false → exec (.wake n b c low) s = .next u) ∧
      (u.fires 1 (b == 1) (b == 1) c = true → exec (.wake n b c low) s = (if low && decide (2 ≤ s.power) then .fault .coreBelowActive
        else .next (u.onPmu (fun m => { m with leaving := some 2 }))))) ∧
    (∀ (n : Nat) (low : Bool) (s : State),
      (n = s.pmu.timer.toNat → n ≠ 0 → s.fires 2 true true 5 = true →
        exec (.wakeTimer n low) s = (if low && decide (2 ≤ s.power) then .fault .coreBelowActive else
          .next (s.onPmu (fun m => { m with leaving := some 4 })))) ∧
      ((n ≠ s.pmu.timer.toNat ∨ n = 0 ∨ s.fires 2 true true 5 = false) → exec (.wakeTimer n low) s = .next s)) ∧
    (∀ (ok : Bool) (s : State), s.pmu.leaving = none → exec (.easelResume ok) s = .next s) ∧
    (∀ (ok : Bool) (m : BitVec 3) (s : State), s.pmu.leaving = some m → s.dead = false → s.pmu.asleep = true → s.power = 1 →
      exec (.easelResume ok) s = .next (State.wakeRecord ({ s with
        pmu := { s.pmu with
          mode := 0, asleep := false, leaving := none, lastSrc := m, lastState := 1, wakes := satInc s.pmu.wakes, wakeRecord := some (lowestSrc m) }
        boot := { s.boot with wdogRun := true, wdogKicks := 0 }
        link := { s.link with side := if s.manager then s.link.side ++ [0, 1] else s.link.side } }))) ∧
    ∀ (ok : Bool) (m : BitVec 3) (s : State), s.pmu.leaving = some m → s.dead = false → s.pmu.asleep = true → s.power = 2 →
      exec (.easelResume ok) s = .next (
        let u := s.onPmu (fun p => { p with
          mode := 0, asleep := false, leaving := none, lastSrc := m, lastState := 2, wakes := satInc p.wakes, wakeRecord := some (lowestSrc m) })
        let v := (((u.palCommit).onWin (fun w => { w with power := 2 })).onTick (fun k => { k with
          periods := [], bandPeriods := [], lastReal := none })).retrainAll
        State.wakeRecord ((v.onBoot (fun b => { b with wdogRun := true, wdogKicks := 0 })).onLink (fun l => { l with
          side := if (v.onBoot (fun b => { b with wdogRun := true, wdogKicks := 0 })).manager then l.side ++ [0, 1] else l.side })))

/-- Trims are saved every 65,536 ticks, powered hours count and each 2,190 give one re-prime, and the key and digests become ready
(04_live_calibration.md R145, 05_writing_panels.md R165, 05_writing_panels.md R187, 19_boot_firmware_security.md R674,
19_boot_firmware_security.md R678). Points that the spec leaves open stand as the model chose, logged in notes/assumptions/43.md and
notes/assumptions/121.md. -/
def Obligations.HoursTrimsAndDigests : Prop :=
  (∀ (s : State), s.up = true → s.boot.secReady = true → s.boot.secFenced = false → s.boot.keyReady = false →
      exec .keyExpansionDone s = .next ((s.onBoot (fun b => { b with keyReady := true })).attestWaiting)) ∧
    (∀ (s : State), s.up = true → s.boot.newDigest = true →
      exec .slotDigestDone s = .next (
        (s.onBoot (fun b => { b with
           newDigest := false
           digestA := if b.slotB then s.chest.flash.imageDigest false else b.digestA
           digestB := if b.slotB then b.digestB else s.chest.flash.imageDigest true })).attestWaiting)) ∧
    (∀ (s : State), s.ready = true → s.dead = false → s.boot.wearLoaded = true → s.pins.gains < s.pins.aonHours / 2190 →
      exec .allowanceGain s = .next (
        let s := s.onPins (fun p => { p with gains := p.gains + 1 })
        (s.onPanels (fun u => { u with panels := u.panels.map (fun p => (p.1, { p.2 with
          allow := if p.2.allow.toNat < 4 then p.2.allow + 1 else 4 })) })).savePanels)) ∧
    (∀ (s : State), s.serving = true → s.tick.begun = true → s.tick.count.toNat % 65536 = 0 →
      exec .trimSave s = .next (State.saveTrims s)) ∧
    (∀ (s : State), s.pins.pwrGood = true →
      exec .poweredHour s = .next (
        (s.onPins (fun p => { p with aonHours := p.aonHours + 1 })).onPanels (fun u => { u with
          hours := if s.boot.wearLoaded then satInc u.hours else u.hours }))) ∧
    (∀ s : State, s.serving = true → s.tick.begun = true → s.tick.count.toNat % 65536 = 0 → s.chest.fenced = false →
      exec .trimSave s = .next { s.recTrims with boot := { s.boot with nv := { s.boot.nv with
        panels := s.panels.panels.foldl (fun t p => modify { allow := 4 } p.1 (fun r => { r with
          w0 := p.2.w0.trims, w1 := p.2.w1.trims, w2 := p.2.w2.trims, w3 := p.2.w3.trims }) t) s.boot.nv.panels } } }) ∧
    (∀ s : State, s.tick.count.toNat % 65536 ≠ 0 → exec .trimSave s = .next s) ∧
    (∀ s : State, s.pins.pwrGood = true → exec .poweredHour s = .next { s with pins := { s.pins with aonHours := s.pins.aonHours + 1 }, panels := { s.panels with hours := if s.boot.wearLoaded then satInc s.panels.hours else s.panels.hours } }) ∧
    (∀ s : State, s.ready = true → s.dead = false → s.boot.wearLoaded = true → s.pins.gains < s.pins.aonHours / 2190 →
      exec .allowanceGain s = .next (State.savePanels ({ s with pins := { s.pins with gains := s.pins.gains + 1 }, panels := { s.panels with panels := s.panels.panels.map (fun p => (p.1, { p.2 with allow := if p.2.allow.toNat < 4 then p.2.allow + 1 else 4 })) } }))) ∧
    (∀ s : State, s.pins.aonHours / 2190 ≤ s.pins.gains → exec .allowanceGain s = .next s) ∧
    (∀ s : State, s.up = true → s.boot.secReady = true → s.boot.secFenced = false → s.boot.keyReady = false →
      exec .keyExpansionDone s = .next (s.onBoot (fun b => { b with keyReady := true })).attestWaiting) ∧
    ∀ s : State, s.up = true → s.boot.newDigest = true → exec .slotDigestDone s = .next (State.attestWaiting (s.onBoot (fun b => { b with
      newDigest := false, digestA := if b.slotB then s.chest.flash.imageDigest false else b.digestA, digestB := if b.slotB then b.digestB else s.chest.flash.imageDigest true })))

/-- A cold reset and an internal reset leave every field at its reset value but what is durable or always on
(19_boot_firmware_security.md R647, 19_boot_firmware_security.md R648, 19_boot_firmware_security.md R649, 19_boot_firmware_security.md
R651, 19_boot_firmware_security.md R665, 19_boot_firmware_security.md R655, 19_boot_firmware_security.md R661, 11_plan_chest.md R389).
Points that the spec leaves open stand as the model chose, logged in notes/assumptions/67.md, notes/assumptions/113.md and
notes/assumptions/121.md. -/
def Obligations.ResetsKeepWhatIsDurable : Prop :=
  (∀ (rstAsserted pwrGood : Bool) (s : State), (rstAsserted || !pwrGood) = true →
      exec (.coldReset rstAsserted pwrGood) s = .next (
        {
           State.reset with
           pending := s.pending, freeCtr := s.freeCtr, chest := s.chest.kept, boot := { nv := s.boot.nv, held := true }
           dbg := if pwrGood then { tap := s.dbg.tap, ir := s.dbg.ir, shift := s.dbg.shift, bscan := s.dbg.bscan } else {}
           pins := { resetN := !rstAsserted, pwrGood := pwrGood, flWp := s.pins.flWp, straps := s.pins.straps, wake := s.pins.wake } })) ∧
    (∀ (inp : StartIn) (s : State), s.dead = false → s.boot.phase = 0 → s.easel.running = false →
      exec (.start inp) s = .next (State.start inp s)) ∧
    (∀ (verified : Bool) (s : State), s.dead = false → s.boot.phase = 9 → s.boot.recGo = true →
      exec (.recoveryGo verified) s = .next (State.recoveryGo verified s)) ∧
    (∀ (s : State), s.dead = false → s.boot.wdogRun = true →
      exec .watchdogExpiry s = .next (State.internalReset 1 s)) ∧
    (∀ (value : Word) (s : State), s.dead = false → s.boot.wdogRun = true →
      exec (.easWdog value) s = .next (State.kick value s)) ∧
    (∀ (a g : Bool) (s : State), (a || !g) = true → exec (.coldReset a g) s = .next ({ State.reset with
        pending := s.pending, freeCtr := s.freeCtr, chest := s.chest.kept, boot := { nv := s.boot.nv, held := true }
        dbg := if g then { tap := s.dbg.tap, ir := s.dbg.ir, shift := s.dbg.shift, bscan := s.dbg.bscan } else {}
        pins := { resetN := !a, pwrGood := g, flWp := s.pins.flWp, straps := s.pins.straps, wake := s.pins.wake } })) ∧
    (∀ s : State, exec (.coldReset false true) s = .next s) ∧
    (∀ s : State, s.dead = false → s.boot.wdogRun = true → exec .watchdogExpiry s = .next (s.internalReset 1)) ∧
    (∀ (c : BitVec 3) (s : State), (s.internalReset c).pins = s.pins ∧ (s.internalReset c).chest.flash = s.chest.flash ∧
      (s.internalReset c).boot.nv = s.boot.nv ∧ (s.internalReset c).boot.resets = satInc s.boot.resets ∧
      (s.internalReset c).boot.cause = c ∧ (s.internalReset c).sw = State.reset.sw ∧ (s.internalReset c).pal = State.reset.pal) ∧
    (∀ (v : Word) (s : State), s.dead = false → s.boot.wdogRun = true → exec (.easWdog v) s = .next
      (s.onBoot (fun b => { b with wdogKicks := if v.getLsbD 0 then b.wdogKicks + 1 else b.wdogKicks }))) ∧
    (∀ (i : StartIn) (s : State), s.dead = false → s.boot.phase = 0 → s.easel.running = false → i.fuseOk = false →
      exec (.start i) s = .next ((s.onBoot (fun b => { b with error := if b.cause = 1 then 7 else 0 })).startFenced 1 0xFF)) ∧
    (∀ (i : StartIn) (s : State), s.dead = false → s.boot.phase = 0 → s.easel.running = false → i.fuseOk = true →
      let u := ((s.onBoot (fun b => { b with error := if b.cause = 1 then 7 else 0 })).loadFuses.seedChest).onWin (fun w => { w with power := 2 })
      ((u.chooseSlot i.okA i.okB).1 = none →
        exec (.start i) s = .next ((u.chooseSlot i.okA i.okB).2.onBoot (fun b => { b with phase := 9 }))) ∧
      ∀ slot, (u.chooseSlot i.okA i.okB).1 = some slot →
        let w := (u.chooseSlot i.okA i.okB).2.loadImage slot
        let tr := (w.boot.nv.rec_.map (·.trial)).getD false
        let x := w.onBoot (fun b => { b with
          trial := tr, confirmed := !tr, left := if tr then 64 else 0, digestA := if slot then 0 else w.chest.flash.imageDigest false
          digestB := if slot then w.chest.flash.imageDigest true else 0, newDigest := true })
        let r := x.helpersReady.fenceTests i.testFail i.testCorr
        (i.loadOk = false → exec (.start i) s = .next (x.startBanks.takeOver.startFenced 5 0xFF)) ∧
        (i.loadOk = true → x.chest.flash.loads slot [1, 2, 3] = true →
          exec (.start i) s = .next (if r.1 then r.2.startBanks.takeOver.startFenced 6 0xFF
            else (r.2.startBanks.startPanels i.probe).takeOver.spareCheck))) ∧
    ∀ (v : Bool) (s : State), s.dead = false → s.boot.phase = 9 → s.boot.recGo = true →
      let u := s.recControl.2.onBoot (fun b => { b with recGo := false })
      let w := if u.boot.recErased then u else (u.onFlash (fun f => f.eraseSlot false)).onBoot (fun b => { b with recErased := true })
      let d := (List.range (min 1048576 (64 * bits s.recControl.1 25 5) / 8)).foldl (fun (a : List Byte × State) k =>
        (a.1 ++ bytesOf 8 (a.2.winRead k).1.toNat, (a.2.winRead k).2.2)) ([], w)
      let x := d.2.onFlash (fun f => f.slotProgram false (bits s.recControl.1 4 0 * 1048576) d.1)
      (s.pins.flWp = true → exec (.recoveryGo v) s = .next (u.recStatus (2 ^ 31 + 1))) ∧
      (s.pins.flWp = false → bit s.recControl.1 30 = false → exec (.recoveryGo v) s = .next (x.recStatus (2 ^ 31))) ∧
      (s.pins.flWp = false → bit s.recControl.1 30 = true → exec (.recoveryGo v) s = .next
        (if x.verifySlot false v then (x.writeRec (fun r => { r with kind := 1, slotB := false, trial := true, stA := 2, stB := 3 })).internalReset 4
         else x.recStatus (2 ^ 31 + 2)))

/-- An image is staged into the inactive slot, activated after it verifies, swapped in on trial, and confirmed or rolled back
(19_boot_firmware_security.md R666, 19_boot_firmware_security.md R667, 19_boot_firmware_security.md R670, 19_boot_firmware_security.md
R672, 19_boot_firmware_security.md R673). Points that the spec leaves open stand as the model chose, logged in notes/assumptions/68.md. -/
def Obligations.FirmwareStagesAndSwaps : Prop :=
  (∀ (p : Packet) (t : Machine.Taken) (u s : State), s.take p (isOp 0x80) = (some t, u) → exec (.fwStage p) s = .next (State.fwStage t u)) ∧
    (∀ (p : Packet) (verified : Bool) (t : Machine.Taken) (u s : State), s.take p (isOp 0x81) = (some t, u) → exec (.fwActivate p verified) s = .next (State.fwActivate verified t u)) ∧
    (∀ (loadOk : Bool) (s : State), s.serving = true → s.boot.settle = 3 → s.boot.phase = 11 → s.link.urgPending = 0 → s.urgentTaken.isEmpty = true →
      exec (.fwSwap loadOk) s = .next (State.fwSwap loadOk s)) ∧
    (∀ (passed : Bool) (s : State), s.up = true → s.boot.trial = true → s.boot.switch = false →
      exec (.selfTestDone passed) s = .next (if passed then s.confirm else s.internalReset 3)) ∧
    (∀ (s : State), s.dead = false → s.boot.trial = true → s.boot.left = 0 →
      exec .confirmWindowExpiry s = .next (State.internalReset 2 s)) ∧
    (∀ (p : Packet) (t : Machine.Taken) (u s : State), s.take p (isOp 0x80) = (some t, u) → t.f 140 128 ≤ 6143 → t.f 191 160 ≤ 25165824 →
      let v := u.clamps t []
      ((v.boot.trial || v.chest.eff.service || (t.f 9 9 != 1 && !v.boot.stageOpen)) = true →
        exec (.fwStage p) s = .next (v.notPerformed t.cmd)) ∧
      ((v.boot.trial || v.chest.eff.service || (t.f 9 9 != 1 && !v.boot.stageOpen)) = false → v.chestWritable = true →
        (v.pins.flWp = true → exec (.fwStage p) s = .next ((v.wpRefuse t.ctx).complete t.cmd 0 0 0 [])) ∧
        (v.pins.flWp = false → t.f 9 9 = 0 → t.f 10 10 = 0 → exec (.fwStage p) s = .next
          ((v.onFlash (fun f => f.slotProgram (!v.boot.slotB) (4096 * t.f 140 128) t.payload)).complete t.cmd 0 (t.f 140 128) 0 [])))) ∧
    (∀ (p : Packet) (b : Bool) (t : Machine.Taken) (u s : State), s.take p (isOp 0x81) = (some t, u) →
      let v := u.clamps t (t.lengthClamp 0)
      exec (.fwActivate p b) s = .next (if v.boot.trial then v.notPerformed t.cmd
        else if v.slotState (!v.boot.slotB) = 1 ∧ v.chest.fenced = false ∧ v.verifySlot (!v.boot.slotB) b = true ∧ v.handsOver (!v.boot.slotB) = true then
          (v.onBoot (fun b => { b with settle := 2, settleCmd := some t.cmd })).settled
        else (v.clampAt t.ctx 0x81 whereWhole).complete t.cmd 0 1 0 [])) ∧
    (∀ s : State, s.serving = true → s.boot.settle = 3 → s.boot.phase = 11 → s.link.urgPending = 0 → s.urgentTaken = [] →
      let w := s.writeRec (fun r => { r with kind := 1, slotB := !s.boot.slotB, trial := true })
      let u := w.loadImage (!s.boot.slotB)
      let v := u.onBoot (fun b => { b with
        phase := 8, settle := 0, settleCmd := none, trial := true, confirmed := false, left := 64, switch := true })
      (w.chest.flash.loads (!s.boot.slotB) [1, 2, 3] = true → exec (.fwSwap true) s =
        .next (match u.boot.settleCmd with | some c => v.complete c 0 0 0 [] | none => v)) ∧
      exec (.fwSwap false) s = .next (w.startFenced 5 0xFF)) ∧
    (∀ (ok : Bool) (s : State), s.link.urgPending ≠ 0 → exec (.fwSwap ok) s = .next s) ∧
    (∀ (b : Bool) (s : State), s.up = true → s.boot.trial = true → s.boot.switch = false →
      exec (.selfTestDone b) s = .next (if b then s.confirm else s.internalReset 3)) ∧
    ∀ s : State, s.dead = false → s.boot.trial = true →
      (s.boot.left = 0 → exec .confirmWindowExpiry s = .next (s.internalReset 2)) ∧
      (s.boot.left ≠ 0 → exec .confirmWindowExpiry s = .next s)

/-- Each DIAG function completes with what it reads, an undefined one is not performed, and an ATTEST waits for its key
(14_command_set.md R522, 14_command_set.md R523, 14_command_set.md R500, 14_command_set.md R528, 11_plan_chest.md R408,
11_plan_chest.md R409, 09_palette_and_banks.md R321, 19_boot_firmware_security.md R676). Points that the spec leaves open stand as the
model chose, logged in notes/assumptions/69.md. -/
def Obligations.DiagnosticsAnswerTheirFunction : Prop :=
  (∀ (p : Packet) (t : Machine.Taken) (u s : State), s.take p (isDiag 1) = (some t, u) → exec (.clamps p) s = .next (State.clampsDiag t u)) ∧
    (∀ (p : Packet) (t : Machine.Taken) (u s : State), s.take p (isDiag 2) = (some t, u) → exec (.palCheck p) s = .next (State.palCheck t u)) ∧
    (∀ (p : Packet) (collided : Bool) (t : Machine.Taken) (u s : State), s.take p (isDiag 3) = (some t, u) → exec (.winCheck p collided) s = .next (State.winCheck collided t u)) ∧
    (∀ (p : Packet) (t : Machine.Taken) (u s : State), s.take p (isDiag 4) = (some t, u) → exec (.service p) s = .next (State.service t u)) ∧
    (∀ (p : Packet) (find : ReadFinding) (verified : Bool) (t : Machine.Taken) (u s : State), s.take p (isDiag 5) = (some t, u) → exec (.chestRaw p find verified) s = .next (State.chestRawDiag find verified t u)) ∧
    (∀ (p : Packet) (t : Machine.Taken) (u s : State), s.take p (isDiag 6) = (some t, u) → exec (.swatch p) s = .next (State.swatchDiag t u)) ∧
    (∀ (p : Packet) (t : Machine.Taken) (u s : State), s.take p (isDiag 7) = (some t, u) → exec (.sem p) s = .next (State.semDiag t u)) ∧
    (∀ (p : Packet) (t : Machine.Taken) (u s : State), s.take p (isDiag 8) = (some t, u) → exec (.events p) s = .next (State.eventsDiag t u)) ∧
    (∀ (p : Packet) (t : Machine.Taken) (u s : State), s.take p (isOp 0x91) = (some t, u) → exec (.attest p) s = .next (State.attest t u)) ∧
    (∀ (p : Packet) (t : Machine.Taken) (u s : State), s.take p (fun h => hdrOp h == 0x90 && !(decide (1 ≤ hdrBits h 135 128 ∧ hdrBits h 135 128 ≤ 8))) = (some t, u) → exec (.diagUndefinedFunc p) s = .next ((u.clamps t (t.lengthClamp 0)).notPerformed t.cmd)) ∧
    (∀ (p : Packet) (t : Machine.Taken) (u s : State), s.take p (isDiag 1) = (some t, u) →
      let v := u.clamps t (t.lengthClamp 0)
      let x := v.ctx t.ctx
      let w := if t.f 136 136 = 1 then v.onCtx t.ctx (fun x => { x with clampCnt := 0, clampOp := 0, clampTick := 0, clampWhere := 0 }) else v
      exec (.clamps p) s = .next (w.complete t.cmd 0 x.clampCnt.toNat
        (x.clampWhere.toNat + x.clampOp.toNat * 2 ^ 32 + x.clampTick.toNat * 2 ^ 64) [])) ∧
    (∀ (p : Packet) (t : Machine.Taken) (u s : State), s.take p (isDiag 6) = (some t, u) →
      let v := u.clamps t (t.lengthClamp 0)
      (v.sw.swFenced = true → exec (.swatch p) s = .next (v.complete t.cmd 3 0 0 [])) ∧
      (v.sw.swFenced = false → exec (.swatch p) s = .next
        (match (v.sw.copy (t.f 155 136) (t.f 185 156)).orElse (fun _ => v.sw.homeEntry (t.f 155 136) (t.f 185 156)) with
          | some e => v.complete t.cmd 0 1 ({ e.2 with claim := v.claimOf e.2 } : Entry).word []
          | none => v.complete t.cmd 0 0 0 []))) ∧
    (∀ (p : Packet) (t : Machine.Taken) (u s : State), s.take p (isDiag 7) = (some t, u) →
      let v := u.clamps t (t.lengthClamp 0)
      exec (.sem p) s = .next (if v.mover.fenced then v.complete t.cmd 3 0 0 [] else
        v.complete t.cmd 0 (look 0 v.mover.sems (t.f 144 136)).toNat 0 [])) ∧
    (∀ (p : Packet) (t : Machine.Taken) (u s : State), s.take p (isDiag 8) = (some t, u) →
      let v := u.clamps t (t.lengthClamp 0)
      exec (.events p) s = .next (v.complete t.cmd 0 v.easel.records.length v.easel.dropped.toNat [])) ∧
    (∀ (p : Packet) (t : Machine.Taken) (u s : State), s.take p (fun h => hdrOp h == 0x90 && !(decide (1 ≤ hdrBits h 135 128 ∧ hdrBits h 135 128 ≤ 8))) = (some t, u) →
      exec (.diagUndefinedFunc p) s = .next ((u.clamps t (t.lengthClamp 0)).notPerformed t.cmd)) ∧
    (∀ (p : Packet) (t : Machine.Taken) (u s : State), s.take p (isDiag 2) = (some t, u) →
      let v := u.clamps t (t.lengthClamp 0)
      let b := t.f 143 136
      ((v.bank b).fenced = true → exec (.palCheck p) s = .next (v.complete t.cmd 3 0 0 [])) ∧
      ((v.bank b).fenced = false → (v.bank b).owner ≠ 0 → exec (.palCheck p) s = .next (v.notPerformed t.cmd)) ∧
      ((v.bank b).fenced = false → (v.bank b).owner = 0 → (v.bank b).on = false → exec (.palCheck p) s = .next (v.complete t.cmd 6 0 0 [])) ∧
      ((v.bank b).fenced = false → (v.bank b).owner = 0 → (v.bank b).on = true →
        exec (.palCheck p) s = .next (((v.testerYield b).palSequence b).2.complete t.cmd 0 ((v.testerYield b).palSequence b).1 0 []) ∧
        ((v.testerYield b).palSequence b).2.bank b = (v.testerYield b).bank b)) ∧
    (∀ (p : Packet) (x : Bool) (t : Machine.Taken) (u s : State), s.take p (isDiag 3) = (some t, u) → t.f 156 136 ≤ 262143 →
      let v := u.clamps t (t.lengthClamp 0)
      exec (.winCheck p x) s = .next ((v.winSequence x).2.complete t.cmd (if x && !v.win.compat then 7 else 0) (v.winSequence x).1 0 [])) ∧
    (∀ (p : Packet) (t : Machine.Taken) (u s : State), s.take p (isDiag 4) = (some t, u) →
      let v := u.clamps t (t.lengthClamp 0)
      (v.chest.fenced = true → exec (.service p) s = .next (v.complete t.cmd 3 0 0 [])) ∧
      (v.chest.fenced = false → t.f 136 136 = 1 → v.serviceAllowed = true → exec (.service p) s = .next
        ((v.onChest (fun c => { c with shadow := { c.shadow with service := true } })).chsCommit.complete t.cmd 0 1 0 []))) ∧
    (∀ (p : Packet) (f : ReadFinding) (b : Bool) (t : Machine.Taken) (u s : State), s.take p (isDiag 5) = (some t, u) → t.f 155 144 ≤ 2559 →
      let v := u.clamps t (t.lengthClamp (if t.f 138 136 = 3 then 64 else 0))
      (v.chest.fenced = true → exec (.chestRaw p f b) s = .next (v.complete t.cmd 3 0 0 [])) ∧
      (v.chest.fenced = false → v.chest.eff.service = false → exec (.chestRaw p f b) s = .next (v.notPerformed t.cmd)) ∧
      (v.chest.fenced = false → v.chest.eff.service = true → t.f 138 136 = 4 →
        let w := (v.onChest (fun c => { c with rawPlane := BitVec.ofNat 5 (t.f 143 139), rawBlock := BitVec.ofNat 12 (t.f 155 144), rawPage := BitVec.ofNat 6 (t.f 161 156), rawDone := false })).chestRaw4 t.ctx b
        exec (.chestRaw p f b) s = .next (w.complete t.cmd (if w.chest.rawStatus = 1 then 5 else 0) w.chest.rawResult 0 []))) ∧
    ∀ (p : Packet) (t : Machine.Taken) (u s : State), s.take p (isOp 0x91) = (some t, u) →
      let v := u.clamps t (t.lengthClamp 0)
      exec (.attest p) s = .next (if v.canAttest then v.attestNow t.cmd (bytesOf 32 (t.f 383 128)) else
        v.onBoot (fun b => { b with attWait := b.attWait ++ [(t.cmd, bytesOf 32 (t.f 383 128))] }))

/-- Stacks are enumerated, commands and register accesses reach them by Weave frames, and each arrives at one stack once (16_fabric.md
R572, 16_fabric.md R576, 16_fabric.md R578, 16_fabric.md R579, 16_fabric.md R582, 16_fabric.md R564, 16_fabric.md R566). Points that
the spec leaves open stand as the model chose, logged in notes/assumptions/12.md, notes/assumptions/58.md and notes/assumptions/59.md. -/
def Obligations.StacksEnumerateAndAnswer : Prop :=
  (∀ (p : Packet) (t : Machine.Taken) (u s : State), s.take p (fun h => isOp 0x60 h && s.manager) = (some t, u) → exec (.fabJoin p) s = .next (State.fabJoin t u)) ∧
    (∀ (w : Wrx) (s : State), (s.carries (.fab w.port)) = true → s.fab.fenced = false → ((s.manager || w.port == 0)) = true →
      exec (.enum w) s = .next (
        if w.stomp then s.onPort w.port (fun x => { x with stomped := satInc x.stomped })
        else
          let r := s.checkFrame (.fab w.port) w.rx
          let s := r.2
          let hop := w.aux.toNat
          if !r.1 then s
          else if s.isMember && w.dst != s.addr then s.askEnum 1 hop
          else if s.manager || s.isMember || s.boot.ifmaj != 2 || !s.ready then s.weaveOn w.port 16 0x11 1 s.enumParam hop []
          else
            let s := s.onFab (fun f => { f with
              selfAddr := w.dst, joinedSelf := true, uplost := false, mismatch := f.mismatch || f.strap.toNat % 4 != hop })
            let s := s.weaveOn 0 16 0x11 1 s.enumParam hop []
            if hop < 3 ∧ (s.port 1).mod.st = .reset ∧ s.mayTrain (.fab 1) then s.train (.fab 1) else s)) ∧
    (∀ (w : Wrx) (u s : State), Safety.arrives 0x11 1 s w u → exec (.enumReply w) s = .next (
        let p := w.port
        let q := w.aux.toNat
        if !u.manager || !((u.fab.joining.map (·.left)).getD []).contains (p, q) then u
        else
          let v := w.param.toNat
          if bit v 3 || bits v 23 16 != 2 || !bit v 31 then u.stopEnum p
          else
            let d := 4 * p + q
            let m : Half := BitVec.ofNat 16 (2 ^ d)
            let u := u.onFab (fun f => { f with
              joined := f.joined ||| m, mask := f.mask &&& ~~~m, spares := if bit v 2 then f.spares ||| m else f.spares &&& ~~~m })
            if q + 1 < 4 then
              (u.onFab (fun f => { f with joining := f.joining.map (fun j =>
                { j with left := j.left.map (fun x => if x.1 = p then (p, q + 1) else x) }) })).askEnum p (q + 1)
            else u.stopEnum p)) ∧
    (∀ (port : Nat) (s : State), s.up = true → s.manager = true → (((s.fab.joining.map (·.left)).getD []).any (fun x => x.1 == port)) = true →
      exec (.enumTimeout port) s = .next (State.stopEnum port s)) ∧
    (∀ (w : Wrx) (u s : State), Safety.arrives 0x12 1 s w u → exec (.cmd w) s = .next (
        onlyIf u.isMember (State.onEasel (fun e => { e with
          held := e.held ++ [{ ring := w.param.toNat, idx := 0, hdr := lineOf w.data, payload := some (w.data.drop 64) }] })) u)) ∧
    (∀ (w : Wrx) (u s : State), Safety.arrives 0x13 1 s w u → exec (.cpl w) s = .next (
        let slot := lineOf w.data
        if !u.manager || u.gone w.src then u
        else if w.aux = 1 then
          let u := if u.easel.wholeFence then u else u.postRecord (u.eventRing 0) 0 slot
          if hdrBits slot 223 192 = 8 ∧ hdrBits slot 287 256 = 0xFF then u.fenceWorker w.src else u
        else match u.routedFor w.src slot with
          | none => u
          | some c =>
            let u := if u.isLive c then u.deliver c (withHead slot c.head) (w.data.drop 64) else u
            if hdrBits slot 136 136 = 1 then
              (u.onFab (fun f => { f with routed := f.routed.filter (fun p => p.2.seq != c.seq) })).retire c
            else u)) ∧
    (∀ (w : Wrx) (u s : State), Safety.arrives 0x14 1 s w u → exec (.rmt w) s = .next (
        let off := bits w.param.toNat 23 0
        let wr := w.param.getLsbD 31
        let v := fieldB w.data 0 4
        if !u.isMember || decide (1 < u.power) then u
        else if w.aux = 1 then
          (match placeOfOff off with
            | .page n o => onlyIf (wr && off % 4 == 0) (State.pageWrite (.easel 0) n o v) u
            | _ => u)
        else
          let r := if wr then u.writeSpace off (bytesOf 4 v) [] else u.readSpace off 4 []
          r.2.weave 16 0x15 1 (if wr then 0 else natOf r.1.data) (r.1.status.toNat + 8 * flag r.1.busy + 16 * flag wr) [])) ∧
    (∀ (w : Wrx) (u s : State), Safety.arrives 0x15 1 s w u → exec (.rmtReply w) s = .next (
        onlyIf (u.fab.rmt.outstanding && u.fab.rmt.stack.toNat == w.src) (State.onFab (fun f => { f with rmt := { f.rmt with
          outstanding := false, done := true, status := w.aux.extractLsb' 0 3, busy := w.aux.getLsbD 3
          data := if w.aux.getLsbD 4 then f.rmt.data else w.param } })) u)) ∧
    (∀ (w : Wrx) (kind vc : Nat) (s : State), (s.carries (.fab w.port)) = true → s.fab.fenced = false → (!kindOk kind vc) = true →
      exec (.undefinedKindFrame w kind vc) s = .next (
        if w.stomp then s.onPort w.port (fun x => { x with stomped := satInc x.stomped })
        else
          let r := s.checkFrame (.fab w.port) w.rx
          if r.1 then r.2.onFab (fun f => { f with dropped := satInc f.dropped }) else r.2)) ∧
    (∀ (p : Packet) (t : Machine.Taken) (u s : State), s.take p (fun h => isOp 0x60 h && s.manager) = (some t, u) →
      let v := ((u.clamps t (t.lengthClamp 0)).onGlaze (fun g => { g with
        shadow := glzFields (t.f 151 146) (t.f 145 138) (t.f 137 134) (t.f 133 132), latched := some (glzFields (t.f 151 146) (t.f 145 138) (t.f 137 134) (t.f 133 132)) }))
      let ps := if v.fab.fenced then [] else (below 4 (fun p => bit (t.f 131 128) p)).filterMap (fun p => (v.nextPos p).map (fun q => (p, q)))
      exec (.fabJoin p) s = .next (each ps (fun x s => s.askEnum x.1 x.2) (v.onFab (fun f => { f with joining := some { cmd := t.cmd, left := ps } }))).joinCheck) ∧
    (∀ (w : Wrx) (s u : State), s.carries (.fab w.port) = true → s.fab.fenced = false → w.stomp = false → w.port = 0 → s.manager = false →
      s.checkFrame (.fab w.port) w.rx = (true, u) → u.manager = false → u.isMember = false → u.boot.ifmaj = 2 → u.ready = true →
      let v := (u.onFab (fun f => { f with
        selfAddr := w.dst, joinedSelf := true, uplost := false, mismatch := f.mismatch || f.strap.toNat % 4 != w.aux.toNat })).weaveOn 0 16 0x11 1
          (u.onFab (fun f => { f with
            selfAddr := w.dst, joinedSelf := true, uplost := false, mismatch := f.mismatch || f.strap.toNat % 4 != w.aux.toNat })).enumParam w.aux.toNat []
      exec (.enum w) s = .next (if w.aux.toNat < 3 ∧ (v.port 1).mod.st = .reset ∧ v.mayTrain (.fab 1) then v.train (.fab 1) else v)) ∧
    (∀ (w : Wrx) (s u : State),
      (Safety.arrives 0x11 1 s w u → u.manager = true → ((u.fab.joining.map (·.left)).getD []).contains (w.port, w.aux.toNat) = true →
        (bit w.param.toNat 3 || bits w.param.toNat 23 16 != 2 || !bit w.param.toNat 31) = true →
        exec (.enumReply w) s = .next (u.stopEnum w.port)) ∧
      (Safety.arrives 0x11 1 s w u → u.manager = true → ((u.fab.joining.map (·.left)).getD []).contains (w.port, w.aux.toNat) = true →
        (bit w.param.toNat 3 || bits w.param.toNat 23 16 != 2 || !bit w.param.toNat 31) = false → 3 ≤ w.aux.toNat →
        let m : Half := BitVec.ofNat 16 (2 ^ (4 * w.port + w.aux.toNat))
        exec (.enumReply w) s = .next (State.stopEnum w.port (u.onFab (fun f => { f with
          joined := f.joined ||| m, mask := f.mask &&& ~~~m, spares := if bit w.param.toNat 2 then f.spares ||| m else f.spares &&& ~~~m })))) ∧
      (Safety.arrives 0x12 1 s w u → u.isMember = true → exec (.cmd w) s = .next (u.onEasel (fun e => { e with
        held := e.held ++ [{ ring := w.param.toNat, idx := 0, hdr := lineOf w.data, payload := some (w.data.drop 64) }] }))) ∧
      (Safety.arrives 0x13 1 s w u → u.manager = true → u.gone w.src = false → w.aux = 1 → hdrBits (lineOf w.data) 223 192 ≠ 8 → u.easel.wholeFence = false →
        exec (.cpl w) s = .next (u.postRecord (u.eventRing 0) 0 (lineOf w.data))) ∧
      (Safety.arrives 0x14 1 s w u → u.isMember = true → u.power ≤ 1 → w.aux ≠ 1 → w.param.getLsbD 31 = false →
        let r := u.readSpace (bits w.param.toNat 23 0) 4 []
        exec (.rmt w) s = .next (r.2.weave 16 0x15 1 (natOf r.1.data) (r.1.status.toNat + 8 * flag r.1.busy) [])) ∧
      (Safety.arrives 0x15 1 s w u → u.fab.rmt.outstanding = true → u.fab.rmt.stack.toNat = w.src → exec (.rmtReply w) s = .next (u.onFab (fun f => { f with
        rmt := { f.rmt with outstanding := false, done := true, status := w.aux.extractLsb' 0 3, busy := w.aux.getLsbD 3, data := if w.aux.getLsbD 4 then f.rmt.data else w.param } })))) ∧
    (∀ (p : Nat) (s : State), s.up = true → s.manager = true → ((s.fab.joining.map (·.left)).getD []).any (fun x => x.1 == p) = true →
      exec (.enumTimeout p) s = .next (s.stopEnum p)) ∧
    ∀ (w : Wrx) (k c : Nat) (s : State), s.carries (.fab w.port) = true → s.fab.fenced = false → kindOk k c = false → w.stomp = false →
      exec (.undefinedKindFrame w k c) s = .next (if (s.checkFrame (.fab w.port) w.rx).1 then
        (s.checkFrame (.fab w.port) w.rx).2.onFab (fun f => { f with dropped := satInc f.dropped }) else (s.checkFrame (.fab w.port) w.rx).2)

/-- A route is set, a remote access goes out or ends at once, lent banks come back, and what stops answering is fenced (16_fabric.md
R577, 16_fabric.md R579, 16_fabric.md R597, 16_fabric.md R598, 16_fabric.md R600, 16_fabric.md R602, 17_containment.md R611). Points
that the spec leaves open stand as the model chose, logged in notes/assumptions/12.md, notes/assumptions/58.md and
notes/assumptions/60.md. -/
def Obligations.RoutesRemoteAccessAndLending : Prop :=
  (∀ (s : State), s.up = true → s.manager = true →
      exec .remoteRead s = .next (State.remoteAccess false s)) ∧
    (∀ (s : State), s.up = true → s.manager = true →
      exec .remoteWrite s = .next (State.remoteAccess true s)) ∧
    (∀ (bank : Nat) (s : State), s.up = true → s.fab.lend.lent.contains bank = true → (!s.fab.lend.offered.contains bank) = true →
      exec (.lendBankReturn bank) s = .next (    (s.onFab (fun f => { f with lend := { f.lend with lent := f.lend.lent.filter (· != bank) } })).giveBanks [bank])) ∧
    (∀ (s : State), s.reaches = true →
      exec .fabCommit s = .next (State.fabCommit s)) ∧
    (∀ (d : Nat) (value : Word) (s : State), s.up = true → d < 16 →
      exec (.fabRoute d value) s = .next (State.setRoute d value s)) ∧
    (∀ (w : Wrx) (u s : State), Safety.arrives 0x03 0 s w u → exec (.heartbeat w) s = .next (u.borrow w.src (below 256 (fun b => bit (natOf w.data) b)) (bits (natOf w.data) 260 256))) ∧
    (∀ (s : State), s.dead = false → s.ready = true → s.power ≤ 1 → s.fab.fenced = false → ((s.manager || s.isMember)) = true →
      exec .heartbeatSend s = .next (
        let base := if s.manager then s.workers else [16]
        let to_ := s.fab.lend.to_.toNat
        let ds := if (!s.fab.lend.lent.isEmpty || s.fab.lend.chest != 0) && decide (to_ < 17) && to_ != s.addr && !base.contains to_ then base ++ [to_] else base
        each ds (fun d s => s.weave d 0x03 0 0 0 (s.lentMask d)) s)) ∧
    (∀ (d : Nat) (s : State), s.dead = false → s.ready = true → s.fab.fenced = false → s.power ≤ 1 → ((if s.manager then decide (d < 16) && s.fab.joined.getLsbD d else s.isMember)) = true →
      exec (.heartbeatLoss d) s = .next (if s.manager then s.fenceWorker d else s.upLost)) ∧
    (∀ (port pos : Nat) (s : State), s.dead = false → s.ready = true → s.fab.fenced = false → s.power ≤ 1 → port < 4 ∧ pos < 4 → ((if s.manager then s.fab.joined.getLsbD (4 * port + pos) && (pos != 0 || (s.port port).mod.st != .active) else s.isMember && (s.port port).mod.st != .active)) = true →
      exec (.hopDownTimeout port pos) s = .next (
        let s := if (s.port port).mod.st = .active then s
          else s.onPort port (fun x => { x with errUnrec := satAdd x.errUnrec x.tx.length, tx := [], wait := [] })
        s.hopLost port pos)) ∧
    (∀ (unit index : Nat) (s : State), s.serving = true → 2 ≤ unit ∧ unit ≤ 9 →
      exec (.helperWatchdog unit index) s = .next (    if unit = 2 ∧ index < 64 then s.fenceChannel index else (s.fenceUnit unit).bcastGo)) ∧
    (∀ (bank : Nat) (s : State), s.serving = true → s.easel.reinstall.contains bank = true →
      exec (.dispatchReinstallDone bank) s = .next (
        let r := s.takeBanks 1 1 true false
        match r.1.head? with
        | none => s
        | some b => ((r.2.rebank bank b).onEasel (fun e => { e with reinstall := e.reinstall.filter (· != bank) })).giveBanks [bank])) ∧
    (∀ s : State, s.up = true → s.manager = true → (16 ≤ s.fab.rmt.stack.toNat ∨ s.fab.joined.getLsbD s.fab.rmt.stack.toNat = false) →
      exec .remoteRead s = .next (s.onFab (fun f => { f with rmt := { f.rmt with done := true, outstanding := false, busy := false, status := 2, data := 0 } })) ∧
      exec .remoteWrite s = .next (s.onFab (fun f => { f with rmt := { f.rmt with done := true, outstanding := false, busy := false, status := 2 } }))) ∧
    (∀ s : State, s.up = true → s.manager = true → s.fab.rmt.stack.toNat < 16 → s.fab.joined.getLsbD s.fab.rmt.stack.toNat = true →
      s.gone s.fab.rmt.stack.toNat = false →
      let u := s.onFab (fun f => { f with rmt := { f.rmt with done := false, outstanding := true } })
      exec .remoteRead s = .next (u.weave s.fab.rmt.stack.toNat 0x14 1 s.fab.rmt.off.toNat 0 []) ∧
      exec .remoteWrite s = .next (u.weave s.fab.rmt.stack.toNat 0x14 1 (s.fab.rmt.off.toNat + 2 ^ 31) 0 (bytesOf 64 s.fab.rmt.data.toNat))) ∧
    (∀ (d : Nat) (v : Word) (s : State), s.up = true → d < 16 → v.getLsbD 31 = false →
      exec (.fabRoute d v) s = .next (s.onFab (fun f => { f with routes := put 0 d v f.routes }))) ∧
    (∀ s : State, s.reaches = true → s.fab.lend.shBanks = 0 → ∃ t, exec .fabCommit s = .next t ∧ t.fab.tfwd = s.fab.shTfwd ∧
      t.fab.rate = s.fab.shRate ∧ t.fab.lend.to_ = s.fab.lend.shTo ∧ t.fab.lend.banks = 0 ∧ t.fab.lend.lent = s.fab.lend.lent) ∧
    (∀ (b : Nat) (s : State), s.up = true → s.fab.lend.lent.contains b = true → s.fab.lend.offered.contains b = false →
      exec (.lendBankReturn b) s = .next (State.giveBanks [b] (s.onFab (fun f => { f with lend := { f.lend with lent := f.lend.lent.filter (· != b) } })))) ∧
    (∀ s : State, s.dead = false → s.ready = true → s.power ≤ 1 → s.fab.fenced = false → s.fab.lend.lent = [] → s.fab.lend.chest = 0 →
      (s.manager = true → exec .heartbeatSend s = .next (each s.workers (fun d s => s.weave d 0x03 0 0 0 (s.lentMask d)) s)) ∧
      (s.isMember = true → exec .heartbeatSend s = .next (s.weave 16 0x03 0 0 0 (s.lentMask 16)))) ∧
    (∀ (w : Wrx) (s u : State), Safety.arrives 0x03 0 s w u →
      exec (.heartbeat w) s = .next (u.borrow w.src (below 256 (fun b => bit (natOf w.data) b)) (bits (natOf w.data) 260 256))) ∧
    (∀ (d : Nat) (s : State), s.dead = false → s.ready = true → s.fab.fenced = false → s.power ≤ 1 →
      (s.manager = true → d < 16 → s.fab.joined.getLsbD d = true → exec (.heartbeatLoss d) s = .next (s.fenceWorker d)) ∧
      (s.isMember = true → exec (.heartbeatLoss d) s = .next s.upLost)) ∧
    (∀ (p k : Nat) (s : State), s.dead = false → s.ready = true → s.fab.fenced = false → s.power ≤ 1 → s.manager = true → p < 4 → k < 4 → 0 < k →
      s.fab.joined.getLsbD (4 * p + k) = true → (s.port p).mod.st = .active → exec (.hopDownTimeout p k) s = .next (s.fenceWorker (4 * p + k))) ∧
    (∀ (n i : Nat) (s : State), s.serving = true → 2 ≤ n → n ≤ 9 → exec (.helperWatchdog n i) s = .next
      (if n = 2 ∧ i < 64 then s.fenceChannel i else (s.fenceUnit n).bcastGo)) ∧
    ∀ (b k : Nat) (s : State), s.serving = true → s.easel.reinstall.contains b = true → (s.takeBanks 1 1 true false).1 = [k] →
      exec (.dispatchReinstallDone b) s = .next (State.giveBanks [b] (((s.takeBanks 1 1 true false).2.rebank b k).onEasel (fun e =>
        { e with reinstall := e.reinstall.filter (· != b) })))

/-- A broadcast starts with the workers named, each shard is sent again to the one that asks, and a worker that fails is dropped
(16_fabric.md R585, 16_fabric.md R587, 16_fabric.md R588, 16_fabric.md R589, 16_fabric.md R590, 16_fabric.md R591). Points that the
spec leaves open stand as the model chose, logged in notes/assumptions/12.md and notes/assumptions/61.md. -/
def Obligations.BroadcastShardsArriveOnce : Prop :=
  (∀ (p : Packet) (remote : List Byte) (t : Machine.Taken) (u s : State), s.take p (fun h => isOp 0x61 h && s.manager) = (some t, u) → exec (.fabBroadcast p remote) s = .next (State.fabBroadcast remote t u)) ∧
    (∀ (w : Wrx) (u s : State), Safety.arrives 0x24 2 s w u → exec (.bcastStart w) s = .next (
        let o := fieldB w.data 0 4
        let off := fieldB w.data 4 8
        let count := fieldB w.data 12 4
        if !u.isMember || !bit (fieldB w.data 16 2) u.addr then u
        else
          let yes := match u.obj o with
            | none => false
            | some b => decide (off / 16384 + count ≤ b.size) && (b.ref == 0 || b.pois)
          let u := u.weave 16 0x22 2 0 (if yes then 1 else 0) []
          let b : BcastIn := { obj := o, off := off, count := count, onlyPoisoned := ((u.obj o).map (·.pois)).getD false }
          u.onFab (fun f => { f with bcastIn := if yes then some b else none }))) ∧
    (∀ (d : Nat) (s : State), s.up = true → (((s.fab.bcast.map (·.waiting)).getD []).contains d) = true →
      exec (.bcastStartTimeout d) s = .next (    ((s.onFab (fun f => { f with incomplete := satInc f.incomplete })).bcastFail d).bcastGo)) ∧
    (∀ (w : Wrx) (u s : State), Safety.arrives 0x20 2 s w u → exec (.shard w) s = .next (
        let n := w.param.toNat % 2 ^ 30
        let u := if u.isMember then u.shardGap n else u
        match u.fab.bcastIn with
        | none => u
        | some b =>
          let i := b.off / 16384 + n
          if !u.isMember || !b.wants n then u
          else
            let u := onlyIf (shardCrc w.data && !u.glaze.fenced) (State.onGlaze (fun g => g.shardTable w.src w.data)) u
            match (if u.glaze.fenced then none else shardData u.glaze w.src b.obj i w.data) with
            | none =>
              let n0 := ((shardBlocks u.glaze w.src w.data).filter Option.isNone).length
              let u := if shardCrc w.data && n0 != 0 then
                  u.onGlaze (fun g => { g with corrupt := satAdd g.corrupt n0, corruptEvent := true }) else u
              u.shardMiss n
            | some d =>
              let u := if b.onlyPoisoned && !u.poisoned b.obj i then u else u.storeSwatch shardCmd b.obj i true d.1 d.2
              let b := { b with held := b.held ++ [n] }
              let u := u.onFab (fun f => { f with bcastIn := some b })
              if b.held.length % 16 = 0 ∨ (b.ended ∧ b.upto = b.count) then u.shardAckNow else u)) ∧
    (∀ (w : Wrx) (u s : State), Safety.arrives 0x22 2 s w u → exec (.shardAck w) s = .next (
        if !u.manager then u
        else if w.aux = 2 then u.bcastAcked w.src w.param.toNat
        else u.bcastAnswer w.src (w.aux == 1))) ∧
    (∀ (w : Wrx) (u s : State), Safety.arrives 0x23 2 s w u → exec (.shardNack w) s = .next (
        if !u.manager then u
        else
          let u := u.onFab (fun f => { f with nacks := satInc f.nacks })
          match u.fab.bcast with
          | none => u
          | some b => match b.shards.find? (fun x => x.1 == w.param.toNat) with
            | some x => if b.live.contains w.src && !u.glaze.fenced then
                ((u.sendShard (w.src / 4) w.src x.1 x.2).onFab (fun f => { f with retx := satInc f.retx })).onGlaze (fun g => { g with
                  outBytes := g.outBytes + shardRecBytes x.2 })
              else u
            | none => u)) ∧
    (∀ (sno : Nat) (s : State), s.up = true → s.isMember = true →
      exec (.shardTimeout sno) s = .next (State.shardMiss sno s)) ∧
    (∀ (w : Wrx) (u s : State), Safety.arrives 0x21 2 s w u → exec (.bcastEnd w) s = .next (
        match u.fab.bcastIn with
           | none => u
           | some b =>
             if !u.isMember then u
             else ((u.onFab (fun f => { f with bcastIn := some { b with ended := true } })).shardGap b.count).shardAckNow)) ∧
    ((∀ (w : Wrx) (sno : Nat) (u s : State), Safety.arrives 0x25 2 s w u → u.manager = true → exec (.bcastFail (some w) sno) s = .next
        ((u.onFab (fun f => { f with incomplete := satInc f.incomplete })).bcastFail w.src).bcastGo) ∧
      ∀ (sno : Nat) (b : BcastIn) (s : State), s.fab.bcastIn = some b → s.up = true → s.isMember = true → b.wants sno = true →
      4 ≤ look 0 b.tries sno → exec (.bcastFail none sno) s = .next (
        let s := s.poisonStuck b.obj (b.off / 16384 + sno)
        let b := { b with gaveUp := b.gaveUp ++ [sno] }
        let s := (s.onFab (fun f => { f with bcastIn := some b, incomplete := satInc f.incomplete })).weave 16 0x25 2 sno 0 []
        if b.ended ∧ b.upto = b.count then s.shardAckNow else s)) ∧
    (∀ (p : Packet) (r : List Byte) (t : Machine.Taken) (u s : State), s.take p (fun h => isOp 0x61 h && s.manager) = (some t, u) →
      let named := below 16 (fun d => bit (t.f 239 224) d && u.fab.joined.getLsbD d && !u.gone d)
      (named = [] → ∃ ws, exec (.fabBroadcast p r) s = .next ((u.clamps t ws).complete t.cmd 0 0 0 [])) ∧
      (named ≠ [] → u.obj (t.f 147 128) = none → ∃ ws, exec (.fabBroadcast p r) s = .next ((u.clamps t ws).notPerformed t.cmd)) ∧
      ∀ b : Obj, named ≠ [] → u.obj (t.f 147 128) = some b → u.glaze.fenced = false →
        let off := t.f 191 148 / 16384 * 16384
        off / 16384 + max 1 (t.f 221 192) ≤ b.size →
        ∃ ws, let v := u.clamps t ws
          exec (.fabBroadcast p r) s = .next (each (below 4 (fun p => named.any (fun d => d / 4 == p))) (fun p s => s.weaveOn p 31 0x24 2 0 0
            (bytesOf 4 (t.f 147 128) ++ bytesOf 8 off ++ bytesOf 4 (max 1 (t.f 221 192)) ++ bytesOf 48 (sumN (named.map (fun d => 2 ^ d)))))
            (v.onFab (fun f => { f with serial := v.fab.serial + 1, bcast := some { cmd := t.cmd, obj := t.f 147 128, off := off, count := max 1 (t.f 221 192), named := named, waiting := named, serial := v.fab.serial, remote := r } })))) ∧
    (∀ (d : Nat) (s : State), s.up = true → ((s.fab.bcast.map (·.waiting)).getD []).contains d = true →
      exec (.bcastStartTimeout d) s = .next (((s.onFab (fun f => { f with incomplete := satInc f.incomplete })).bcastFail d).bcastGo)) ∧
    (∀ (w : Wrx) (s u : State),
      (Safety.arrives 0x24 2 s w u → u.isMember = true → bit (fieldB w.data 16 2) u.addr = true → u.obj (fieldB w.data 0 4) = none →
        exec (.bcastStart w) s = .next ((u.weave 16 0x22 2 0 0 []).onFab (fun f => { f with bcastIn := none }))) ∧
      (∀ b : Obj, Safety.arrives 0x24 2 s w u → u.isMember = true → bit (fieldB w.data 16 2) u.addr = true → u.obj (fieldB w.data 0 4) = some b → b.ref = 0 →
        fieldB w.data 4 8 / 16384 + fieldB w.data 12 4 ≤ b.size → exec (.bcastStart w) s = .next ((u.weave 16 0x22 2 0 1 []).onFab (fun f =>
          { f with bcastIn := some { obj := fieldB w.data 0 4, off := fieldB w.data 4 8, count := fieldB w.data 12 4, onlyPoisoned := b.pois } }))) ∧
      (Safety.arrives 0x22 2 s w u → u.manager = true → exec (.shardAck w) s = .next (if w.aux = 2 then u.bcastAcked w.src w.param.toNat else u.bcastAnswer w.src (w.aux == 1))) ∧
      (∀ b x, Safety.arrives 0x23 2 s w u → u.manager = true → u.fab.bcast = some b → b.shards.find? (fun x => x.1 == w.param.toNat) = some x → b.live.contains w.src = true →
        u.glaze.fenced = false → exec (.shardNack w) s = .next ((((u.onFab (fun f => { f with nacks := satInc f.nacks })).sendShard (w.src / 4)
          w.src x.1 x.2).onFab (fun f => { f with retx := satInc f.retx })).onGlaze (fun g => { g with outBytes := g.outBytes + shardRecBytes x.2 }))) ∧
      (Safety.arrives 0x20 2 s w u → u.isMember = false → u.fab.bcastIn = none → exec (.shard w) s = .next u) ∧
      (∀ b d, Safety.arrives 0x20 2 s w u → u.isMember = true → w.param.toNat = 0 → u.shardGap 0 = u → u.fab.bcastIn = some b → b.wants 0 = true → u.glaze.fenced = false →
        shardCrc w.data = true → shardData (u.glaze.shardTable w.src w.data) w.src b.obj (b.off / 16384) w.data = some d → b.onlyPoisoned = false → (b.held.length + 1) % 16 ≠ 0 → b.ended = false →
        exec (.shard w) s = .next (((u.onGlaze (fun g => g.shardTable w.src w.data)).storeSwatch shardCmd b.obj (b.off / 16384) true d.1 d.2).onFab (fun f => { f with bcastIn := some { b with held := b.held ++ [0] } }))) ∧
      (∀ b, Safety.arrives 0x21 2 s w u → u.isMember = true → u.fab.bcastIn = some b → exec (.bcastEnd w) s = .next
        (((u.onFab (fun f => { f with bcastIn := some { b with ended := true } })).shardGap b.count).shardAckNow)) ∧
      (∀ n, Safety.arrives 0x25 2 s w u → u.manager = true → exec (.bcastFail (some w) n) s = .next
        (((u.onFab (fun f => { f with incomplete := satInc f.incomplete })).bcastFail w.src).bcastGo))) ∧
    (∀ (n : Nat) (b : BcastIn) (s : State), s.up = true → s.isMember = true → s.fab.bcastIn = some b → b.wants n = true → look 0 b.tries n < 3 →
      exec (.shardTimeout n) s = .next (((s.onFab (fun f => { f with bcastIn := some { b with tries := putRaw n (look 0 b.tries n + 1) b.tries } })).weave
        16 0x23 2 n 0 []).onFab (fun f => { f with nacks := satInc f.nacks }))) ∧
    ∀ (n : Nat) (b : BcastIn) (s : State), s.up = true → s.isMember = true → s.fab.bcastIn = some b → b.wants n = true → 4 ≤ look 0 b.tries n →
      b.ended = false → exec (.bcastFail none n) s = .next (((s.poisonStuck b.obj (b.off / 16384 + n)).onFab (fun f => { f with
        bcastIn := some { b with gaveUp := b.gaveUp ++ [n] }, incomplete := satInc f.incomplete })).weave 16 0x25 2 n 0 [])

/-- Entries signal their pair, an acknowledged record leaves the send buffer, and a lender serves reads and writes of what it lends
(16_fabric.md R593, 08_glaze_compression.md R292, 08_glaze_compression.md R293, 16_fabric.md R596, 16_fabric.md R572). Points that the
spec leaves open stand as the model chose, logged in notes/assumptions/12.md and notes/assumptions/34.md. -/
def Obligations.StreamAndTierFramesAreServed : Prop :=
  (∀ (w : Wrx) (u s : State), Safety.arrives 0x30 3 s w u → exec (.entry w) s = .next (
        let v := w.param.toNat
        if u.serving && bit v 30 && !u.glaze.fenced then u.queueRecord w
        else
          let u := u.returnLines w.port 3 (ceilDiv w.data.length 64)
          onlyIf (u.serving && !bit v 30) (State.storeBytes w.aux.toNat w.data (bit v 28) (bit v 31)) u)) ∧
    (∀ (w : Wrx) (u s : State), Safety.arrives 0x31 3 s w u → exec (.entryCredit w) s = .next (onlyIf u.serving (State.semSignal (2 * w.aux.toNat + 1)) u)) ∧
    (∀ (w : Wrx) (u s : State), Safety.arrives 0x32 3 s w u → exec (.glzAck w) s = .next (
        match u.sentFor w with
           | some r => u.onGlaze (fun g => { g with sent := g.sent.filter (fun x => x.id != r.id) })
           | none => u)) ∧
    (∀ (w : Wrx) (u s : State), Safety.arrives 0x33 3 s w u → exec (.glzResend w) s = .next (
        match u.sentFor w with
           | some r => onlyIf (u.serving && !u.glaze.fenced) (fun u =>
               (u.onGlaze (fun g => { g with outBytes := g.outBytes + r.bytes.length })).weave r.dst 0x30 3 r.param r.aux r.bytes) u
           | none => u)) ∧
    (∀ (w : Wrx) (u s : State), Safety.arrives 0x40 4 s w u → exec (.tierRd w) s = .next (
        let v := w.param.toNat
        let answer (ok : Bool) (data : List Byte) (u : State) : State :=
          u.weave w.src 0x41 4 v (w.aux.toNat % 4 + if ok then 0 else 4) (if ok then data else [])
        if !u.serving then u
        else if w.aux.getLsbD 0 then
          let n := if w.aux.getLsbD 1 then 64 else 16384
          let a := u.lentBase + 64 * v
          let ok := u.lentRange (64 * v) n && !u.chest.fenced && !u.chest.lostIn false a n
          answer ok (u.chest.bytes false a n) u
        else
          let p := t2Place v
          if !u.fab.lend.lent.contains p.1 then answer false [] u
          else if w.aux.getLsbD 1 then
            let d := u.readLines 9 0 p.1 (256 * p.2.1 + p.2.2) 1
            answer (!d.2.1) d.1 d.2.2
          else
            let d := u.readLines 9 0 p.1 (256 * p.2.1) 256
            let t := d.2.2.readLines 9 0 p.1 (7936 + p.2.1) 1
            answer (!d.2.1 && !t.2.1) (d.1 ++ t.1) t.2.2)) ∧
    (∀ (w : Wrx) (obj idx : Nat) (u s : State), Safety.arrives 0x41 4 s w u → exec (.tierRdc w obj idx) s = .next (
        let good := !w.aux.getLsbD 2
        if !u.up || u.sw.migFenced then u
        else if w.aux.getLsbD 0 then u.partCame obj idx (w.aux.getLsbD 1) good w.data
        else if w.aux.getLsbD 1 then u.lineCame obj idx (t2Place w.param.toNat).2.2 good w.data
        else u.wholeCame obj idx good w.data)) ∧
    (∀ (w : Wrx) (u s : State), Safety.arrives 0x42 4 s w u → exec (.tierWr w) s = .next (
        let v := w.param.toNat
        if !u.serving then u
        else
          if w.aux.getLsbD 0 && u.lentRange (64 * v) w.data.length && u.chestWritable && !u.chest.fenced then
            let mark := 2 ^ 40 + u.chest.wrackNo
            (((u.chestPut false (u.lentBase + 64 * v) w.data 0).markWrites u.chest.buffer.length mark).onChest (fun c => { c with
              wrackNo := c.wrackNo + 1, wracks := c.wracks ++ [(mark, w.src, v, w.aux.toNat % 4)] })).sendWracks
          else
            let p := t2Place v
            let u := if w.aux.getLsbD 0 || !u.fab.lend.lent.contains p.1 then u
              else if p.2.2 = 0 ∧ w.data.length = 16448 then
                (u.writeLines 9 0 p.1 (256 * p.2.1) (w.data.take 16384)).writeLines 9 0 p.1 (7936 + p.2.1) (w.data.drop 16384)
              else u.writeLines 9 0 p.1 (256 * p.2.1 + p.2.2) w.data
            u.weave w.src 0x43 4 v (w.aux.toNat % 4) [])) ∧
    (∀ (w : Wrx) (obj idx : Nat) (u s : State), Safety.arrives 0x43 4 s w u → exec (.tierWrack w obj idx) s = .next (
        let r := u.writeAcked obj idx
        if r.1 then r.2
        else if u.sw.migFenced then u
        else (u.writebackDone obj idx).powerEnter)) ∧
    ∀ (w : Wrx) (s u : State),
    (Safety.arrives 0x30 3 s w u → u.serving = true → bit w.param.toNat 30 = false →
      exec (.entry w) s = .next ((u.returnLines w.port 3 (ceilDiv w.data.length 64)).storeBytes w.aux.toNat w.data (bit w.param.toNat 28) (bit w.param.toNat 31))) ∧
    (Safety.arrives 0x30 3 s w u → u.serving = true → bit w.param.toNat 30 = true → u.glaze.fenced = false →
      exec (.entry w) s = .next (u.queueRecord w)) ∧
    (∀ (p : Nat) (bs : List Byte), (u.storeBytes p bs true true).fab.entries =
      (u.fab.entries.filter (fun e => e.pair != p || e.whole)).map (fun e => if e.pair = p ∧ !e.whole then { e with data := e.data ++ bs, whole := true } else e) ++
        [{ pair := p, data := bs, whole := true }]) ∧
    (Safety.arrives 0x31 3 s w u → u.serving = true →
      exec (.entryCredit w) s = .next (u.semSignal (2 * w.aux.toNat + 1))) ∧
    (∀ r : SentRec, u.sentFor w = some r →
      (Safety.arrives 0x32 3 s w u → exec (.glzAck w) s = .next (u.onGlaze (fun g => { g with sent := g.sent.filter (fun x => x.id != r.id) }))) ∧
      (Safety.arrives 0x33 3 s w u → u.serving = true → u.glaze.fenced = false →
        exec (.glzResend w) s = .next ((u.onGlaze (fun g => { g with outBytes := g.outBytes + r.bytes.length })).weave r.dst 0x30 3 r.param r.aux r.bytes))) ∧
    (u.sentFor w = none → (Safety.arrives 0x32 3 s w u → exec (.glzAck w) s = .next u) ∧
      (Safety.arrives 0x33 3 s w u → exec (.glzResend w) s = .next u)) ∧
    (u.serving = true → w.aux.getLsbD 0 = false →
      let b := (t2Place w.param.toNat).1
      (u.fab.lend.lent.contains b = false →
        (Safety.arrives 0x40 4 s w u → exec (.tierRd w) s = .next (u.weave w.src 0x41 4 w.param.toNat (w.aux.toNat % 4 + 4) [])) ∧
        (Safety.arrives 0x42 4 s w u → exec (.tierWr w) s = .next (u.weave w.src 0x43 4 w.param.toNat (w.aux.toNat % 4) []))) ∧
      (Safety.arrives 0x40 4 s w u → u.fab.lend.lent.contains b = true → w.aux.getLsbD 1 = true →
        let p := t2Place w.param.toNat
        let d := u.readLines 9 0 b (256 * p.2.1 + p.2.2) 1
        exec (.tierRd w) s = .next (d.2.2.weave w.src 0x41 4 w.param.toNat (w.aux.toNat % 4 + if !d.2.1 then 0 else 4) (if !d.2.1 then d.1 else []))) ∧
      (Safety.arrives 0x42 4 s w u → u.fab.lend.lent.contains b = true → w.data.length ≠ 16448 →
        let p := t2Place w.param.toNat
        exec (.tierWr w) s = .next ((u.writeLines 9 0 b (256 * p.2.1 + p.2.2) w.data).weave w.src 0x43 4 w.param.toNat (w.aux.toNat % 4) []))) ∧
    (∀ o i, Safety.arrives 0x41 4 s w u → u.up = true → u.sw.migFenced = false → w.aux.getLsbD 1 = true → w.aux.getLsbD 0 = false →
      exec (.tierRdc w o i) s = .next (u.lineCame o i (t2Place w.param.toNat).2.2 (!w.aux.getLsbD 2) w.data)) ∧
    (∀ o i, Safety.arrives 0x41 4 s w u → u.up = true → u.sw.migFenced = false → w.aux.getLsbD 0 = true →
      exec (.tierRdc w o i) s = .next (u.partCame o i (w.aux.getLsbD 1) (!w.aux.getLsbD 2) w.data)) ∧
    (∀ o i, Safety.arrives 0x43 4 s w u → u.sw.migFenced = false → exec (.tierWrack w o i) s = .next
      (if (u.writeAcked o i).1 then (u.writeAcked o i).2 else (u.writebackDone o i).powerEnter))

/-- Sensors, the reference clock, the write-protect bump, the test port and register pages act as their bumps and writes say
(17_containment.md R622, 17_containment.md R623, 20_physical.md R698, 20_physical.md R700, 21_register_reference.md R711,
11_plan_chest.md R401, 13_host_link.md R463). Points that the spec leaves open stand as the model chose, logged in
notes/assumptions/6.md and notes/assumptions/71.md. -/
def Obligations.PinsTestPortAndRegisterPages : Prop :=
  (∀ (tj : List Int) (s : State), s.boot.held = false → s.pins.refLost = false → tj.isEmpty = false →
      exec (.sensorSample tj) s = .next (
        let hot := tj.foldl max (tj.headD 0)
        let s := s.onPmu (fun p => { p with alert := decide (alertAt ≤ hot) })
        if 115 ≤ hot ∧ !s.pins.thermTrip then s.darkLinks.onPins (fun p => { p with thermTrip := true }) else s)) ∧
    (∀ (s : State), s.boot.held = false → s.pins.refLost = false →
      exec .refclkLoss s = .next (s.darkLinks.onPins (fun p => { p with refLost := true }))) ∧
    (∀ (a : Agent) (off : Nat) (v : Word) (n o : Nat) (s : State), placeOfOff off = .page n o → off % 4 = 0 →
      (match a with | .host => s.hostReach | .easel _ => s.easelRuns) = true →
      exec (.registerWrite a off v) s = .next (s.pageWrite a n o v.toNat)) ∧
    (∀ (asserted : Bool) (s : State), exec (.flWpNChange asserted) s = .next (s.onPins (fun p => { p with flWp := asserted }))) ∧
    (∀ (tms tdi : Bool) (s : State), exec (.jtagTckEdge tms tdi) s = .next (s.onDbg (fun d => (d.act tdi).enter (tapNext d.tap tms)))) ∧
    (∀ (s : State), exec .trstNAssert s = .next (s.onDbg (fun d => d.enter 15))) ∧
    (∀ (l : List Int) (s : State), s.boot.held = false → s.pins.refLost = false → l ≠ [] →
      let hot := l.foldl max (l.headD 0)
      let u := s.onPmu (fun p => { p with alert := decide (alertAt ≤ hot) })
      (hot < 115 → exec (.sensorSample l) s = .next u) ∧
      (115 ≤ hot → s.pins.thermTrip = false → exec (.sensorSample l) s = .next (u.darkLinks.onPins (fun p => { p with thermTrip := true })))) ∧
    (∀ s : State, s.boot.held = false → s.pins.refLost = false →
      exec .refclkLoss s = .next (s.darkLinks.onPins (fun p => { p with refLost := true })) ∧
      s.darkLinks.link.hl0.st = .reset ∧ s.darkLinks.link.hl1.st = .reset) ∧
    (∀ (b : Bool) (s : State), exec (.flWpNChange b) s = .next { s with pins := { s.pins with flWp := b } }) ∧
    (∀ (m i : Bool) (s : State), exec (.jtagTckEdge m i) s = .next { s with dbg := (s.dbg.act i).enter (tapNext s.dbg.tap m) }) ∧
    (∀ s : State, exec .trstNAssert s = .next { s with dbg := s.dbg.enter 15 } ∧ (s.dbg.enter 15).tap = 15 ∧ (s.dbg.enter 15).ir = none) ∧
    (∀ (o n k : Nat) (v : Word) (s : State), placeOfOff o = .page n k → o % 4 = 0 →
      (s.hostReach = true → exec (.registerWrite .host o v) s = .next (if s.pageDark n then s else s.hostPage n k v.toNat)) ∧
      (∀ q, s.easelRuns = true →
        exec (.registerWrite (.easel q) o v) s = .next (if s.pageDark n then s else s.easelPage q n k v.toNat))) ∧
    ∀ (a : Agent) (o : Nat) (v : Word) (s : State), o % 4 ≠ 0 → exec (.registerWrite a o v) s = .next s

/-- The host writes only TCK_CTX_SEL and the W1C bits of TCK_STAT, and reads every field of the page (R35). -/
def Obligations.TickPageTakesOnlyItsWritableFields : Prop :=
  (∀ (k : Nat) (v : Word) (s : State), s.hostReach = true → k < 65536 → k % 4 = 0 → k ≠ 0x18 → k ≠ 0x30 →
      exec (.registerWrite .host (0x410000 + k) v) s = .next s) ∧
    (∀ (v : Word) (s : State), s.hostReach = true →
      exec (.registerWrite .host 0x410018 v) s = .next { s with tick := { s.tick with realign := s.tick.realign && !v.getLsbD 4, overrun := s.tick.overrun && !v.getLsbD 3, synth := s.tick.synth && !v.getLsbD 2, ignored := s.tick.ignored && !v.getLsbD 1 } } ∧
      exec (.registerWrite .host 0x410030 v) s = .next { s with tick := { s.tick with ctxSel := v.setWidth 10 } }) ∧
    ∀ (k : Nat) (b : List PortB) (s : State), k ∈ [0x00, 0x04, 0x08, 0x0C, 0x10, 0x14, 0x18, 0x1C, 0x20, 0x24, 0x28, 0x30, 0x34, 0x38, 0x3C] →
      (s.readSpace (0x410000 + k) 4 b).1.status = 0 ∧ (s.readSpace (0x410000 + k) 4 b).1.data.length = 4

/-- Right after reset the registers read what the Reset column of their maps gives (02_tick_and_budgets.md R36, 04_live_calibration.md
R146, 08_glaze_compression.md R296, 10_tiers_and_swatches.md R379, 18_power_and_clocks.md R646, 21_register_reference.md R711). -/
def Obligations.ResetRegistersReadTheirResetColumn : Prop :=
  State.reset.readPage 1 0x00 = some 6 ∧ State.reset.readPage 1 0x04 = some 0x00196E6B ∧ State.reset.readPage 1 0x08 = some 0x00030D40 ∧
    State.reset.readPage 1 0x10 = some 0x00196E6B ∧ State.reset.readPage 1 0x14 = some 0x00196E6B ∧
    State.reset.readPage 4 0x00 = some 0x08320200 ∧ State.reset.readPage 4 0x04 = some 0x48003800 ∧
    State.reset.readPage 8 0x00 = some 0x00002040 ∧ State.reset.readPage 12 0x00 = some 0x32400000 ∧
    State.reset.readPmu 0x18 = some 950 ∧ State.reset.readPmu 0x1C = some 64 ∧ State.reset.readPmu 0x20 = some 2000 ∧
    State.reset.readPmu 0x24 = some 140 ∧ State.reset.readPmu 0x28 = some 10 ∧ State.reset.readDbg 0x00 = some 0x172045AF ∧
    State.reset.ready = false ∧ State.reset.nextHeader = none ∧ State.reset.pending = []
end

