-- ==== Sys2Proof/Laws/Memory.lean ====
section
/-! SUPPORT. The laws of a memory in canonical form: every operation on it keeps the form (keys rising, no entry equal to what an unlisted
key reads as), a read after a write to the key gives the value written, and a write leaves every other key alone. -/

namespace Sys2Proof.Machine

variable {α : Type}

theorem risingFrom_mono {a b : Nat} (h : a ≤ b) (m : SMap α) (hm : risingFrom b m = true) : risingFrom a m = true := by
  cases m with
  | nil => rfl
  | cons p m => simp [risingFrom] at hm ⊢; exact ⟨by omega, hm.2⟩

theorem putRaw_rising (b k : Nat) (v : α) (hk : b ≤ k) (m : SMap α) (hm : risingFrom b m = true) :
    risingFrom b (putRaw k v m) = true := by
  induction m generalizing b with
  | nil => simp [putRaw, risingFrom, hk]
  | cons p m ih =>
    obtain ⟨a, w⟩ := p
    simp [risingFrom] at hm
    by_cases h1 : k < a
    · simp only [putRaw, h1, if_true, risingFrom, Bool.and_eq_true, decide_eq_true_eq]
      exact ⟨hk, by omega, hm.2⟩
    · by_cases h2 : k = a
      · subst h2
        rw [putRaw, if_neg h1, if_pos rfl, risingFrom, hm.2]
        simpa using hm.1
      · simp only [putRaw, h1, h2, if_false, risingFrom, Bool.and_eq_true, decide_eq_true_eq]
        exact ⟨hm.1, ih (a + 1) (by omega) hm.2⟩

theorem eraseKey_rising (b k : Nat) (m : SMap α) (hm : risingFrom b m = true) : risingFrom b (eraseKey k m) = true := by
  induction m generalizing b with
  | nil => rfl
  | cons p m ih =>
    obtain ⟨a, w⟩ := p
    simp [risingFrom] at hm
    by_cases h : k = a
    · simp only [eraseKey, h, if_true]; exact risingFrom_mono (by omega) m hm.2
    · simp only [eraseKey, h, if_false, risingFrom, Bool.and_eq_true, decide_eq_true_eq]
      exact ⟨hm.1, ih (a + 1) hm.2⟩

theorem filter_rising (b : Nat) (p : Nat × α → Bool) (m : SMap α) (hm : risingFrom b m = true) :
    risingFrom b (m.filter p) = true := by
  induction m generalizing b with
  | nil => rfl
  | cons q m ih =>
    simp [risingFrom] at hm
    by_cases h : p q = true
    · simp only [List.filter_cons_of_pos h, risingFrom, Bool.and_eq_true, decide_eq_true_eq]
      exact ⟨hm.1, ih (q.1 + 1) hm.2⟩
    · rw [List.filter_cons_of_neg h]; exact risingFrom_mono (by omega) _ (ih (q.1 + 1) hm.2)

theorem mem_putRaw {k : Nat} {v : α} {p : Nat × α} {m : SMap α} (h : p ∈ putRaw k v m) : p = (k, v) ∨ p ∈ m := by
  induction m with
  | nil => simpa [putRaw] using h
  | cons q m ih =>
    obtain ⟨a, w⟩ := q
    simp only [putRaw] at h
    split at h
    · simpa using h
    · split at h
      · simp only [List.mem_cons] at h ⊢; tauto
      · simp only [List.mem_cons] at h ⊢; rcases h with h | h
        · exact .inr (.inl h)
        · rcases ih h with h | h <;> simp [h]

theorem mem_eraseKey {k : Nat} {p : Nat × α} {m : SMap α} (h : p ∈ eraseKey k m) : p ∈ m := by
  induction m with
  | nil => exact h
  | cons q m ih =>
    obtain ⟨a, w⟩ := q
    simp only [eraseKey] at h
    split at h
    · exact List.mem_cons_of_mem _ h
    · simp only [List.mem_cons] at h ⊢; exact h.imp id ih

/-- A write keeps the canonical form. -/
@[simp] theorem put_memWf [DecidableEq α] (d v : α) (k : Nat) (m : SMap α) (hm : memWf d m = true) : memWf d (put d k v m) = true := by
  simp only [memWf, Bool.and_eq_true, List.all_eq_true, decide_eq_true_eq] at hm ⊢
  unfold put
  split
  · exact ⟨eraseKey_rising 0 k m hm.1, fun p h => hm.2 p (mem_eraseKey h)⟩
  · refine ⟨putRaw_rising 0 k v (Nat.zero_le _) m hm.1, fun p h => ?_⟩
    rcases mem_putRaw h with h | h
    · subst h; assumption
    · exact hm.2 p h

/-- Taking entries out keeps the canonical form. -/
@[simp] theorem filter_memWf [DecidableEq α] (d : α) (p : Nat × α → Bool) (m : SMap α) (hm : memWf d m = true) :
    memWf d (m.filter p) = true := by
  simp only [memWf, Bool.and_eq_true, List.all_eq_true, decide_eq_true_eq] at hm ⊢
  exact ⟨filter_rising 0 p m hm.1, fun q h => hm.2 q (List.mem_filter.1 h).1⟩

/-- A write of bytes keeps the canonical form. -/
@[simp] theorem putBytes_memWf (a : Nat) (bs : List Byte) (m : SMap Byte) (hm : memWf 0 m = true) : memWf 0 (putBytes a bs m) = true := by
  induction bs generalizing a m with
  | nil => exact hm
  | cons b bs ih => exact ih (a + 1) _ (put_memWf 0 b a m hm)

@[simp] theorem nil_memWf [DecidableEq α] (d : α) : memWf d ([] : SMap α) = true := rfl

-- What a key reads as after a write.

@[simp] theorem look_putRaw_self (d v : α) (k : Nat) (m : SMap α) : look d (putRaw k v m) k = v := by
  induction m with
  | nil => simp [putRaw, look]
  | cons q m ih =>
    obtain ⟨a, w⟩ := q
    simp only [putRaw]
    split
    · simp [look]
    · split
      · simp [look]
      · rename_i h; simp [look, h, ih]

theorem look_putRaw_ne (d v : α) {k j : Nat} (h : j ≠ k) (m : SMap α) : look d (putRaw k v m) j = look d m j := by
  induction m with
  | nil => simp [putRaw, look, h]
  | cons q m ih =>
    obtain ⟨a, w⟩ := q
    simp only [putRaw]
    split
    · simp [look, h]
    · split
      · rename_i h2; subst h2; simp [look, h]
      · simp only [look, ih]

theorem look_below (d : α) {k b : Nat} (m : SMap α) (hm : risingFrom b m = true) (h : k < b) : look d m k = d := by
  induction m generalizing b with
  | nil => rfl
  | cons q m ih =>
    obtain ⟨a, w⟩ := q
    simp [risingFrom] at hm
    rw [look, if_neg (by omega)]
    exact ih hm.2 (by omega)

theorem look_eraseKey_self (d : α) (k : Nat) (m : SMap α) {b : Nat} (hm : risingFrom b m = true) : look d (eraseKey k m) k = d := by
  induction m generalizing b with
  | nil => rfl
  | cons q m ih =>
    obtain ⟨a, w⟩ := q
    simp [risingFrom] at hm
    simp only [eraseKey]
    split
    · rename_i h; subst h; exact look_below d m hm.2 (by omega)
    · rename_i h; rw [look, if_neg h]; exact ih hm.2

theorem look_eraseKey_ne (d : α) {k j : Nat} (h : j ≠ k) (m : SMap α) : look d (eraseKey k m) j = look d m j := by
  induction m with
  | nil => rfl
  | cons q m ih =>
    obtain ⟨a, w⟩ := q
    simp only [eraseKey]
    split
    · rename_i h2; subst h2; simp [look, h]
    · simp only [look, ih]

/-- A read after a write to the key gives the value written. -/
theorem look_put_self [DecidableEq α] (d v : α) (k : Nat) (m : SMap α) (hm : memWf d m = true) : look d (put d k v m) k = v := by
  simp only [memWf, Bool.and_eq_true] at hm
  unfold put
  split
  · rename_i h; rw [look_eraseKey_self d k m hm.1, h]
  · exact look_putRaw_self d v k m

/-- A write leaves every other key alone. -/
theorem look_put_ne [DecidableEq α] (d v : α) {k j : Nat} (h : j ≠ k) (m : SMap α) : look d (put d k v m) j = look d m j := by
  unfold put
  split
  · exact look_eraseKey_ne d h m
  · exact look_putRaw_ne d v h m

/-- A modification of a key is read there, and leaves every other key alone. -/
@[simp] theorem look_modify_self (d : α) (k : Nat) (f : α → α) (m : SMap α) : look d (modify d k f m) k = f (look d m k) :=
  look_putRaw_self ..

theorem look_modify_ne (d : α) {k j : Nat} (h : j ≠ k) (f : α → α) (m : SMap α) : look d (modify d k f m) j = look d m j :=
  look_putRaw_ne _ _ h _

end Sys2Proof.Machine
end

