-- ==== Sys2Proof/Laws/Forms.lean ====
section
/-! SUPPORT. What the common forms of a row do: a guarded effect, a command that is taken, a Weave frame that arrives, a queue's change. -/

namespace Sys2Proof.Machine

/-- A guard that holds lets the effect happen. -/
@[simp] theorem onlyIf_true (f : State → State) (s : State) : onlyIf true f s = f s := rfl

/-- A guard that is met lets the effect happen. -/
theorem onlyIf_of {b : Bool} {f : State → State} {s : State} (h : b = true) : onlyIf b f s = f s := by rw [h]; rfl

/-- A guard of two parts is met where both are. -/
theorem and_of {a b : Bool} (ha : a = true) (hb : b = true) : (a && b) = true := by rw [ha, hb]; rfl

/-- A guard that does not hold leaves the state. -/
@[simp] theorem onlyIf_false (f : State → State) (s : State) : onlyIf false f s = s := rfl

/-- A command that is taken has its body's effect. -/
theorem command_of_take {p : Packet} {ok : Line → Bool} {t : Taken} {s u : State} (h : s.take p ok = (some t, u))
    (body : Taken → State → State) : s.command p ok body = body t u := by
  simp [State.command, h]

/-- A command row whose header is not the next leaves the state. -/
theorem command_of_other {p : Packet} {s : State} (h : ∀ x, s.nextHeader = some x → x.ring ≠ p.ring ∨ x.hdr ≠ p.hdr)
    (ok : Line → Bool) (body : Taken → State → State) : s.command p ok body = s := by
  simp only [State.command, State.take]
  cases q : s.nextHeader with
  | none => rfl
  | some x =>
    have : x.ring ≠ p.ring ∨ x.hdr ≠ p.hdr ∨ (!ok x.hdr) = true := by rcases h x q with a | a <;> simp [a]
    simp only [this, if_true]

/-- A frame that arrives has its body's effect on the state that acknowledges it. -/
theorem frame_of_arrives {kind vc : Nat} {w : Wrx} {s u : State} (h : Safety.arrives kind vc s w u) (body : State → State) :
    State.frame kind vc w body s = body u := by
  obtain ⟨a, b, c, ⟨v, d, rfl⟩, e, f⟩ := h
  simp only [State.frame, a, b, c, d, e]
  simp [f]

/-- The one ready entry is chosen after any. -/
theorem nextAfter_one (a c : Nat) : nextAfter a [c] = some c := by
  unfold nextAfter
  by_cases h : a < c <;> simp [h]

/-- No entry is chosen among none. -/
theorem chooseCtx_nil (a b : Nat) : chooseCtx [] [] a b = none := by simp [chooseCtx, nextAfter]

/-- A change that hands no work over leaves the classical lane's order. -/
theorem handTogether_of_id {f : State → State} {s : State} (h : f s = s) : handTogether f s = s := by
  have a : s.wp.lane.filter s.wp.lane.contains = s.wp.lane := List.filter_eq_self.2 (by simp)
  have b : s.wp.lane.filter (fun j => !s.wp.lane.contains j) = [] := by rw [List.filter_eq_nil_iff]; simp
  simp only [handTogether, h, State.onWp, a, b, sortJobs, List.foldl_nil, List.append_nil]

/-- A change of a queue is seen in it. -/
theorem onQueue_queue (q : Nat) (f : Queue → Queue) (s : State) : (s.onQueue q f).queue q = f (s.queue q) := by
  simp [State.onQueue, State.onMover, State.queue, look_modify_self]

end Sys2Proof.Machine
end

