-- ==== Sys2Proof/Laws/State.lean ====
section
/-! SUPPORT. One lemma for each component of State under each updater: an updater changes its own component and no other. -/

namespace Sys2Proof.Machine

-- freeCtr
@[simp] theorem State.onFreeCtr_pending (f : Nat → Nat) (s : State) : (s.onFreeCtr f).pending = s.pending := rfl
@[simp] theorem State.onFreeCtr_freeCtr (f : Nat → Nat) (s : State) : (s.onFreeCtr f).freeCtr = f s.freeCtr := rfl
@[simp] theorem State.onFreeCtr_tick (f : Nat → Nat) (s : State) : (s.onFreeCtr f).tick = s.tick := rfl
@[simp] theorem State.onFreeCtr_easel (f : Nat → Nat) (s : State) : (s.onFreeCtr f).easel = s.easel := rfl
@[simp] theorem State.onFreeCtr_link (f : Nat → Nat) (s : State) : (s.onFreeCtr f).link = s.link := rfl
@[simp] theorem State.onFreeCtr_panels (f : Nat → Nat) (s : State) : (s.onFreeCtr f).panels = s.panels := rfl
@[simp] theorem State.onFreeCtr_primer (f : Nat → Nat) (s : State) : (s.onFreeCtr f).primer = s.primer := rfl
@[simp] theorem State.onFreeCtr_liner (f : Nat → Nat) (s : State) : (s.onFreeCtr f).liner = s.liner := rfl
@[simp] theorem State.onFreeCtr_wp (f : Nat → Nat) (s : State) : (s.onFreeCtr f).wp = s.wp := rfl
@[simp] theorem State.onFreeCtr_glaze (f : Nat → Nat) (s : State) : (s.onFreeCtr f).glaze = s.glaze := rfl
@[simp] theorem State.onFreeCtr_pal (f : Nat → Nat) (s : State) : (s.onFreeCtr f).pal = s.pal := rfl
@[simp] theorem State.onFreeCtr_win (f : Nat → Nat) (s : State) : (s.onFreeCtr f).win = s.win := rfl
@[simp] theorem State.onFreeCtr_sw (f : Nat → Nat) (s : State) : (s.onFreeCtr f).sw = s.sw := rfl
@[simp] theorem State.onFreeCtr_chest (f : Nat → Nat) (s : State) : (s.onFreeCtr f).chest = s.chest := rfl
@[simp] theorem State.onFreeCtr_mover (f : Nat → Nat) (s : State) : (s.onFreeCtr f).mover = s.mover := rfl
@[simp] theorem State.onFreeCtr_fab (f : Nat → Nat) (s : State) : (s.onFreeCtr f).fab = s.fab := rfl
@[simp] theorem State.onFreeCtr_pmu (f : Nat → Nat) (s : State) : (s.onFreeCtr f).pmu = s.pmu := rfl
@[simp] theorem State.onFreeCtr_boot (f : Nat → Nat) (s : State) : (s.onFreeCtr f).boot = s.boot := rfl
@[simp] theorem State.onFreeCtr_dbg (f : Nat → Nat) (s : State) : (s.onFreeCtr f).dbg = s.dbg := rfl
@[simp] theorem State.onFreeCtr_pins (f : Nat → Nat) (s : State) : (s.onFreeCtr f).pins = s.pins := rfl

-- tick
@[simp] theorem State.onTick_pending (f : TickUnit → TickUnit) (s : State) : (s.onTick f).pending = s.pending := rfl
@[simp] theorem State.onTick_freeCtr (f : TickUnit → TickUnit) (s : State) : (s.onTick f).freeCtr = s.freeCtr := rfl
@[simp] theorem State.onTick_tick (f : TickUnit → TickUnit) (s : State) : (s.onTick f).tick = f s.tick := rfl
@[simp] theorem State.onTick_easel (f : TickUnit → TickUnit) (s : State) : (s.onTick f).easel = s.easel := rfl
@[simp] theorem State.onTick_link (f : TickUnit → TickUnit) (s : State) : (s.onTick f).link = s.link := rfl
@[simp] theorem State.onTick_panels (f : TickUnit → TickUnit) (s : State) : (s.onTick f).panels = s.panels := rfl
@[simp] theorem State.onTick_primer (f : TickUnit → TickUnit) (s : State) : (s.onTick f).primer = s.primer := rfl
@[simp] theorem State.onTick_liner (f : TickUnit → TickUnit) (s : State) : (s.onTick f).liner = s.liner := rfl
@[simp] theorem State.onTick_wp (f : TickUnit → TickUnit) (s : State) : (s.onTick f).wp = s.wp := rfl
@[simp] theorem State.onTick_glaze (f : TickUnit → TickUnit) (s : State) : (s.onTick f).glaze = s.glaze := rfl
@[simp] theorem State.onTick_pal (f : TickUnit → TickUnit) (s : State) : (s.onTick f).pal = s.pal := rfl
@[simp] theorem State.onTick_win (f : TickUnit → TickUnit) (s : State) : (s.onTick f).win = s.win := rfl
@[simp] theorem State.onTick_sw (f : TickUnit → TickUnit) (s : State) : (s.onTick f).sw = s.sw := rfl
@[simp] theorem State.onTick_chest (f : TickUnit → TickUnit) (s : State) : (s.onTick f).chest = s.chest := rfl
@[simp] theorem State.onTick_mover (f : TickUnit → TickUnit) (s : State) : (s.onTick f).mover = s.mover := rfl
@[simp] theorem State.onTick_fab (f : TickUnit → TickUnit) (s : State) : (s.onTick f).fab = s.fab := rfl
@[simp] theorem State.onTick_pmu (f : TickUnit → TickUnit) (s : State) : (s.onTick f).pmu = s.pmu := rfl
@[simp] theorem State.onTick_boot (f : TickUnit → TickUnit) (s : State) : (s.onTick f).boot = s.boot := rfl
@[simp] theorem State.onTick_dbg (f : TickUnit → TickUnit) (s : State) : (s.onTick f).dbg = s.dbg := rfl
@[simp] theorem State.onTick_pins (f : TickUnit → TickUnit) (s : State) : (s.onTick f).pins = s.pins := rfl

-- easel
@[simp] theorem State.onEasel_pending (f : Easel → Easel) (s : State) : (s.onEasel f).pending = s.pending := rfl
@[simp] theorem State.onEasel_freeCtr (f : Easel → Easel) (s : State) : (s.onEasel f).freeCtr = s.freeCtr := rfl
@[simp] theorem State.onEasel_tick (f : Easel → Easel) (s : State) : (s.onEasel f).tick = s.tick := rfl
@[simp] theorem State.onEasel_easel (f : Easel → Easel) (s : State) : (s.onEasel f).easel = f s.easel := rfl
@[simp] theorem State.onEasel_link (f : Easel → Easel) (s : State) : (s.onEasel f).link = s.link := rfl
@[simp] theorem State.onEasel_panels (f : Easel → Easel) (s : State) : (s.onEasel f).panels = s.panels := rfl
@[simp] theorem State.onEasel_primer (f : Easel → Easel) (s : State) : (s.onEasel f).primer = s.primer := rfl
@[simp] theorem State.onEasel_liner (f : Easel → Easel) (s : State) : (s.onEasel f).liner = s.liner := rfl
@[simp] theorem State.onEasel_wp (f : Easel → Easel) (s : State) : (s.onEasel f).wp = s.wp := rfl
@[simp] theorem State.onEasel_glaze (f : Easel → Easel) (s : State) : (s.onEasel f).glaze = s.glaze := rfl
@[simp] theorem State.onEasel_pal (f : Easel → Easel) (s : State) : (s.onEasel f).pal = s.pal := rfl
@[simp] theorem State.onEasel_win (f : Easel → Easel) (s : State) : (s.onEasel f).win = s.win := rfl
@[simp] theorem State.onEasel_sw (f : Easel → Easel) (s : State) : (s.onEasel f).sw = s.sw := rfl
@[simp] theorem State.onEasel_chest (f : Easel → Easel) (s : State) : (s.onEasel f).chest = s.chest := rfl
@[simp] theorem State.onEasel_mover (f : Easel → Easel) (s : State) : (s.onEasel f).mover = s.mover := rfl
@[simp] theorem State.onEasel_fab (f : Easel → Easel) (s : State) : (s.onEasel f).fab = s.fab := rfl
@[simp] theorem State.onEasel_pmu (f : Easel → Easel) (s : State) : (s.onEasel f).pmu = s.pmu := rfl
@[simp] theorem State.onEasel_boot (f : Easel → Easel) (s : State) : (s.onEasel f).boot = s.boot := rfl
@[simp] theorem State.onEasel_dbg (f : Easel → Easel) (s : State) : (s.onEasel f).dbg = s.dbg := rfl
@[simp] theorem State.onEasel_pins (f : Easel → Easel) (s : State) : (s.onEasel f).pins = s.pins := rfl

-- link
@[simp] theorem State.onLink_pending (f : HostLink → HostLink) (s : State) : (s.onLink f).pending = s.pending := rfl
@[simp] theorem State.onLink_freeCtr (f : HostLink → HostLink) (s : State) : (s.onLink f).freeCtr = s.freeCtr := rfl
@[simp] theorem State.onLink_tick (f : HostLink → HostLink) (s : State) : (s.onLink f).tick = s.tick := rfl
@[simp] theorem State.onLink_easel (f : HostLink → HostLink) (s : State) : (s.onLink f).easel = s.easel := rfl
@[simp] theorem State.onLink_link (f : HostLink → HostLink) (s : State) : (s.onLink f).link = f s.link := rfl
@[simp] theorem State.onLink_panels (f : HostLink → HostLink) (s : State) : (s.onLink f).panels = s.panels := rfl
@[simp] theorem State.onLink_primer (f : HostLink → HostLink) (s : State) : (s.onLink f).primer = s.primer := rfl
@[simp] theorem State.onLink_liner (f : HostLink → HostLink) (s : State) : (s.onLink f).liner = s.liner := rfl
@[simp] theorem State.onLink_wp (f : HostLink → HostLink) (s : State) : (s.onLink f).wp = s.wp := rfl
@[simp] theorem State.onLink_glaze (f : HostLink → HostLink) (s : State) : (s.onLink f).glaze = s.glaze := rfl
@[simp] theorem State.onLink_pal (f : HostLink → HostLink) (s : State) : (s.onLink f).pal = s.pal := rfl
@[simp] theorem State.onLink_win (f : HostLink → HostLink) (s : State) : (s.onLink f).win = s.win := rfl
@[simp] theorem State.onLink_sw (f : HostLink → HostLink) (s : State) : (s.onLink f).sw = s.sw := rfl
@[simp] theorem State.onLink_chest (f : HostLink → HostLink) (s : State) : (s.onLink f).chest = s.chest := rfl
@[simp] theorem State.onLink_mover (f : HostLink → HostLink) (s : State) : (s.onLink f).mover = s.mover := rfl
@[simp] theorem State.onLink_fab (f : HostLink → HostLink) (s : State) : (s.onLink f).fab = s.fab := rfl
@[simp] theorem State.onLink_pmu (f : HostLink → HostLink) (s : State) : (s.onLink f).pmu = s.pmu := rfl
@[simp] theorem State.onLink_boot (f : HostLink → HostLink) (s : State) : (s.onLink f).boot = s.boot := rfl
@[simp] theorem State.onLink_dbg (f : HostLink → HostLink) (s : State) : (s.onLink f).dbg = s.dbg := rfl
@[simp] theorem State.onLink_pins (f : HostLink → HostLink) (s : State) : (s.onLink f).pins = s.pins := rfl

-- panels
@[simp] theorem State.onPanels_pending (f : PanelUnit → PanelUnit) (s : State) : (s.onPanels f).pending = s.pending := rfl
@[simp] theorem State.onPanels_freeCtr (f : PanelUnit → PanelUnit) (s : State) : (s.onPanels f).freeCtr = s.freeCtr := rfl
@[simp] theorem State.onPanels_tick (f : PanelUnit → PanelUnit) (s : State) : (s.onPanels f).tick = s.tick := rfl
@[simp] theorem State.onPanels_easel (f : PanelUnit → PanelUnit) (s : State) : (s.onPanels f).easel = s.easel := rfl
@[simp] theorem State.onPanels_link (f : PanelUnit → PanelUnit) (s : State) : (s.onPanels f).link = s.link := rfl
@[simp] theorem State.onPanels_panels (f : PanelUnit → PanelUnit) (s : State) : (s.onPanels f).panels = f s.panels := rfl
@[simp] theorem State.onPanels_primer (f : PanelUnit → PanelUnit) (s : State) : (s.onPanels f).primer = s.primer := rfl
@[simp] theorem State.onPanels_liner (f : PanelUnit → PanelUnit) (s : State) : (s.onPanels f).liner = s.liner := rfl
@[simp] theorem State.onPanels_wp (f : PanelUnit → PanelUnit) (s : State) : (s.onPanels f).wp = s.wp := rfl
@[simp] theorem State.onPanels_glaze (f : PanelUnit → PanelUnit) (s : State) : (s.onPanels f).glaze = s.glaze := rfl
@[simp] theorem State.onPanels_pal (f : PanelUnit → PanelUnit) (s : State) : (s.onPanels f).pal = s.pal := rfl
@[simp] theorem State.onPanels_win (f : PanelUnit → PanelUnit) (s : State) : (s.onPanels f).win = s.win := rfl
@[simp] theorem State.onPanels_sw (f : PanelUnit → PanelUnit) (s : State) : (s.onPanels f).sw = s.sw := rfl
@[simp] theorem State.onPanels_chest (f : PanelUnit → PanelUnit) (s : State) : (s.onPanels f).chest = s.chest := rfl
@[simp] theorem State.onPanels_mover (f : PanelUnit → PanelUnit) (s : State) : (s.onPanels f).mover = s.mover := rfl
@[simp] theorem State.onPanels_fab (f : PanelUnit → PanelUnit) (s : State) : (s.onPanels f).fab = s.fab := rfl
@[simp] theorem State.onPanels_pmu (f : PanelUnit → PanelUnit) (s : State) : (s.onPanels f).pmu = s.pmu := rfl
@[simp] theorem State.onPanels_boot (f : PanelUnit → PanelUnit) (s : State) : (s.onPanels f).boot = s.boot := rfl
@[simp] theorem State.onPanels_dbg (f : PanelUnit → PanelUnit) (s : State) : (s.onPanels f).dbg = s.dbg := rfl
@[simp] theorem State.onPanels_pins (f : PanelUnit → PanelUnit) (s : State) : (s.onPanels f).pins = s.pins := rfl

-- primer
@[simp] theorem State.onPrimer_pending (f : Primer → Primer) (s : State) : (s.onPrimer f).pending = s.pending := rfl
@[simp] theorem State.onPrimer_freeCtr (f : Primer → Primer) (s : State) : (s.onPrimer f).freeCtr = s.freeCtr := rfl
@[simp] theorem State.onPrimer_tick (f : Primer → Primer) (s : State) : (s.onPrimer f).tick = s.tick := rfl
@[simp] theorem State.onPrimer_easel (f : Primer → Primer) (s : State) : (s.onPrimer f).easel = s.easel := rfl
@[simp] theorem State.onPrimer_link (f : Primer → Primer) (s : State) : (s.onPrimer f).link = s.link := rfl
@[simp] theorem State.onPrimer_panels (f : Primer → Primer) (s : State) : (s.onPrimer f).panels = s.panels := rfl
@[simp] theorem State.onPrimer_primer (f : Primer → Primer) (s : State) : (s.onPrimer f).primer = f s.primer := rfl
@[simp] theorem State.onPrimer_liner (f : Primer → Primer) (s : State) : (s.onPrimer f).liner = s.liner := rfl
@[simp] theorem State.onPrimer_wp (f : Primer → Primer) (s : State) : (s.onPrimer f).wp = s.wp := rfl
@[simp] theorem State.onPrimer_glaze (f : Primer → Primer) (s : State) : (s.onPrimer f).glaze = s.glaze := rfl
@[simp] theorem State.onPrimer_pal (f : Primer → Primer) (s : State) : (s.onPrimer f).pal = s.pal := rfl
@[simp] theorem State.onPrimer_win (f : Primer → Primer) (s : State) : (s.onPrimer f).win = s.win := rfl
@[simp] theorem State.onPrimer_sw (f : Primer → Primer) (s : State) : (s.onPrimer f).sw = s.sw := rfl
@[simp] theorem State.onPrimer_chest (f : Primer → Primer) (s : State) : (s.onPrimer f).chest = s.chest := rfl
@[simp] theorem State.onPrimer_mover (f : Primer → Primer) (s : State) : (s.onPrimer f).mover = s.mover := rfl
@[simp] theorem State.onPrimer_fab (f : Primer → Primer) (s : State) : (s.onPrimer f).fab = s.fab := rfl
@[simp] theorem State.onPrimer_pmu (f : Primer → Primer) (s : State) : (s.onPrimer f).pmu = s.pmu := rfl
@[simp] theorem State.onPrimer_boot (f : Primer → Primer) (s : State) : (s.onPrimer f).boot = s.boot := rfl
@[simp] theorem State.onPrimer_dbg (f : Primer → Primer) (s : State) : (s.onPrimer f).dbg = s.dbg := rfl
@[simp] theorem State.onPrimer_pins (f : Primer → Primer) (s : State) : (s.onPrimer f).pins = s.pins := rfl

-- liner
@[simp] theorem State.onLiner_pending (f : Liner → Liner) (s : State) : (s.onLiner f).pending = s.pending := rfl
@[simp] theorem State.onLiner_freeCtr (f : Liner → Liner) (s : State) : (s.onLiner f).freeCtr = s.freeCtr := rfl
@[simp] theorem State.onLiner_tick (f : Liner → Liner) (s : State) : (s.onLiner f).tick = s.tick := rfl
@[simp] theorem State.onLiner_easel (f : Liner → Liner) (s : State) : (s.onLiner f).easel = s.easel := rfl
@[simp] theorem State.onLiner_link (f : Liner → Liner) (s : State) : (s.onLiner f).link = s.link := rfl
@[simp] theorem State.onLiner_panels (f : Liner → Liner) (s : State) : (s.onLiner f).panels = s.panels := rfl
@[simp] theorem State.onLiner_primer (f : Liner → Liner) (s : State) : (s.onLiner f).primer = s.primer := rfl
@[simp] theorem State.onLiner_liner (f : Liner → Liner) (s : State) : (s.onLiner f).liner = f s.liner := rfl
@[simp] theorem State.onLiner_wp (f : Liner → Liner) (s : State) : (s.onLiner f).wp = s.wp := rfl
@[simp] theorem State.onLiner_glaze (f : Liner → Liner) (s : State) : (s.onLiner f).glaze = s.glaze := rfl
@[simp] theorem State.onLiner_pal (f : Liner → Liner) (s : State) : (s.onLiner f).pal = s.pal := rfl
@[simp] theorem State.onLiner_win (f : Liner → Liner) (s : State) : (s.onLiner f).win = s.win := rfl
@[simp] theorem State.onLiner_sw (f : Liner → Liner) (s : State) : (s.onLiner f).sw = s.sw := rfl
@[simp] theorem State.onLiner_chest (f : Liner → Liner) (s : State) : (s.onLiner f).chest = s.chest := rfl
@[simp] theorem State.onLiner_mover (f : Liner → Liner) (s : State) : (s.onLiner f).mover = s.mover := rfl
@[simp] theorem State.onLiner_fab (f : Liner → Liner) (s : State) : (s.onLiner f).fab = s.fab := rfl
@[simp] theorem State.onLiner_pmu (f : Liner → Liner) (s : State) : (s.onLiner f).pmu = s.pmu := rfl
@[simp] theorem State.onLiner_boot (f : Liner → Liner) (s : State) : (s.onLiner f).boot = s.boot := rfl
@[simp] theorem State.onLiner_dbg (f : Liner → Liner) (s : State) : (s.onLiner f).dbg = s.dbg := rfl
@[simp] theorem State.onLiner_pins (f : Liner → Liner) (s : State) : (s.onLiner f).pins = s.pins := rfl

-- wp
@[simp] theorem State.onWp_pending (f : WarpPix → WarpPix) (s : State) : (s.onWp f).pending = s.pending := rfl
@[simp] theorem State.onWp_freeCtr (f : WarpPix → WarpPix) (s : State) : (s.onWp f).freeCtr = s.freeCtr := rfl
@[simp] theorem State.onWp_tick (f : WarpPix → WarpPix) (s : State) : (s.onWp f).tick = s.tick := rfl
@[simp] theorem State.onWp_easel (f : WarpPix → WarpPix) (s : State) : (s.onWp f).easel = s.easel := rfl
@[simp] theorem State.onWp_link (f : WarpPix → WarpPix) (s : State) : (s.onWp f).link = s.link := rfl
@[simp] theorem State.onWp_panels (f : WarpPix → WarpPix) (s : State) : (s.onWp f).panels = s.panels := rfl
@[simp] theorem State.onWp_primer (f : WarpPix → WarpPix) (s : State) : (s.onWp f).primer = s.primer := rfl
@[simp] theorem State.onWp_liner (f : WarpPix → WarpPix) (s : State) : (s.onWp f).liner = s.liner := rfl
@[simp] theorem State.onWp_wp (f : WarpPix → WarpPix) (s : State) : (s.onWp f).wp = f s.wp := rfl
@[simp] theorem State.onWp_glaze (f : WarpPix → WarpPix) (s : State) : (s.onWp f).glaze = s.glaze := rfl
@[simp] theorem State.onWp_pal (f : WarpPix → WarpPix) (s : State) : (s.onWp f).pal = s.pal := rfl
@[simp] theorem State.onWp_win (f : WarpPix → WarpPix) (s : State) : (s.onWp f).win = s.win := rfl
@[simp] theorem State.onWp_sw (f : WarpPix → WarpPix) (s : State) : (s.onWp f).sw = s.sw := rfl
@[simp] theorem State.onWp_chest (f : WarpPix → WarpPix) (s : State) : (s.onWp f).chest = s.chest := rfl
@[simp] theorem State.onWp_mover (f : WarpPix → WarpPix) (s : State) : (s.onWp f).mover = s.mover := rfl
@[simp] theorem State.onWp_fab (f : WarpPix → WarpPix) (s : State) : (s.onWp f).fab = s.fab := rfl
@[simp] theorem State.onWp_pmu (f : WarpPix → WarpPix) (s : State) : (s.onWp f).pmu = s.pmu := rfl
@[simp] theorem State.onWp_boot (f : WarpPix → WarpPix) (s : State) : (s.onWp f).boot = s.boot := rfl
@[simp] theorem State.onWp_dbg (f : WarpPix → WarpPix) (s : State) : (s.onWp f).dbg = s.dbg := rfl
@[simp] theorem State.onWp_pins (f : WarpPix → WarpPix) (s : State) : (s.onWp f).pins = s.pins := rfl

-- glaze
@[simp] theorem State.onGlaze_pending (f : Glaze → Glaze) (s : State) : (s.onGlaze f).pending = s.pending := rfl
@[simp] theorem State.onGlaze_freeCtr (f : Glaze → Glaze) (s : State) : (s.onGlaze f).freeCtr = s.freeCtr := rfl
@[simp] theorem State.onGlaze_tick (f : Glaze → Glaze) (s : State) : (s.onGlaze f).tick = s.tick := rfl
@[simp] theorem State.onGlaze_easel (f : Glaze → Glaze) (s : State) : (s.onGlaze f).easel = s.easel := rfl
@[simp] theorem State.onGlaze_link (f : Glaze → Glaze) (s : State) : (s.onGlaze f).link = s.link := rfl
@[simp] theorem State.onGlaze_panels (f : Glaze → Glaze) (s : State) : (s.onGlaze f).panels = s.panels := rfl
@[simp] theorem State.onGlaze_primer (f : Glaze → Glaze) (s : State) : (s.onGlaze f).primer = s.primer := rfl
@[simp] theorem State.onGlaze_liner (f : Glaze → Glaze) (s : State) : (s.onGlaze f).liner = s.liner := rfl
@[simp] theorem State.onGlaze_wp (f : Glaze → Glaze) (s : State) : (s.onGlaze f).wp = s.wp := rfl
@[simp] theorem State.onGlaze_glaze (f : Glaze → Glaze) (s : State) : (s.onGlaze f).glaze = f s.glaze := rfl
@[simp] theorem State.onGlaze_pal (f : Glaze → Glaze) (s : State) : (s.onGlaze f).pal = s.pal := rfl
@[simp] theorem State.onGlaze_win (f : Glaze → Glaze) (s : State) : (s.onGlaze f).win = s.win := rfl
@[simp] theorem State.onGlaze_sw (f : Glaze → Glaze) (s : State) : (s.onGlaze f).sw = s.sw := rfl
@[simp] theorem State.onGlaze_chest (f : Glaze → Glaze) (s : State) : (s.onGlaze f).chest = s.chest := rfl
@[simp] theorem State.onGlaze_mover (f : Glaze → Glaze) (s : State) : (s.onGlaze f).mover = s.mover := rfl
@[simp] theorem State.onGlaze_fab (f : Glaze → Glaze) (s : State) : (s.onGlaze f).fab = s.fab := rfl
@[simp] theorem State.onGlaze_pmu (f : Glaze → Glaze) (s : State) : (s.onGlaze f).pmu = s.pmu := rfl
@[simp] theorem State.onGlaze_boot (f : Glaze → Glaze) (s : State) : (s.onGlaze f).boot = s.boot := rfl
@[simp] theorem State.onGlaze_dbg (f : Glaze → Glaze) (s : State) : (s.onGlaze f).dbg = s.dbg := rfl
@[simp] theorem State.onGlaze_pins (f : Glaze → Glaze) (s : State) : (s.onGlaze f).pins = s.pins := rfl

-- pal
@[simp] theorem State.onPal_pending (f : Palette → Palette) (s : State) : (s.onPal f).pending = s.pending := rfl
@[simp] theorem State.onPal_freeCtr (f : Palette → Palette) (s : State) : (s.onPal f).freeCtr = s.freeCtr := rfl
@[simp] theorem State.onPal_tick (f : Palette → Palette) (s : State) : (s.onPal f).tick = s.tick := rfl
@[simp] theorem State.onPal_easel (f : Palette → Palette) (s : State) : (s.onPal f).easel = s.easel := rfl
@[simp] theorem State.onPal_link (f : Palette → Palette) (s : State) : (s.onPal f).link = s.link := rfl
@[simp] theorem State.onPal_panels (f : Palette → Palette) (s : State) : (s.onPal f).panels = s.panels := rfl
@[simp] theorem State.onPal_primer (f : Palette → Palette) (s : State) : (s.onPal f).primer = s.primer := rfl
@[simp] theorem State.onPal_liner (f : Palette → Palette) (s : State) : (s.onPal f).liner = s.liner := rfl
@[simp] theorem State.onPal_wp (f : Palette → Palette) (s : State) : (s.onPal f).wp = s.wp := rfl
@[simp] theorem State.onPal_glaze (f : Palette → Palette) (s : State) : (s.onPal f).glaze = s.glaze := rfl
@[simp] theorem State.onPal_pal (f : Palette → Palette) (s : State) : (s.onPal f).pal = f s.pal := rfl
@[simp] theorem State.onPal_win (f : Palette → Palette) (s : State) : (s.onPal f).win = s.win := rfl
@[simp] theorem State.onPal_sw (f : Palette → Palette) (s : State) : (s.onPal f).sw = s.sw := rfl
@[simp] theorem State.onPal_chest (f : Palette → Palette) (s : State) : (s.onPal f).chest = s.chest := rfl
@[simp] theorem State.onPal_mover (f : Palette → Palette) (s : State) : (s.onPal f).mover = s.mover := rfl
@[simp] theorem State.onPal_fab (f : Palette → Palette) (s : State) : (s.onPal f).fab = s.fab := rfl
@[simp] theorem State.onPal_pmu (f : Palette → Palette) (s : State) : (s.onPal f).pmu = s.pmu := rfl
@[simp] theorem State.onPal_boot (f : Palette → Palette) (s : State) : (s.onPal f).boot = s.boot := rfl
@[simp] theorem State.onPal_dbg (f : Palette → Palette) (s : State) : (s.onPal f).dbg = s.dbg := rfl
@[simp] theorem State.onPal_pins (f : Palette → Palette) (s : State) : (s.onPal f).pins = s.pins := rfl

-- win
@[simp] theorem State.onWin_pending (f : Window → Window) (s : State) : (s.onWin f).pending = s.pending := rfl
@[simp] theorem State.onWin_freeCtr (f : Window → Window) (s : State) : (s.onWin f).freeCtr = s.freeCtr := rfl
@[simp] theorem State.onWin_tick (f : Window → Window) (s : State) : (s.onWin f).tick = s.tick := rfl
@[simp] theorem State.onWin_easel (f : Window → Window) (s : State) : (s.onWin f).easel = s.easel := rfl
@[simp] theorem State.onWin_link (f : Window → Window) (s : State) : (s.onWin f).link = s.link := rfl
@[simp] theorem State.onWin_panels (f : Window → Window) (s : State) : (s.onWin f).panels = s.panels := rfl
@[simp] theorem State.onWin_primer (f : Window → Window) (s : State) : (s.onWin f).primer = s.primer := rfl
@[simp] theorem State.onWin_liner (f : Window → Window) (s : State) : (s.onWin f).liner = s.liner := rfl
@[simp] theorem State.onWin_wp (f : Window → Window) (s : State) : (s.onWin f).wp = s.wp := rfl
@[simp] theorem State.onWin_glaze (f : Window → Window) (s : State) : (s.onWin f).glaze = s.glaze := rfl
@[simp] theorem State.onWin_pal (f : Window → Window) (s : State) : (s.onWin f).pal = s.pal := rfl
@[simp] theorem State.onWin_win (f : Window → Window) (s : State) : (s.onWin f).win = f s.win := rfl
@[simp] theorem State.onWin_sw (f : Window → Window) (s : State) : (s.onWin f).sw = s.sw := rfl
@[simp] theorem State.onWin_chest (f : Window → Window) (s : State) : (s.onWin f).chest = s.chest := rfl
@[simp] theorem State.onWin_mover (f : Window → Window) (s : State) : (s.onWin f).mover = s.mover := rfl
@[simp] theorem State.onWin_fab (f : Window → Window) (s : State) : (s.onWin f).fab = s.fab := rfl
@[simp] theorem State.onWin_pmu (f : Window → Window) (s : State) : (s.onWin f).pmu = s.pmu := rfl
@[simp] theorem State.onWin_boot (f : Window → Window) (s : State) : (s.onWin f).boot = s.boot := rfl
@[simp] theorem State.onWin_dbg (f : Window → Window) (s : State) : (s.onWin f).dbg = s.dbg := rfl
@[simp] theorem State.onWin_pins (f : Window → Window) (s : State) : (s.onWin f).pins = s.pins := rfl

-- sw
@[simp] theorem State.onSw_pending (f : Swatches → Swatches) (s : State) : (s.onSw f).pending = s.pending := rfl
@[simp] theorem State.onSw_freeCtr (f : Swatches → Swatches) (s : State) : (s.onSw f).freeCtr = s.freeCtr := rfl
@[simp] theorem State.onSw_tick (f : Swatches → Swatches) (s : State) : (s.onSw f).tick = s.tick := rfl
@[simp] theorem State.onSw_easel (f : Swatches → Swatches) (s : State) : (s.onSw f).easel = s.easel := rfl
@[simp] theorem State.onSw_link (f : Swatches → Swatches) (s : State) : (s.onSw f).link = s.link := rfl
@[simp] theorem State.onSw_panels (f : Swatches → Swatches) (s : State) : (s.onSw f).panels = s.panels := rfl
@[simp] theorem State.onSw_primer (f : Swatches → Swatches) (s : State) : (s.onSw f).primer = s.primer := rfl
@[simp] theorem State.onSw_liner (f : Swatches → Swatches) (s : State) : (s.onSw f).liner = s.liner := rfl
@[simp] theorem State.onSw_wp (f : Swatches → Swatches) (s : State) : (s.onSw f).wp = s.wp := rfl
@[simp] theorem State.onSw_glaze (f : Swatches → Swatches) (s : State) : (s.onSw f).glaze = s.glaze := rfl
@[simp] theorem State.onSw_pal (f : Swatches → Swatches) (s : State) : (s.onSw f).pal = s.pal := rfl
@[simp] theorem State.onSw_win (f : Swatches → Swatches) (s : State) : (s.onSw f).win = s.win := rfl
@[simp] theorem State.onSw_sw (f : Swatches → Swatches) (s : State) : (s.onSw f).sw = f s.sw := rfl
@[simp] theorem State.onSw_chest (f : Swatches → Swatches) (s : State) : (s.onSw f).chest = s.chest := rfl
@[simp] theorem State.onSw_mover (f : Swatches → Swatches) (s : State) : (s.onSw f).mover = s.mover := rfl
@[simp] theorem State.onSw_fab (f : Swatches → Swatches) (s : State) : (s.onSw f).fab = s.fab := rfl
@[simp] theorem State.onSw_pmu (f : Swatches → Swatches) (s : State) : (s.onSw f).pmu = s.pmu := rfl
@[simp] theorem State.onSw_boot (f : Swatches → Swatches) (s : State) : (s.onSw f).boot = s.boot := rfl
@[simp] theorem State.onSw_dbg (f : Swatches → Swatches) (s : State) : (s.onSw f).dbg = s.dbg := rfl
@[simp] theorem State.onSw_pins (f : Swatches → Swatches) (s : State) : (s.onSw f).pins = s.pins := rfl

-- chest
@[simp] theorem State.onChest_pending (f : Chest → Chest) (s : State) : (s.onChest f).pending = s.pending := rfl
@[simp] theorem State.onChest_freeCtr (f : Chest → Chest) (s : State) : (s.onChest f).freeCtr = s.freeCtr := rfl
@[simp] theorem State.onChest_tick (f : Chest → Chest) (s : State) : (s.onChest f).tick = s.tick := rfl
@[simp] theorem State.onChest_easel (f : Chest → Chest) (s : State) : (s.onChest f).easel = s.easel := rfl
@[simp] theorem State.onChest_link (f : Chest → Chest) (s : State) : (s.onChest f).link = s.link := rfl
@[simp] theorem State.onChest_panels (f : Chest → Chest) (s : State) : (s.onChest f).panels = s.panels := rfl
@[simp] theorem State.onChest_primer (f : Chest → Chest) (s : State) : (s.onChest f).primer = s.primer := rfl
@[simp] theorem State.onChest_liner (f : Chest → Chest) (s : State) : (s.onChest f).liner = s.liner := rfl
@[simp] theorem State.onChest_wp (f : Chest → Chest) (s : State) : (s.onChest f).wp = s.wp := rfl
@[simp] theorem State.onChest_glaze (f : Chest → Chest) (s : State) : (s.onChest f).glaze = s.glaze := rfl
@[simp] theorem State.onChest_pal (f : Chest → Chest) (s : State) : (s.onChest f).pal = s.pal := rfl
@[simp] theorem State.onChest_win (f : Chest → Chest) (s : State) : (s.onChest f).win = s.win := rfl
@[simp] theorem State.onChest_sw (f : Chest → Chest) (s : State) : (s.onChest f).sw = s.sw := rfl
@[simp] theorem State.onChest_chest (f : Chest → Chest) (s : State) : (s.onChest f).chest = f s.chest := rfl
@[simp] theorem State.onChest_mover (f : Chest → Chest) (s : State) : (s.onChest f).mover = s.mover := rfl
@[simp] theorem State.onChest_fab (f : Chest → Chest) (s : State) : (s.onChest f).fab = s.fab := rfl
@[simp] theorem State.onChest_pmu (f : Chest → Chest) (s : State) : (s.onChest f).pmu = s.pmu := rfl
@[simp] theorem State.onChest_boot (f : Chest → Chest) (s : State) : (s.onChest f).boot = s.boot := rfl
@[simp] theorem State.onChest_dbg (f : Chest → Chest) (s : State) : (s.onChest f).dbg = s.dbg := rfl
@[simp] theorem State.onChest_pins (f : Chest → Chest) (s : State) : (s.onChest f).pins = s.pins := rfl

-- mover
@[simp] theorem State.onMover_pending (f : Mover → Mover) (s : State) : (s.onMover f).pending = s.pending := rfl
@[simp] theorem State.onMover_freeCtr (f : Mover → Mover) (s : State) : (s.onMover f).freeCtr = s.freeCtr := rfl
@[simp] theorem State.onMover_tick (f : Mover → Mover) (s : State) : (s.onMover f).tick = s.tick := rfl
@[simp] theorem State.onMover_easel (f : Mover → Mover) (s : State) : (s.onMover f).easel = s.easel := rfl
@[simp] theorem State.onMover_link (f : Mover → Mover) (s : State) : (s.onMover f).link = s.link := rfl
@[simp] theorem State.onMover_panels (f : Mover → Mover) (s : State) : (s.onMover f).panels = s.panels := rfl
@[simp] theorem State.onMover_primer (f : Mover → Mover) (s : State) : (s.onMover f).primer = s.primer := rfl
@[simp] theorem State.onMover_liner (f : Mover → Mover) (s : State) : (s.onMover f).liner = s.liner := rfl
@[simp] theorem State.onMover_wp (f : Mover → Mover) (s : State) : (s.onMover f).wp = s.wp := rfl
@[simp] theorem State.onMover_glaze (f : Mover → Mover) (s : State) : (s.onMover f).glaze = s.glaze := rfl
@[simp] theorem State.onMover_pal (f : Mover → Mover) (s : State) : (s.onMover f).pal = s.pal := rfl
@[simp] theorem State.onMover_win (f : Mover → Mover) (s : State) : (s.onMover f).win = s.win := rfl
@[simp] theorem State.onMover_sw (f : Mover → Mover) (s : State) : (s.onMover f).sw = s.sw := rfl
@[simp] theorem State.onMover_chest (f : Mover → Mover) (s : State) : (s.onMover f).chest = s.chest := rfl
@[simp] theorem State.onMover_mover (f : Mover → Mover) (s : State) : (s.onMover f).mover = f s.mover := rfl
@[simp] theorem State.onMover_fab (f : Mover → Mover) (s : State) : (s.onMover f).fab = s.fab := rfl
@[simp] theorem State.onMover_pmu (f : Mover → Mover) (s : State) : (s.onMover f).pmu = s.pmu := rfl
@[simp] theorem State.onMover_boot (f : Mover → Mover) (s : State) : (s.onMover f).boot = s.boot := rfl
@[simp] theorem State.onMover_dbg (f : Mover → Mover) (s : State) : (s.onMover f).dbg = s.dbg := rfl
@[simp] theorem State.onMover_pins (f : Mover → Mover) (s : State) : (s.onMover f).pins = s.pins := rfl

-- fab
@[simp] theorem State.onFab_pending (f : Fabric → Fabric) (s : State) : (s.onFab f).pending = s.pending := rfl
@[simp] theorem State.onFab_freeCtr (f : Fabric → Fabric) (s : State) : (s.onFab f).freeCtr = s.freeCtr := rfl
@[simp] theorem State.onFab_tick (f : Fabric → Fabric) (s : State) : (s.onFab f).tick = s.tick := rfl
@[simp] theorem State.onFab_easel (f : Fabric → Fabric) (s : State) : (s.onFab f).easel = s.easel := rfl
@[simp] theorem State.onFab_link (f : Fabric → Fabric) (s : State) : (s.onFab f).link = s.link := rfl
@[simp] theorem State.onFab_panels (f : Fabric → Fabric) (s : State) : (s.onFab f).panels = s.panels := rfl
@[simp] theorem State.onFab_primer (f : Fabric → Fabric) (s : State) : (s.onFab f).primer = s.primer := rfl
@[simp] theorem State.onFab_liner (f : Fabric → Fabric) (s : State) : (s.onFab f).liner = s.liner := rfl
@[simp] theorem State.onFab_wp (f : Fabric → Fabric) (s : State) : (s.onFab f).wp = s.wp := rfl
@[simp] theorem State.onFab_glaze (f : Fabric → Fabric) (s : State) : (s.onFab f).glaze = s.glaze := rfl
@[simp] theorem State.onFab_pal (f : Fabric → Fabric) (s : State) : (s.onFab f).pal = s.pal := rfl
@[simp] theorem State.onFab_win (f : Fabric → Fabric) (s : State) : (s.onFab f).win = s.win := rfl
@[simp] theorem State.onFab_sw (f : Fabric → Fabric) (s : State) : (s.onFab f).sw = s.sw := rfl
@[simp] theorem State.onFab_chest (f : Fabric → Fabric) (s : State) : (s.onFab f).chest = s.chest := rfl
@[simp] theorem State.onFab_mover (f : Fabric → Fabric) (s : State) : (s.onFab f).mover = s.mover := rfl
@[simp] theorem State.onFab_fab (f : Fabric → Fabric) (s : State) : (s.onFab f).fab = f s.fab := rfl
@[simp] theorem State.onFab_pmu (f : Fabric → Fabric) (s : State) : (s.onFab f).pmu = s.pmu := rfl
@[simp] theorem State.onFab_boot (f : Fabric → Fabric) (s : State) : (s.onFab f).boot = s.boot := rfl
@[simp] theorem State.onFab_dbg (f : Fabric → Fabric) (s : State) : (s.onFab f).dbg = s.dbg := rfl
@[simp] theorem State.onFab_pins (f : Fabric → Fabric) (s : State) : (s.onFab f).pins = s.pins := rfl

-- pmu
@[simp] theorem State.onPmu_pending (f : Pmu → Pmu) (s : State) : (s.onPmu f).pending = s.pending := rfl
@[simp] theorem State.onPmu_freeCtr (f : Pmu → Pmu) (s : State) : (s.onPmu f).freeCtr = s.freeCtr := rfl
@[simp] theorem State.onPmu_tick (f : Pmu → Pmu) (s : State) : (s.onPmu f).tick = s.tick := rfl
@[simp] theorem State.onPmu_easel (f : Pmu → Pmu) (s : State) : (s.onPmu f).easel = s.easel := rfl
@[simp] theorem State.onPmu_link (f : Pmu → Pmu) (s : State) : (s.onPmu f).link = s.link := rfl
@[simp] theorem State.onPmu_panels (f : Pmu → Pmu) (s : State) : (s.onPmu f).panels = s.panels := rfl
@[simp] theorem State.onPmu_primer (f : Pmu → Pmu) (s : State) : (s.onPmu f).primer = s.primer := rfl
@[simp] theorem State.onPmu_liner (f : Pmu → Pmu) (s : State) : (s.onPmu f).liner = s.liner := rfl
@[simp] theorem State.onPmu_wp (f : Pmu → Pmu) (s : State) : (s.onPmu f).wp = s.wp := rfl
@[simp] theorem State.onPmu_glaze (f : Pmu → Pmu) (s : State) : (s.onPmu f).glaze = s.glaze := rfl
@[simp] theorem State.onPmu_pal (f : Pmu → Pmu) (s : State) : (s.onPmu f).pal = s.pal := rfl
@[simp] theorem State.onPmu_win (f : Pmu → Pmu) (s : State) : (s.onPmu f).win = s.win := rfl
@[simp] theorem State.onPmu_sw (f : Pmu → Pmu) (s : State) : (s.onPmu f).sw = s.sw := rfl
@[simp] theorem State.onPmu_chest (f : Pmu → Pmu) (s : State) : (s.onPmu f).chest = s.chest := rfl
@[simp] theorem State.onPmu_mover (f : Pmu → Pmu) (s : State) : (s.onPmu f).mover = s.mover := rfl
@[simp] theorem State.onPmu_fab (f : Pmu → Pmu) (s : State) : (s.onPmu f).fab = s.fab := rfl
@[simp] theorem State.onPmu_pmu (f : Pmu → Pmu) (s : State) : (s.onPmu f).pmu = f s.pmu := rfl
@[simp] theorem State.onPmu_boot (f : Pmu → Pmu) (s : State) : (s.onPmu f).boot = s.boot := rfl
@[simp] theorem State.onPmu_dbg (f : Pmu → Pmu) (s : State) : (s.onPmu f).dbg = s.dbg := rfl
@[simp] theorem State.onPmu_pins (f : Pmu → Pmu) (s : State) : (s.onPmu f).pins = s.pins := rfl

-- boot
@[simp] theorem State.onBoot_pending (f : Boot → Boot) (s : State) : (s.onBoot f).pending = s.pending := rfl
@[simp] theorem State.onBoot_freeCtr (f : Boot → Boot) (s : State) : (s.onBoot f).freeCtr = s.freeCtr := rfl
@[simp] theorem State.onBoot_tick (f : Boot → Boot) (s : State) : (s.onBoot f).tick = s.tick := rfl
@[simp] theorem State.onBoot_easel (f : Boot → Boot) (s : State) : (s.onBoot f).easel = s.easel := rfl
@[simp] theorem State.onBoot_link (f : Boot → Boot) (s : State) : (s.onBoot f).link = s.link := rfl
@[simp] theorem State.onBoot_panels (f : Boot → Boot) (s : State) : (s.onBoot f).panels = s.panels := rfl
@[simp] theorem State.onBoot_primer (f : Boot → Boot) (s : State) : (s.onBoot f).primer = s.primer := rfl
@[simp] theorem State.onBoot_liner (f : Boot → Boot) (s : State) : (s.onBoot f).liner = s.liner := rfl
@[simp] theorem State.onBoot_wp (f : Boot → Boot) (s : State) : (s.onBoot f).wp = s.wp := rfl
@[simp] theorem State.onBoot_glaze (f : Boot → Boot) (s : State) : (s.onBoot f).glaze = s.glaze := rfl
@[simp] theorem State.onBoot_pal (f : Boot → Boot) (s : State) : (s.onBoot f).pal = s.pal := rfl
@[simp] theorem State.onBoot_win (f : Boot → Boot) (s : State) : (s.onBoot f).win = s.win := rfl
@[simp] theorem State.onBoot_sw (f : Boot → Boot) (s : State) : (s.onBoot f).sw = s.sw := rfl
@[simp] theorem State.onBoot_chest (f : Boot → Boot) (s : State) : (s.onBoot f).chest = s.chest := rfl
@[simp] theorem State.onBoot_mover (f : Boot → Boot) (s : State) : (s.onBoot f).mover = s.mover := rfl
@[simp] theorem State.onBoot_fab (f : Boot → Boot) (s : State) : (s.onBoot f).fab = s.fab := rfl
@[simp] theorem State.onBoot_pmu (f : Boot → Boot) (s : State) : (s.onBoot f).pmu = s.pmu := rfl
@[simp] theorem State.onBoot_boot (f : Boot → Boot) (s : State) : (s.onBoot f).boot = f s.boot := rfl
@[simp] theorem State.onBoot_dbg (f : Boot → Boot) (s : State) : (s.onBoot f).dbg = s.dbg := rfl
@[simp] theorem State.onBoot_pins (f : Boot → Boot) (s : State) : (s.onBoot f).pins = s.pins := rfl

-- dbg
@[simp] theorem State.onDbg_pending (f : Debug → Debug) (s : State) : (s.onDbg f).pending = s.pending := rfl
@[simp] theorem State.onDbg_freeCtr (f : Debug → Debug) (s : State) : (s.onDbg f).freeCtr = s.freeCtr := rfl
@[simp] theorem State.onDbg_tick (f : Debug → Debug) (s : State) : (s.onDbg f).tick = s.tick := rfl
@[simp] theorem State.onDbg_easel (f : Debug → Debug) (s : State) : (s.onDbg f).easel = s.easel := rfl
@[simp] theorem State.onDbg_link (f : Debug → Debug) (s : State) : (s.onDbg f).link = s.link := rfl
@[simp] theorem State.onDbg_panels (f : Debug → Debug) (s : State) : (s.onDbg f).panels = s.panels := rfl
@[simp] theorem State.onDbg_primer (f : Debug → Debug) (s : State) : (s.onDbg f).primer = s.primer := rfl
@[simp] theorem State.onDbg_liner (f : Debug → Debug) (s : State) : (s.onDbg f).liner = s.liner := rfl
@[simp] theorem State.onDbg_wp (f : Debug → Debug) (s : State) : (s.onDbg f).wp = s.wp := rfl
@[simp] theorem State.onDbg_glaze (f : Debug → Debug) (s : State) : (s.onDbg f).glaze = s.glaze := rfl
@[simp] theorem State.onDbg_pal (f : Debug → Debug) (s : State) : (s.onDbg f).pal = s.pal := rfl
@[simp] theorem State.onDbg_win (f : Debug → Debug) (s : State) : (s.onDbg f).win = s.win := rfl
@[simp] theorem State.onDbg_sw (f : Debug → Debug) (s : State) : (s.onDbg f).sw = s.sw := rfl
@[simp] theorem State.onDbg_chest (f : Debug → Debug) (s : State) : (s.onDbg f).chest = s.chest := rfl
@[simp] theorem State.onDbg_mover (f : Debug → Debug) (s : State) : (s.onDbg f).mover = s.mover := rfl
@[simp] theorem State.onDbg_fab (f : Debug → Debug) (s : State) : (s.onDbg f).fab = s.fab := rfl
@[simp] theorem State.onDbg_pmu (f : Debug → Debug) (s : State) : (s.onDbg f).pmu = s.pmu := rfl
@[simp] theorem State.onDbg_boot (f : Debug → Debug) (s : State) : (s.onDbg f).boot = s.boot := rfl
@[simp] theorem State.onDbg_dbg (f : Debug → Debug) (s : State) : (s.onDbg f).dbg = f s.dbg := rfl
@[simp] theorem State.onDbg_pins (f : Debug → Debug) (s : State) : (s.onDbg f).pins = s.pins := rfl

-- pins
@[simp] theorem State.onPins_pending (f : Pins → Pins) (s : State) : (s.onPins f).pending = s.pending := rfl
@[simp] theorem State.onPins_freeCtr (f : Pins → Pins) (s : State) : (s.onPins f).freeCtr = s.freeCtr := rfl
@[simp] theorem State.onPins_tick (f : Pins → Pins) (s : State) : (s.onPins f).tick = s.tick := rfl
@[simp] theorem State.onPins_easel (f : Pins → Pins) (s : State) : (s.onPins f).easel = s.easel := rfl
@[simp] theorem State.onPins_link (f : Pins → Pins) (s : State) : (s.onPins f).link = s.link := rfl
@[simp] theorem State.onPins_panels (f : Pins → Pins) (s : State) : (s.onPins f).panels = s.panels := rfl
@[simp] theorem State.onPins_primer (f : Pins → Pins) (s : State) : (s.onPins f).primer = s.primer := rfl
@[simp] theorem State.onPins_liner (f : Pins → Pins) (s : State) : (s.onPins f).liner = s.liner := rfl
@[simp] theorem State.onPins_wp (f : Pins → Pins) (s : State) : (s.onPins f).wp = s.wp := rfl
@[simp] theorem State.onPins_glaze (f : Pins → Pins) (s : State) : (s.onPins f).glaze = s.glaze := rfl
@[simp] theorem State.onPins_pal (f : Pins → Pins) (s : State) : (s.onPins f).pal = s.pal := rfl
@[simp] theorem State.onPins_win (f : Pins → Pins) (s : State) : (s.onPins f).win = s.win := rfl
@[simp] theorem State.onPins_sw (f : Pins → Pins) (s : State) : (s.onPins f).sw = s.sw := rfl
@[simp] theorem State.onPins_chest (f : Pins → Pins) (s : State) : (s.onPins f).chest = s.chest := rfl
@[simp] theorem State.onPins_mover (f : Pins → Pins) (s : State) : (s.onPins f).mover = s.mover := rfl
@[simp] theorem State.onPins_fab (f : Pins → Pins) (s : State) : (s.onPins f).fab = s.fab := rfl
@[simp] theorem State.onPins_pmu (f : Pins → Pins) (s : State) : (s.onPins f).pmu = s.pmu := rfl
@[simp] theorem State.onPins_boot (f : Pins → Pins) (s : State) : (s.onPins f).boot = s.boot := rfl
@[simp] theorem State.onPins_dbg (f : Pins → Pins) (s : State) : (s.onPins f).dbg = s.dbg := rfl
@[simp] theorem State.onPins_pins (f : Pins → Pins) (s : State) : (s.onPins f).pins = f s.pins := rfl

end Sys2Proof.Machine
end

