-- ==== Sys2Proof/Laws/StillBase.lean ====
section
/-! SUPPORT. What an operation leaves alone of the queue, the Window's words, the flash and the debug registers (Safety.still): one lemma for
each operation that leaves them all as they are. -/

namespace Sys2Proof.Machine

@[simp] theorem ends_next (t : State) (P : State → Prop) : Safety.ends (.next t) P ↔ P t :=
  ⟨fun h => h t rfl, fun h _ e => by cases e; exact h⟩

@[simp] theorem ends_fault (r : Fault) (P : State → Prop) : Safety.ends (.fault r) P := fun _ e => by cases e

theorem ends_still_trans {o : Host.Outcome State Fault Refusal} {s u : State}
    (h : Safety.ends o (fun t => Safety.still t = Safety.still s)) (k : Safety.still s = Safety.still u) :
    Safety.ends o (fun t => Safety.still t = Safety.still u) := fun t e => (h t e).trans k

@[simp] theorem onlyIf_still (b : Bool) (f : State → State) (s : State) (h : Safety.still (f s) = Safety.still s) :
    Safety.still (onlyIf b f s) = Safety.still s := by
  cases b <;> simp [onlyIf, h]

@[simp] theorem each_still {α : Type} (xs : List α) (f : α → State → State) (s : State)
    (h : ∀ x s, Safety.still (f x s) = Safety.still s) : Safety.still (each xs f s) = Safety.still s := by
  induction xs generalizing s with
  | nil => rfl
  | cons x xs ih => exact (ih (f x s)).trans (h x s)

@[simp] theorem foldl_still {α : Type} (xs : List α) (f : State → α → State) (s : State)
    (h : ∀ s x, Safety.still (f s x) = Safety.still s) : Safety.still (xs.foldl f s) = Safety.still s := by
  induction xs generalizing s with
  | nil => rfl
  | cons x xs ih => exact (ih (f s x)).trans (h s x)

@[simp] theorem foldl_fst_still {α β : Type} (xs : List α) (f : State × β → α → State × β) (t : State × β)
    (h : ∀ t x, Safety.still (f t x).1 = Safety.still t.1) : Safety.still (xs.foldl f t).1 = Safety.still t.1 := by
  induction xs generalizing t with
  | nil => rfl
  | cons x xs ih => exact (ih (f t x)).trans (h t x)

@[simp] theorem foldl_snd_still {α β : Type} (xs : List α) (f : β × State → α → β × State) (t : β × State)
    (h : ∀ t x, Safety.still (f t x).2 = Safety.still t.2) : Safety.still (xs.foldl f t).2 = Safety.still t.2 := by
  induction xs generalizing t with
  | nil => rfl
  | cons x xs ih => exact (ih (f t x)).trans (h t x)

@[simp] theorem foldl_snd_snd_still {α β γ : Type} (xs : List α) (f : β × γ × State → α → β × γ × State) (t : β × γ × State)
    (h : ∀ t x, Safety.still (f t x).2.2 = Safety.still t.2.2) : Safety.still (xs.foldl f t).2.2 = Safety.still t.2.2 := by
  induction xs generalizing t with
  | nil => rfl
  | cons x xs ih => exact (ih (f t x)).trans (h t x)

@[simp] theorem State.onFreeCtr_still (f : Nat → Nat) (s : State) : Safety.still (s.onFreeCtr f) = Safety.still s := (rfl)
@[simp] theorem State.onTick_still (f : TickUnit → TickUnit) (s : State) : Safety.still (s.onTick f) = Safety.still s := (rfl)
@[simp] theorem State.onEasel_still (f : Easel → Easel) (s : State) : Safety.still (s.onEasel f) = Safety.still s := (rfl)
@[simp] theorem State.onLink_still (f : HostLink → HostLink) (s : State) : Safety.still (s.onLink f) = Safety.still s := (rfl)
@[simp] theorem State.onPanels_still (f : PanelUnit → PanelUnit) (s : State) : Safety.still (s.onPanels f) = Safety.still s := (rfl)
@[simp] theorem State.onPrimer_still (f : Primer → Primer) (s : State) : Safety.still (s.onPrimer f) = Safety.still s := (rfl)
@[simp] theorem State.onLiner_still (f : Liner → Liner) (s : State) : Safety.still (s.onLiner f) = Safety.still s := (rfl)
@[simp] theorem State.onWp_still (f : WarpPix → WarpPix) (s : State) : Safety.still (s.onWp f) = Safety.still s := (rfl)
@[simp] theorem State.onGlaze_still (f : Glaze → Glaze) (s : State) : Safety.still (s.onGlaze f) = Safety.still s := (rfl)
@[simp] theorem State.onPal_still (f : Palette → Palette) (s : State) : Safety.still (s.onPal f) = Safety.still s := (rfl)
@[simp] theorem State.onSw_still (f : Swatches → Swatches) (s : State) : Safety.still (s.onSw f) = Safety.still s := (rfl)
@[simp] theorem State.onMover_still (f : Mover → Mover) (s : State) : Safety.still (s.onMover f) = Safety.still s := (rfl)
@[simp] theorem State.onFab_still (f : Fabric → Fabric) (s : State) : Safety.still (s.onFab f) = Safety.still s := (rfl)
@[simp] theorem State.onPmu_still (f : Pmu → Pmu) (s : State) : Safety.still (s.onPmu f) = Safety.still s := (rfl)
@[simp] theorem State.onBoot_still (f : Boot → Boot) (s : State) : Safety.still (s.onBoot f) = Safety.still s := (rfl)
@[simp] theorem State.onPins_still (f : Pins → Pins) (s : State) : Safety.still (s.onPins f) = Safety.still s := (rfl)

@[simp] theorem State.onChest_still (f : Chest → Chest) (s : State) (h : ∀ c, (f c).flash = c.flash) :
    Safety.still (s.onChest f) = Safety.still s := by
  simp [Safety.still, h]

@[simp] theorem State.onWin_still (f : Window → Window) (s : State) (h : ∀ w, (f w).words = w.words) :
    Safety.still (s.onWin f) = Safety.still s := by
  simp [Safety.still, h]


@[simp] theorem still_ite (c : Prop) [Decidable c] (a b : State) :
    Safety.still (if c then a else b) = if c then Safety.still a else Safety.still b := apply_ite ..

@[simp] theorem fst_ite {α : Type} (c : Prop) [Decidable c] (a b : State × α) :
    (if c then a else b).1 = if c then a.1 else b.1 := apply_ite ..

@[simp] theorem snd_ite {α : Type} (c : Prop) [Decidable c] (a b : α × State) :
    (if c then a else b).2 = if c then a.2 else b.2 := apply_ite ..

end Sys2Proof.Machine
end

