-- ==== Sys2Proof/Laws/StillOps.lean ====
section
/-! SUPPORT. The operations of Machine/Ops.lean leave the queue, the Window's words, the flash and the debug registers alone. -/

namespace Sys2Proof.Machine

@[simp] theorem State.freeBit_still (s : State) :
    Safety.still (State.freeBit s).2 = Safety.still s := by
  simp [State.freeBit]

@[simp] theorem State.freeWord_still (s : State) :
    Safety.still (State.freeWord s).2 = Safety.still s := by
  simp [State.freeWord]

@[simp] theorem State.onCtx_still (c : Nat) (f : Ctx → Ctx) (s : State) :
    Safety.still (State.onCtx c f s) = Safety.still s := by
  simp [State.onCtx]

@[simp] theorem State.onPanel_still (p : Nat) (f : Panel → Panel) (s : State) :
    Safety.still (State.onPanel p f s) = Safety.still s := by
  simp [State.onPanel]

@[simp] theorem State.onGroup_still (g : Nat) (f : Group → Group) (s : State) :
    Safety.still (State.onGroup g f s) = Safety.still s := by
  simp [State.onGroup]

@[simp] theorem State.onEng_still (e : Nat) (f : Engine → Engine) (s : State) :
    Safety.still (State.onEng e f s) = Safety.still s := by
  simp [State.onEng]

@[simp] theorem State.onBank_still (b : Nat) (f : Bank → Bank) (s : State) :
    Safety.still (State.onBank b f s) = Safety.still s := by
  simp [State.onBank]

@[simp] theorem State.onQueue_still (q : Nat) (f : Queue → Queue) (s : State) :
    Safety.still (State.onQueue q f s) = Safety.still s := by
  simp [State.onQueue]

@[simp] theorem State.onRing_still (r : Nat) (f : Ring → Ring) (s : State) :
    Safety.still (State.onRing r f s) = Safety.still s := by
  simp [State.onRing]

@[simp] theorem State.onPort_still (p : Nat) (f : Port → Port) (s : State) :
    Safety.still (State.onPort p f s) = Safety.still s := by
  simp [State.onPort]

@[simp] theorem State.onObj_still (o : Nat) (f : Obj → Obj) (s : State) :
    Safety.still (State.onObj o f s) = Safety.still s := by
  simp [State.onObj]

@[simp] theorem State.onEveryCtx_still (f : Nat → Ctx → Ctx) (s : State) :
    Safety.still (State.onEveryCtx f s) = Safety.still s := by
  simp [State.onEveryCtx]

@[simp] theorem State.clampIn_still (tick : Word) (c op loc : Nat) (s : State) :
    Safety.still (State.clampIn tick c op loc s) = Safety.still s := by
  simp [State.clampIn]

@[simp] theorem State.clampAt_still (c op loc : Nat) (s : State) :
    Safety.still (State.clampAt c op loc s) = Safety.still s := by
  simp [State.clampAt]

@[simp] theorem State.send_still (k : TxKind) (by_ : Issuer) (s : State) :
    Safety.still (State.send k by_ s) = Safety.still s := by
  simp [State.send]

@[simp] theorem State.readHost_still (addr len : Nat) (by_ : Issuer) (s : State) :
    Safety.still (State.readHost addr len by_ s) = Safety.still s := by
  simp [State.readHost]

@[simp] theorem State.writeHost_still (addr : Nat) (data : List Byte) (by_ : Issuer) (s : State) :
    Safety.still (State.writeHost addr data by_ s) = Safety.still s := by
  simp [State.writeHost]

@[simp] theorem State.postRing_still (r : Nat) (slot : Line) (payload : List Byte) (by_ : Issuer) (evt : BitVec 5) (s : State) :
    Safety.still (State.postRing r slot payload by_ evt s) = Safety.still s := by
  simp [State.postRing]

@[simp] theorem State.postOrWait_still (r : Nat) (slot : Line) (payload : List Byte) (s : State) :
    Safety.still (State.postOrWait r slot payload s) = Safety.still s := by
  simp [State.postOrWait]

@[simp] theorem State.weaveFrom_still (src p dst kind vc param aux : Nat) (data : List Byte) (s : State) :
    Safety.still (State.weaveFrom src p dst kind vc param aux data s) = Safety.still s := by
  simp [State.weaveFrom]

@[simp] theorem State.returnLines_still (p vc n : Nat) (s : State) :
    Safety.still (State.returnLines p vc n s) = Safety.still s := by
  simp [State.returnLines]

@[simp] theorem State.weaveOn_still (p dst kind vc param aux : Nat) (data : List Byte) (s : State) :
    Safety.still (State.weaveOn p dst kind vc param aux data s) = Safety.still s := by
  simp [State.weaveOn]

@[simp] theorem State.weave_still (dst kind vc param aux : Nat) (data : List Byte) (s : State) :
    Safety.still (State.weave dst kind vc param aux data s) = Safety.still s := by
  simp [State.weave]

@[simp] theorem State.passPacket_still (c : Cmd) (s : State) :
    Safety.still (State.passPacket c s) = Safety.still s := by
  unfold State.passPacket; split <;> simp

@[simp] theorem State.deliver_still (c : Cmd) (slot : Line) (payload : List Byte) (s : State) :
    Safety.still (State.deliver c slot payload s) = Safety.still s := by
  unfold State.deliver; repeat' split
  all_goals simp

@[simp] theorem State.settled_still (s : State) :
    Safety.still (State.settled s) = Safety.still s := by
  simp [State.settled]

@[simp] theorem State.retire_still (c : Cmd) (s : State) :
    Safety.still (State.retire c s) = Safety.still s := by
  simp [State.retire]

@[simp] theorem State.complete_still (c : Cmd) (status detail : Nat) (results : Nat) (payload : List Byte) (s : State) :
    Safety.still (State.complete c status detail results payload s) = Safety.still s := by
  simp [State.complete]

@[simp] theorem State.notPerformed_still (c : Cmd) (s : State) :
    Safety.still (State.notPerformed c s) = Safety.still s := by
  simp [State.notPerformed]

@[simp] theorem State.postRecord_still (r ctx : Nat) (slot : Line) (s : State) :
    Safety.still (State.postRecord r ctx slot s) = Safety.still s := by
  simp [State.postRecord]

@[simp] theorem State.raise_still (forCtx ctx code a0 a1 : Nat) (s : State) :
    Safety.still (State.raise forCtx ctx code a0 a1 s) = Safety.still s := by
  simp [State.raise]

@[simp] theorem State.unitFenced_still (a0 a1 : Nat) (s : State) :
    Safety.still (State.unitFenced a0 a1 s) = Safety.still s := by
  simp [State.unitFenced]

@[simp] theorem State.nonOwner_still (unit : Nat) (s : State) :
    Safety.still (State.nonOwner unit s) = Safety.still s := by
  simp [State.nonOwner]

@[simp] theorem State.darkAccess_still (unit : Nat) (s : State) :
    Safety.still (State.darkAccess unit s) = Safety.still s := by
  simp [State.darkAccess]

end Sys2Proof.Machine
end

