-- ==== Sys2Proof/Laws/StillFlow.lean ====
section
/-! SUPPORT. The operations of Machine/Flow.lean leave the queue, the Window's words, the flash and the debug registers alone. -/

namespace Sys2Proof.Machine

@[simp] theorem State.onTask_still (seq : Nat) (f : Task → Task) (s : State) :
    Safety.still (State.onTask seq f s) = Safety.still s := by
  simp [State.onTask]

@[simp] theorem State.noteRouted_still (c : Nat) (ls : List Nat) (s : State) :
    Safety.still (State.noteRouted c ls s) = Safety.still s := by
  simp [State.noteRouted]

@[simp] theorem State.fixRoutes_still (c : Nat) (s : State) :
    Safety.still (State.fixRoutes c s) = Safety.still s := by
  simp [State.fixRoutes]

@[simp] theorem State.dropVecs_still (c : Nat) (old : Bool) (l r : Nat) (s : State) :
    Safety.still (State.dropVecs c old l r s) = Safety.still s := by
  simp [State.dropVecs]

@[simp] theorem State.rerouteMap_still (drop old : Bool) (c : Nat) (s : State) :
    Safety.still (State.rerouteMap drop old c s) = Safety.still s := by
  unfold State.rerouteMap; split <;> simp

@[simp] theorem State.rerouteCtx_still (drop : Bool) (c : Nat) (s : State) :
    Safety.still (State.rerouteCtx drop c s) = Safety.still s := by
  simp [State.rerouteCtx]

@[simp] theorem State.reroute_still (drop : Bool) (s : State) :
    Safety.still (State.reroute drop s) = Safety.still s := by
  simp [State.reroute]

@[simp] theorem State.drained_still (c : Nat) (s : State) :
    Safety.still (State.drained c s) = Safety.still s := by
  simp [State.drained]

@[simp] theorem State.drainTo_still (c : Nat) (s : State) :
    Safety.still (State.drainTo c s) = Safety.still s := by
  simp [State.drainTo]

@[simp] theorem State.endParts_still (t : Task) (s : State) :
    Safety.still (State.endParts t s) = Safety.still s := by
  simp [State.endParts]

@[simp] theorem State.endTask_still (t : Task) (s : State) :
    Safety.still (State.endTask t s) = Safety.still s := by
  simp [State.endTask]

@[simp] theorem State.sendBlock_still (t : Task) (b : Block) (s : State) :
    Safety.still (State.sendBlock t b s) = Safety.still s := by
  simp [State.sendBlock]

@[simp] theorem State.deliverBlock_still (t : Task) (b : Block) (s : State) :
    Safety.still (State.deliverBlock t b s) = Safety.still s := by
  simp [State.deliverBlock]; repeat' split
  all_goals simp

@[simp] theorem State.dropJobs_still (t : Task) (fetches : Bool) (s : State) :
    Safety.still (State.dropJobs t fetches s) = Safety.still s := by
  simp [State.dropJobs]

@[simp] theorem State.abortTask_still (t : Task) (s : State) :
    Safety.still (State.abortTask t s) = Safety.still s := by
  simp [State.abortTask]

@[simp] theorem handTogether_still (f : State → State) (s : State) (h : ∀ s, Safety.still (f s) = Safety.still s) :
    Safety.still (handTogether f s) = Safety.still s := by
  simp [handTogether, h]

@[simp] theorem State.cancelFetch_still (t : Task) (s : State) :
    Safety.still (State.cancelFetch t s) = Safety.still s := by
  simp [State.cancelFetch]

@[simp] theorem State.giveTask_still (t : Task) (p : Fallback) (ch : List Nat) (cause : Nat) (s : State) :
    Safety.still (State.giveTask t p ch cause s) = Safety.still s := by
  simp [State.giveTask]

@[simp] theorem State.endOldest_still (c : Nat) (s : State) :
    Safety.still (State.endOldest c s) = Safety.still s := by
  unfold State.endOldest; split <;> simp

@[simp] theorem State.passOn_still (from_ cause : Nat) (t : Task) (s : State) :
    Safety.still (State.passOn from_ cause t s) = Safety.still s := by
  simp [State.passOn]

@[simp] theorem State.refund_still (r : Run) (s : State) :
    Safety.still (State.refund r s) = Safety.still s := by
  simp [State.refund]

@[simp] theorem State.dropStages_still (r : Run) (s : State) :
    Safety.still (State.dropStages r s) = Safety.still s := by
  simp [State.dropStages]

@[simp] theorem State.cancelQueue_still (q : Nat) (s : State) :
    Safety.still (State.cancelQueue q s) = Safety.still s := by
  unfold State.cancelQueue; split <;> simp

@[simp] theorem State.countCancel_still (c : Nat) (s : State) :
    Safety.still (State.countCancel c s) = Safety.still s := by
  simp [State.countCancel]

@[simp] theorem State.cancelRuns_still (c : Nat) (s : State) :
    Safety.still (State.cancelRuns c s) = Safety.still s := by
  simp [State.cancelRuns]

@[simp] theorem State.cancelAll_still (c : Nat) (s : State) :
    Safety.still (State.cancelAll c s) = Safety.still s := by
  simp [State.cancelAll]

@[simp] theorem State.dropSaved_still (c : Nat) (s : State) :
    Safety.still (State.dropSaved c s) = Safety.still s := by
  simp [State.dropSaved]

@[simp] theorem State.spoilRetouch_still (c : Nat) (s : State) :
    Safety.still (State.spoilRetouch c s) = Safety.still s := by
  simp [State.spoilRetouch]

@[simp] theorem State.dropReaders_still (c : Nat) (s : State) :
    Safety.still (State.dropReaders c s) = Safety.still s := by
  simp [State.dropReaders]

@[simp] theorem State.dropPromos_still (c : Nat) (s : State) :
    Safety.still (State.dropPromos c s) = Safety.still s := by
  simp [State.dropPromos]

@[simp] theorem State.stopUnits_still (c : Nat) (s : State) :
    Safety.still (State.stopUnits c s) = Safety.still s := by
  simp [State.stopUnits]

@[simp] theorem State.stopLoads_still (c : Nat) (s : State) :
    Safety.still (State.stopLoads c s) = Safety.still s := by
  simp [State.stopLoads]

@[simp] theorem State.countMiss_still (c : Nat) (s : State) :
    Safety.still (State.countMiss c s) = Safety.still s := by
  simp [State.countMiss]

@[simp] theorem State.handWork_still (c cause : Nat) (s : State) :
    Safety.still (State.handWork c cause s) = Safety.still s := by
  simp [State.handWork]

@[simp] theorem State.lowerHanded_still (c cause : Nat) (s : State) :
    Safety.still (State.lowerHanded c cause s) = Safety.still s := by
  simp [State.lowerHanded]

@[simp] theorem State.handOnce_still (give : State → State) (c cause : Nat) (s : State) (h : ∀ s, Safety.still (give s) = Safety.still s) :
    Safety.still (State.handOnce give c cause s) = Safety.still s := by
  unfold State.handOnce
  dsimp only
  repeat' split
  all_goals simp [h]

@[simp] theorem State.handAll_still (c cause : Nat) (s : State) :
    Safety.still (State.handAll c cause s) = Safety.still s := by
  simp [State.handAll]

@[simp] theorem State.handover_still (c cause : Nat) (s : State) :
    Safety.still (State.handover c cause s) = Safety.still s := by
  unfold State.handover
  exact onlyIf_still _ _ _ (State.handOnce_still _ _ _ _ fun s => onlyIf_still _ _ _ (State.handAll_still _ _ _))

@[simp] theorem State.handRoute_still (c cause : Nat) (s : State) :
    Safety.still (State.handRoute c cause s) = Safety.still s := by
  unfold State.handRoute
  exact State.handOnce_still _ _ _ _ fun s => onlyIf_still _ _ _ (State.handAll_still _ _ _)

@[simp] theorem State.handTick_still (c cause : Nat) (s : State) :
    Safety.still (State.handTick c cause s) = Safety.still s := by
  unfold State.handTick
  refine onlyIf_still _ _ _ (State.handOnce_still _ _ _ _ fun s => ?_)
  split <;> simp

@[simp] theorem State.joinHanded_still (t : Task) (s : State) :
    Safety.still (State.joinHanded t s) = Safety.still s := by
  simp [State.joinHanded]

@[simp] theorem State.offUnit_still (cause c : Nat) (s : State) :
    Safety.still (State.offUnit cause c s) = Safety.still s := by
  simp [State.offUnit]

@[simp] theorem State.endRetouch_still (status c : Nat) (s : State) :
    Safety.still (State.endRetouch status c s) = Safety.still s := by
  simp [State.endRetouch]

@[simp] theorem State.dropStore_still (c : Nat) (s : State) :
    Safety.still (State.dropStore c s) = Safety.still s := by
  simp [State.dropStore]

@[simp] theorem State.fenceCtx_still (c : Nat) (s : State) :
    Safety.still (State.fenceCtx c s) = Safety.still s := by
  simp [State.fenceCtx]

@[simp] theorem State.stackFence_still (a0 : Nat) (s : State) :
    Safety.still (State.stackFence a0 s) = Safety.still s := by
  simp [State.stackFence]

@[simp] theorem State.fencePanel_still (p : Nat) (s : State) :
    Safety.still (State.fencePanel p s) = Safety.still s := by
  simp [State.fencePanel]; repeat' split
  all_goals simp

@[simp] theorem State.fenceGroup_still (g : Nat) (s : State) :
    Safety.still (State.fenceGroup g s) = Safety.still s := by
  simp [State.fenceGroup]

@[simp] theorem State.fenceEngine_still (e : Nat) (s : State) :
    Safety.still (State.fenceEngine e s) = Safety.still s := by
  simp [State.fenceEngine]

@[simp] theorem State.fenceBank_still (b : Nat) (s : State) :
    Safety.still (State.fenceBank b s) = Safety.still s := by
  simp [State.fenceBank]

@[simp] theorem State.bcastCheck_still (s : State) :
    Safety.still (State.bcastCheck s) = Safety.still s := by
  unfold State.bcastCheck; split <;> simp

@[simp] theorem State.bcastFail_still (d : Nat) (s : State) :
    Safety.still (State.bcastFail d s) = Safety.still s := by
  simp [State.bcastFail]

@[simp] theorem State.fenceWorker1_still (d : Nat) (s : State) :
    Safety.still (State.fenceWorker1 d s) = Safety.still s := by
  simp [State.fenceWorker1]

@[simp] theorem State.fenceWorker_still (d : Nat) (s : State) :
    Safety.still (State.fenceWorker d s) = Safety.still s := by
  simp [State.fenceWorker]

@[simp] theorem State.fenceUnit_still (code : Nat) (s : State) :
    Safety.still (State.fenceUnit code s) = Safety.still s := by
  unfold State.fenceUnit; split <;> simp

@[simp] theorem State.fenceChannel_still (q : Nat) (s : State) :
    Safety.still (State.fenceChannel q s) = Safety.still s := by
  simp [State.fenceChannel]

@[simp] theorem State.faultTask_still (t : Task) (s : State) :
    Safety.still (State.faultTask t s) = Safety.still s := by
  simp [State.faultTask]

@[simp] theorem State.streamFault_still (c cause : Nat) (s : State) :
    Safety.still (State.streamFault c cause s) = Safety.still s := by
  simp [State.streamFault]

end Sys2Proof.Machine
end

