-- ==== Sys2Proof/Laws/StillChest.lean ====
section
/-! SUPPORT. The operations of Machine/Chest.lean leave the queue, the Window's words, the flash and the debug registers alone. -/

namespace Sys2Proof.Machine

@[simp] theorem State.recPanels_still (s : State) :
    Safety.still (State.recPanels s) = Safety.still s := by
  simp [State.recPanels]

@[simp] theorem State.recTrims_still (s : State) :
    Safety.still (State.recTrims s) = Safety.still s := by
  simp [State.recTrims]

@[simp] theorem State.wpRefuse_still (c : Nat) (s : State) :
    Safety.still (State.wpRefuse c s) = Safety.still s := by
  simp [State.wpRefuse]

@[simp] theorem State.queueReloc_still (set kind : Nat) (s : State) :
    Safety.still (State.queueReloc set kind s) = Safety.still s := by
  simp [State.queueReloc]

@[simp] theorem State.chestPut_still (sys : Bool) (addr : Nat) (data : List Byte) (ctx : Nat) (s : State) :
    Safety.still (State.chestPut sys addr data ctx s) = Safety.still s := by
  simp [State.chestPut]

@[simp] theorem State.markWrites_still (n mark : Nat) (s : State) :
    Safety.still (State.markWrites n mark s) = Safety.still s := by
  simp [State.markWrites]

@[simp] theorem execChestWrite_still (addr : Nat) (sys : Bool) (data : List Byte) (ctx : Nat) (s : State) :
    Safety.ends (execChestWrite addr sys data ctx s) (fun t => Safety.still t = Safety.still s) := by
  simp [execChestWrite]

@[simp] theorem State.spareCheck_still (s : State) :
    Safety.still (State.spareCheck s) = Safety.still s := by
  simp [State.spareCheck]

@[simp] theorem State.durable_still (s : State) :
    Safety.still (State.durable s) = Safety.still s := by
  simp [State.durable]

@[simp] theorem State.sendWracks_still (s : State) :
    Safety.still (State.sendWracks s) = Safety.still s := by
  simp [State.sendWracks]

@[simp] theorem State.countRead_still (f : ReadFinding) (s : State) :
    Safety.still (State.countRead f s) = Safety.still s := by
  simp [State.countRead]

@[simp] theorem State.uncorrectable_still (s : State) :
    Safety.still (State.uncorrectable s) = Safety.still s := by
  simp [State.uncorrectable]

@[simp] theorem execSuspendedResume_still (plane : Nat) (s : State) :
    Safety.ends (execSuspendedResume plane s) (fun t => Safety.still t = Safety.still s) := by
  simp [execSuspendedResume]

end Sys2Proof.Machine
end

