-- ==== Sys2Proof/Laws/StillPalette.lean ====
section
/-! SUPPORT. The operations of Machine/Palette.lean leave the queue, the Window's words, the flash and the debug registers alone. -/

namespace Sys2Proof.Machine

@[simp] theorem State.testerYield_still (b : Nat) (s : State) :
    Safety.still (State.testerYield b s) = Safety.still s := by
  unfold State.testerYield; split <;> simp

@[simp] theorem State.testerCheck_still (s : State) :
    Safety.still (State.testerCheck s) = Safety.still s := by
  unfold State.testerCheck; split <;> simp

@[simp] theorem State.respond_still (l : Line) (status : BitVec 3) (s : State) :
    Safety.still (State.respond l status s) = Safety.still s := by
  simp [State.respond]

@[simp] theorem State.refetchLine_still (b line : Nat) (s : State) :
    Safety.still (State.refetchLine b line s) = Safety.still s := by
  unfold State.refetchLine; split <;> simp

@[simp] theorem State.rebuildPictures_still (g : Nat) (s : State) :
    Safety.still (State.rebuildPictures g s) = Safety.still s := by
  simp [State.rebuildPictures]

@[simp] theorem State.decline_still (unit c : Nat) (s : State) :
    Safety.still (State.decline unit c s) = Safety.still s := by
  simp [State.decline]

@[simp] theorem State.beginReinstall_still (b : Nat) (s : State) :
    Safety.still (State.beginReinstall b s) = Safety.still s := by
  simp [State.beginReinstall]

@[simp] theorem State.checkLine_still (b line : Nat) (declines : Bool) (unit c : Nat) (s : State) :
    Safety.still (State.checkLine b line declines unit c s) = Safety.still s := by
  simp [State.checkLine]

@[simp] theorem State.checkAgain_still (b line : Nat) (s : State) :
    Safety.still (State.checkAgain b line s) = Safety.still s := by
  simp [State.checkAgain]

@[simp] theorem State.scrub_still (b line : Nat) (s : State) :
    Safety.still (State.scrub b line s) = Safety.still s := by
  simp [State.scrub]

@[simp] theorem State.serveLine_still (b : Nat) (q : PalReq) (s : State) :
    Safety.still (State.serveLine b q s) = Safety.still s := by
  unfold State.serveLine; split <;> simp

@[simp] theorem State.access_still (b : Nat) (q : PalReq) (s : State) :
    Safety.still (State.access b q s) = Safety.still s := by
  simp [State.access]

@[simp] theorem State.serveReq_still (b : Nat) (r : PalReq) (s : State) :
    Safety.still (State.serveReq b r s) = Safety.still s := by
  simp [State.serveReq]

@[simp] theorem State.serveAll_still (b : Nat) (rs : List PalReq) (s : State) :
    Safety.still (State.serveAll b rs s) = Safety.still s := by
  simp [State.serveAll]

@[simp] theorem execPalAccess_still (bank : Nat) (reqs : List PalReq) (s : State) :
    Safety.ends (execPalAccess bank reqs s) (fun t => Safety.still t = Safety.still s) := by
  simp [execPalAccess]

@[simp] theorem State.serveWaiting_still (b : Nat) (s : State) :
    Safety.still (State.serveWaiting b s) = Safety.still s := by
  simp [State.serveWaiting]

@[simp] theorem State.touch_still (unit c g : Nat) (op : LineOp) (s : State) :
    Safety.still (State.touch unit c g op s) = Safety.still s := by
  simp [State.touch]

@[simp] theorem State.readEach_still (unit c : Nat) (gs : List Nat) (s : State) :
    Safety.still (State.readEach unit c gs s).2.2 = Safety.still s := by
  unfold State.readEach
  repeat' first
    | (simp; done)
    | with_reducible refine (ends_next _ _).2 ?_
    | with_reducible refine (onlyIf_still _ _ _ ?_).trans ?_
    | with_reducible refine (each_still _ _ _ (fun _ _ => ?_)).trans ?_
    | with_reducible refine (foldl_still _ _ _ (fun _ _ => ?_)).trans ?_
    | with_reducible refine (foldl_fst_still _ _ _ (fun _ _ => ?_)).trans ?_
    | with_reducible refine (foldl_snd_snd_still _ _ _ (fun _ _ => ?_)).trans ?_
    | with_reducible refine (foldl_snd_still _ _ _ (fun _ _ => ?_)).trans ?_
    | with_reducible refine (handTogether_still _ _ (fun _ => ?_)).trans ?_
    | dsimp only
    | split

@[simp] theorem State.readLines_still (unit c bank line n : Nat) (s : State) :
    Safety.still (State.readLines unit c bank line n s).2.2 = Safety.still s := by
  simp [State.readLines]

@[simp] theorem State.writeLines_still (unit c bank line : Nat) (data : List Byte) (s : State) :
    Safety.still (State.writeLines unit c bank line data s) = Safety.still s := by
  simp [State.writeLines]

@[simp] theorem State.readSpan_still (unit c addr n : Nat) (s : State) :
    Safety.still (State.readSpan unit c addr n s).2.2 = Safety.still s := by
  simp [State.readSpan]

@[simp] theorem State.writeSpan_still (unit c addr : Nat) (data : List Byte) (s : State) :
    Safety.still (State.writeSpan unit c addr data s) = Safety.still s := by
  simp [State.writeSpan]

@[simp] theorem State.handBank_still (b owner set : Nat) (s : State) :
    Safety.still (State.handBank b owner set s) = Safety.still s := by
  simp [State.handBank]

@[simp] theorem execPalBankOwner_still (writer bank : Nat) (value : Word) (s : State) :
    Safety.ends (execPalBankOwner writer bank value s) (fun t => Safety.still t = Safety.still s) := by
  simp [execPalBankOwner]

@[simp] theorem execBankHandoverDone_still (bank : Nat) (s : State) :
    Safety.ends (execBankHandoverDone bank s) (fun t => Safety.still t = Safety.still s) := by
  simp [execBankHandoverDone]

@[simp] theorem State.palCommit_still (s : State) :
    Safety.still (State.palCommit s) = Safety.still s := by
  unfold State.palCommit
  repeat' first
    | (simp; done)
    | with_reducible refine (ends_next _ _).2 ?_
    | with_reducible refine (onlyIf_still _ _ _ ?_).trans ?_
    | with_reducible refine (each_still _ _ _ (fun _ _ => ?_)).trans ?_
    | with_reducible refine (foldl_still _ _ _ (fun _ _ => ?_)).trans ?_
    | with_reducible refine (foldl_fst_still _ _ _ (fun _ _ => ?_)).trans ?_
    | with_reducible refine (foldl_snd_snd_still _ _ _ (fun _ _ => ?_)).trans ?_
    | with_reducible refine (foldl_snd_still _ _ _ (fun _ _ => ?_)).trans ?_
    | with_reducible refine (handTogether_still _ _ (fun _ => ?_)).trans ?_
    | dsimp only
    | split

@[simp] theorem execPalCommit_still (s : State) :
    Safety.ends (execPalCommit s) (fun t => Safety.still t = Safety.still s) := by
  simp [execPalCommit]

@[simp] theorem execBankClearDone_still (bank : Nat) (s : State) :
    Safety.ends (execBankClearDone bank s) (fun t => Safety.still t = Safety.still s) := by
  simp [execBankClearDone]

@[simp] theorem execConversionDone_still (bank : Nat) (s : State) :
    Safety.ends (execConversionDone bank s) (fun t => Safety.still t = Safety.still s) := by
  unfold execConversionDone; split <;> simp

@[simp] theorem State.chunkDone_still (b first : Nat) (saved : List PLine) (s : State) :
    Safety.still (State.chunkDone b first saved s) = Safety.still s := by
  simp [State.chunkDone]

@[simp] theorem execTesterChunk_still (recent : List Nat) (fail : Option MarchFail) (s : State) :
    Safety.ends (execTesterChunk recent fail s) (fun t => Safety.still t = Safety.still s) := by
  unfold execTesterChunk
  repeat' first
    | (simp; done)
    | with_reducible refine (ends_next _ _).2 ?_
    | with_reducible refine (onlyIf_still _ _ _ ?_).trans ?_
    | with_reducible refine (each_still _ _ _ (fun _ _ => ?_)).trans ?_
    | with_reducible refine (foldl_still _ _ _ (fun _ _ => ?_)).trans ?_
    | with_reducible refine (foldl_fst_still _ _ _ (fun _ _ => ?_)).trans ?_
    | with_reducible refine (foldl_snd_snd_still _ _ _ (fun _ _ => ?_)).trans ?_
    | with_reducible refine (foldl_snd_still _ _ _ (fun _ _ => ?_)).trans ?_
    | with_reducible refine (handTogether_still _ _ (fun _ => ?_)).trans ?_
    | dsimp only
    | split

@[simp] theorem State.rawWrite_still (s : State) :
    Safety.still (State.rawWrite s) = Safety.still s := by
  simp [State.rawWrite]

@[simp] theorem State.rawRead_still (s : State) :
    Safety.still (State.rawRead s) = Safety.still s := by
  simp [State.rawRead]

@[simp] theorem execRawWrite_still (s : State) :
    Safety.ends (execRawWrite s) (fun t => Safety.still t = Safety.still s) := by
  simp [execRawWrite]

@[simp] theorem execRawRead_still (s : State) :
    Safety.ends (execRawRead s) (fun t => Safety.still t = Safety.still s) := by
  simp [execRawRead]

end Sys2Proof.Machine
end

