-- ==== Sys2Proof/Laws/StillSwatch.lean ====
section
/-! SUPPORT. The operations of Machine/Swatch.lean leave the queue, the Window's words, the flash and the debug registers alone. -/

namespace Sys2Proof.Machine

@[simp] theorem State.onEntry_still (k : Nat) (f : Entry → Entry) (s : State) :
    Safety.still (State.onEntry k f s) = Safety.still s := by
  simp [State.onEntry]

@[simp] theorem State.dropEntry_still (k : Nat) (s : State) :
    Safety.still (State.dropEntry k s) = Safety.still s := by
  simp [State.dropEntry]

@[simp] theorem State.failReader_still (r : Nat × Nat) (s : State) :
    Safety.still (State.failReader r s) = Safety.still s := by
  simp [State.failReader]

@[simp] theorem State.poisonReader_still (s : State) (c : Nat) :
    Safety.still (State.poisonReader s c) = Safety.still s := by
  simp [State.poisonReader]

@[simp] theorem State.giveLines_still (rs : List (Nat × Nat)) (data : List Byte) (s : State) :
    Safety.still (State.giveLines rs data s) = Safety.still s := by
  simp [State.giveLines]

@[simp] theorem State.onXfer_still (q id : Nat) (f : Xfer → Xfer) (s : State) :
    Safety.still (State.onXfer q id f s) = Safety.still s := by
  simp [State.onXfer]

@[simp] theorem State.hostOut_still (q id : Nat) (s : State) :
    Safety.still (State.hostOut q id s) = Safety.still s := by
  unfold State.hostOut; repeat' split
  all_goals simp

@[simp] theorem State.xferGot_still (q id off : Nat) (data : List Byte) (s : State) :
    Safety.still (State.xferGot q id off data s) = Safety.still s := by
  simp [State.xferGot]

@[simp] theorem State.tierArrived_still (o i : Nat) (data : List Byte) (s : State) :
    Safety.still (State.tierArrived o i data s) = Safety.still s := by
  simp [State.tierArrived]

@[simp] theorem State.tierFailed_still (o i : Nat) (s : State) :
    Safety.still (State.tierFailed o i s) = Safety.still s := by
  simp [State.tierFailed]

@[simp] theorem State.ahead_still (bank : Nat) (s : State) :
    Safety.still (State.ahead bank s) = Safety.still s := by
  simp [State.ahead]

@[simp] theorem State.readSlot_still (bank slot : Nat) (s : State) :
    Safety.still (State.readSlot bank slot s).2 = Safety.still s := by
  simp [State.readSlot]

@[simp] theorem State.slotPut_still (bank slot : Nat) (data tag : List Byte) (s : State) :
    Safety.still (State.slotPut bank slot data tag s) = Safety.still s := by
  simp [State.slotPut]

@[simp] theorem State.entryPut_still (e : Entry) (data tag : List Byte) (s : State) :
    Safety.still (State.entryPut e data tag s) = Safety.still s := by
  simp [State.entryPut]

@[simp] theorem State.retag_still (e : Entry) (s : State) :
    Safety.still (State.retag e s) = Safety.still s := by
  simp [State.retag]

@[simp] theorem State.askWhole_still (k : Nat) (s : State) :
    Safety.still (State.askWhole k s) = Safety.still s := by
  unfold State.askWhole; split <;> simp

@[simp] theorem State.writeHome_still (o i ctx : Nat) (data tag : List Byte) (s : State) :
    Safety.still (State.writeHome o i ctx data tag s) = Safety.still s := by
  simp [State.writeHome]; repeat' split
  all_goals simp

@[simp] theorem State.readTier_still (o i home base : Nat) (s : State) :
    Safety.still (State.readTier o i home base s) = Safety.still s := by
  unfold State.readTier; repeat' split
  all_goals simp

@[simp] theorem State.tierData_still (o i home base : Nat) (good : Bool) (data : List Byte) (s : State) :
    Safety.still (State.tierData o i home base good data s).2 = Safety.still s := by
  unfold State.tierData; repeat' split
  all_goals simp

@[simp] theorem State.victim_still (t2 : Bool) (s : State) :
    Safety.still (State.victim t2 s).2 = Safety.still s := by
  simp [State.victim]; repeat' split
  all_goals simp

@[simp] theorem State.noteVictim_still (e : Entry) (s : State) :
    Safety.still (State.noteVictim e s) = Safety.still s := by
  simp [State.noteVictim]

@[simp] theorem State.countEvict_still (s : State) :
    Safety.still (State.countEvict s) = Safety.still s := by
  simp [State.countEvict]

@[simp] theorem State.queueMove_still (m : Move) (s : State) :
    Safety.still (State.queueMove m s) = Safety.still s := by
  simp [State.queueMove]

@[simp] theorem State.beginWb_still (k : Nat) (e : Entry) (s : State) :
    Safety.still (State.beginWb k e s) = Safety.still s := by
  simp [State.beginWb]

@[simp] theorem State.evict_still (k : Nat) (s : State) :
    Safety.still (State.evict k s) = Safety.still s := by
  unfold State.evict; split <;> simp

@[simp] theorem State.settleWays_still (s : State) :
    Safety.still (State.settleWays s) = Safety.still s := by
  unfold State.settleWays
  repeat' first
    | (simp; done)
    | with_reducible refine (ends_next _ _).2 ?_
    | with_reducible refine (onlyIf_still _ _ _ ?_).trans ?_
    | with_reducible refine (each_still _ _ _ (fun _ _ => ?_)).trans ?_
    | with_reducible refine (foldl_still _ _ _ (fun _ _ => ?_)).trans ?_
    | with_reducible refine (foldl_fst_still _ _ _ (fun _ _ => ?_)).trans ?_
    | with_reducible refine (foldl_snd_snd_still _ _ _ (fun _ _ => ?_)).trans ?_
    | with_reducible refine (foldl_snd_still _ _ _ (fun _ _ => ?_)).trans ?_
    | with_reducible refine (handTogether_still _ _ (fun _ => ?_)).trans ?_
    | dsimp only
    | split

@[simp] theorem State.placeIn_still (k : Nat) (s : State) :
    Safety.still (State.placeIn k s) = Safety.still s := by
  unfold State.placeIn; split <;> simp

@[simp] theorem State.reslot_still (k : Nat) (e : Entry) (s : State) :
    Safety.still (State.reslot k e s) = Safety.still s := by
  simp [State.reslot]; repeat' split
  all_goals simp

@[simp] theorem State.settleSlots_still (s : State) :
    Safety.still (State.settleSlots s) = Safety.still s := by
  unfold State.settleSlots
  repeat' first
    | (simp; done)
    | with_reducible refine (ends_next _ _).2 ?_
    | with_reducible refine (onlyIf_still _ _ _ ?_).trans ?_
    | with_reducible refine (each_still _ _ _ (fun _ _ => ?_)).trans ?_
    | with_reducible refine (foldl_still _ _ _ (fun _ _ => ?_)).trans ?_
    | with_reducible refine (foldl_fst_still _ _ _ (fun _ _ => ?_)).trans ?_
    | with_reducible refine (foldl_snd_snd_still _ _ _ (fun _ _ => ?_)).trans ?_
    | with_reducible refine (foldl_snd_still _ _ _ (fun _ _ => ?_)).trans ?_
    | with_reducible refine (handTogether_still _ _ (fun _ => ?_)).trans ?_
    | dsimp only
    | split

@[simp] theorem State.takeHome_still (o i : Nat) (t2 : Bool) (s : State) :
    Safety.still (State.takeHome o i t2 s) = Safety.still s := by
  unfold State.takeHome; split <;> simp

@[simp] theorem State.noSlot_still (s : State) :
    Safety.still (State.noSlot s) = Safety.still s := by
  simp [State.noSlot]

@[simp] theorem State.newEntry_still (o i : Nat) (t2 ppin : Bool) (s : State) :
    Safety.still (State.newEntry o i t2 ppin s).2 = Safety.still s := by
  simp [State.newEntry]; repeat' split
  all_goals simp

@[simp] theorem State.sendAway_still (s : State) :
    Safety.still (State.sendAway s) = Safety.still s := by
  simp [State.sendAway]

@[simp] theorem State.takeBank_still (owner : Nat) (pin urg : Bool) (b : Nat) (s : State) :
    Safety.still (State.takeBank owner pin urg b s) = Safety.still s := by
  simp [State.takeBank]

@[simp] theorem State.takeBanks_still (n owner : Nat) (pin urg : Bool) (s : State) :
    Safety.still (State.takeBanks n owner pin urg s).2 = Safety.still s := by
  simp [State.takeBanks]

@[simp] theorem State.giveBanks_still (bs : List Nat) (s : State) :
    Safety.still (State.giveBanks bs s) = Safety.still s := by
  simp [State.giveBanks]

@[simp] theorem State.settlePool_still (s : State) :
    Safety.still (State.settlePool s) = Safety.still s := by
  simp [State.settlePool]

@[simp] theorem State.pinDone_still (o i : Nat) (s : State) :
    Safety.still (State.pinDone o i s) = Safety.still s := by
  simp [State.pinDone]

@[simp] theorem State.raceWon_still (k : Nat) (s : State) :
    Safety.still (State.raceWon k s) = Safety.still s := by
  unfold State.raceWon; split <;> simp

@[simp] theorem State.placePromote_still (o i : Nat) (kind : MoveKind) (s : State) :
    Safety.still (State.placePromote o i kind s).2 = Safety.still s := by
  simp [State.placePromote]; repeat' split
  all_goals simp

@[simp] theorem State.startPins_still (p : Placing) (s : State) :
    Safety.still (State.startPins p s) = Safety.still s := by
  simp [State.startPins]

@[simp] theorem State.placingCheck_still (s : State) :
    Safety.still (State.placingCheck s) = Safety.still s := by
  simp [State.placingCheck]

@[simp] theorem State.settle_still (s : State) :
    Safety.still (State.settle s) = Safety.still s := by
  simp [State.settle]

@[simp] theorem State.fitPool_still (s : State) :
    Safety.still (State.fitPool s) = Safety.still s := by
  simp [State.fitPool]

@[simp] theorem State.endFlight_still (o i : Nat) (ks : List MoveKind) (s : State) :
    Safety.still (State.endFlight o i ks s) = Safety.still s := by
  simp [State.endFlight]

@[simp] theorem State.moved_still (o i : Nat) (data tag : List Byte) (s : State) :
    Safety.still (State.moved o i data tag s) = Safety.still s := by
  simp [State.moved]; repeat' split
  all_goals simp

@[simp] theorem State.poisonEntry_still (o i : Nat) (f : Entry → Entry) (s : State) :
    Safety.still (State.poisonEntry o i f s) = Safety.still s := by
  simp [State.poisonEntry]; repeat' split
  all_goals simp

@[simp] theorem State.poison_still (o i : Nat) (home : Bool) (s : State) :
    Safety.still (State.poison o i home s) = Safety.still s := by
  simp [State.poison]

@[simp] theorem State.verified_still (k : Nat) (e : Entry) (data tag : List Byte) (s : State) :
    Safety.still (State.verified k e data tag s) = Safety.still s := by
  simp [State.verified]; repeat' split
  all_goals simp

@[simp] theorem State.unmapped_still (s : State) :
    Safety.still (State.unmapped s) = Safety.still s := by
  simp [State.unmapped]

@[simp] theorem State.countLook_still (hit : Bool) (s : State) :
    Safety.still (State.countLook hit s) = Safety.still s := by
  simp [State.countLook]

@[simp] theorem State.fromHome_still (o i r : Nat) (read : Bool) (b : Obj) (s : State) :
    Safety.still (State.fromHome o i r read b s).2 = Safety.still s := by
  unfold State.fromHome; repeat' split
  all_goals simp

@[simp] theorem State.lookup_still (unit r o i : Nat) (read hit : Bool) (s : State) :
    Safety.still (State.lookup unit r o i read hit s).2 = Safety.still s := by
  simp [State.lookup]; repeat' split
  all_goals simp

@[simp] theorem State.readLater_still (k : Nat) (r : Nat × Nat) (s : State) :
    Safety.still (State.readLater k r s) = Safety.still s := by
  simp [State.readLater]

@[simp] theorem State.writeLater_still (k n : Nat) (d : Line) (s : State) :
    Safety.still (State.writeLater k n d s) = Safety.still s := by
  simp [State.writeLater]

@[simp] theorem State.readDirect_still (o i : Nat) (rs : List (Nat × Nat)) (s : State) :
    Safety.still (State.readDirect o i rs s) = Safety.still s := by
  unfold State.readDirect
  repeat' first
    | (simp; done)
    | with_reducible refine (ends_next _ _).2 ?_
    | with_reducible refine (onlyIf_still _ _ _ ?_).trans ?_
    | with_reducible refine (each_still _ _ _ (fun _ _ => ?_)).trans ?_
    | with_reducible refine (foldl_still _ _ _ (fun _ _ => ?_)).trans ?_
    | with_reducible refine (foldl_fst_still _ _ _ (fun _ _ => ?_)).trans ?_
    | with_reducible refine (foldl_snd_snd_still _ _ _ (fun _ _ => ?_)).trans ?_
    | with_reducible refine (foldl_snd_still _ _ _ (fun _ _ => ?_)).trans ?_
    | with_reducible refine (handTogether_still _ _ (fun _ => ?_)).trans ?_
    | dsimp only
    | split

@[simp] theorem State.serveEntry_still (k r off : Nat) (op : SwOp) (s : State) :
    Safety.still (State.serveEntry k r off op s) = Safety.still s := by
  unfold State.serveEntry; repeat' split
  all_goals simp

@[simp] theorem State.swatchAccess_still (unit ctx obj off : Nat) (op : SwOp) (hit : Bool) (s : State) :
    Safety.still (State.swatchAccess unit ctx obj off op hit s) = Safety.still s := by
  simp [State.swatchAccess]; repeat' split
  all_goals simp

@[simp] theorem execSwatchAccess_still (requester ctx obj off : Nat) (op : SwOp) (bufHit : Bool) (s : State) :
    Safety.ends (execSwatchAccess requester ctx obj off op bufHit s) (fun t => Safety.still t = Safety.still s) := by
  simp [execSwatchAccess]

@[simp] theorem State.fillGood_still (o i : Nat) (data tag : List Byte) (s : State) :
    Safety.still (State.fillGood o i data tag s) = Safety.still s := by
  unfold State.fillGood; split <;> simp

@[simp] theorem State.startMove_still (m : Move) (s : State) :
    Safety.still (State.startMove m s) = Safety.still s := by
  simp [State.startMove]; repeat' split
  all_goals simp

@[simp] theorem execMoveStart_still (s : State) :
    Safety.ends (execMoveStart s) (fun t => Safety.still t = Safety.still s) := by
  unfold execMoveStart
  repeat' first
    | (simp; done)
    | with_reducible refine (ends_next _ _).2 ?_
    | with_reducible refine (onlyIf_still _ _ _ ?_).trans ?_
    | with_reducible refine (each_still _ _ _ (fun _ _ => ?_)).trans ?_
    | with_reducible refine (foldl_still _ _ _ (fun _ _ => ?_)).trans ?_
    | with_reducible refine (foldl_fst_still _ _ _ (fun _ _ => ?_)).trans ?_
    | with_reducible refine (foldl_snd_snd_still _ _ _ (fun _ _ => ?_)).trans ?_
    | with_reducible refine (foldl_snd_still _ _ _ (fun _ _ => ?_)).trans ?_
    | with_reducible refine (handTogether_still _ _ (fun _ => ?_)).trans ?_
    | dsimp only
    | split

@[simp] theorem State.endReads_still (o i : Nat) (s : State) :
    Safety.still (State.endReads o i s) = Safety.still s := by
  simp [State.endReads]

@[simp] theorem State.homeGood_still (o i : Nat) (data tag : List Byte) (s : State) :
    Safety.still (State.homeGood o i data tag s) = Safety.still s := by
  simp [State.homeGood]

@[simp] theorem State.fillFailed_still (o i : Nat) (s : State) :
    Safety.still (State.fillFailed o i s) = Safety.still s := by
  unfold State.fillFailed; repeat' split
  all_goals simp

@[simp] theorem State.homeBad_still (o i : Nat) (data : List Byte) (last : Bool) (s : State) :
    Safety.still (State.homeBad o i data last s) = Safety.still s := by
  unfold State.homeBad; split <;> simp

@[simp] theorem State.homeCame_still (o i : Nat) (good : Bool) (data : List Byte) (s : State) :
    Safety.still (State.homeCame o i good data s) = Safety.still s := by
  simp [State.homeCame]

@[simp] theorem State.fillDone_still (o i : Nat) (good : Bool) (data : List Byte) (s : State) :
    Safety.still (State.fillDone o i good data s) = Safety.still s := by
  unfold State.fillDone; split <;> simp

@[simp] theorem State.restored_still (k : Nat) (e : Entry) (data tag : List Byte) (s : State) :
    Safety.still (State.restored k e data tag s) = Safety.still s := by
  simp [State.restored]

@[simp] theorem State.notRestored_still (k : Nat) (e : Entry) (s : State) :
    Safety.still (State.notRestored k e s) = Safety.still s := by
  simp [State.notRestored]

@[simp] theorem State.refetchDone_still (o i : Nat) (good : Bool) (data : List Byte) (s : State) :
    Safety.still (State.refetchDone o i good data s) = Safety.still s := by
  unfold State.refetchDone; split <;> simp

@[simp] theorem State.tierCame_still (o i : Nat) (good : Bool) (data : List Byte) (s : State) :
    Safety.still (State.tierCame o i good data s) = Safety.still s := by
  simp [State.tierCame]

@[simp] theorem State.partCame_still (o i : Nat) (tag good : Bool) (data : List Byte) (s : State) :
    Safety.still (State.partCame o i tag good data s) = Safety.still s := by
  simp [State.partCame]; repeat' split
  all_goals simp

@[simp] theorem State.wholeGood_still (k : Nat) (e : Entry) (data tag : List Byte) (s : State) :
    Safety.still (State.wholeGood k e data tag s) = Safety.still s := by
  simp [State.wholeGood]

@[simp] theorem State.wholeBad_still (k : Nat) (e : Entry) (data : List Byte) (s : State) :
    Safety.still (State.wholeBad k e data s) = Safety.still s := by
  simp [State.wholeBad]

@[simp] theorem State.wholeCame_still (o i : Nat) (good : Bool) (data : List Byte) (s : State) :
    Safety.still (State.wholeCame o i good data s) = Safety.still s := by
  unfold State.wholeCame; split <;> simp

@[simp] theorem State.lineCame_still (o i l : Nat) (good : Bool) (data : List Byte) (s : State) :
    Safety.still (State.lineCame o i l good data s) = Safety.still s := by
  unfold State.lineCame; repeat' split
  all_goals simp

@[simp] theorem State.readTimeout_still (o i : Nat) (s : State) :
    Safety.still (State.readTimeout o i s) = Safety.still s := by
  simp [State.readTimeout]; repeat' split
  all_goals simp

@[simp] theorem execFillDone_still (obj idx : Nat) (good : Bool) (data : List Byte) (s : State) :
    Safety.ends (execFillDone obj idx good data s) (fun t => Safety.still t = Safety.still s) := by
  simp [execFillDone]

@[simp] theorem execRefetchDone_still (obj idx : Nat) (good : Bool) (data : List Byte) (s : State) :
    Safety.ends (execRefetchDone obj idx good data s) (fun t => Safety.still t = Safety.still s) := by
  simp [execRefetchDone]

@[simp] theorem execReadTimeout_still (obj idx : Nat) (s : State) :
    Safety.ends (execReadTimeout obj idx s) (fun t => Safety.still t = Safety.still s) := by
  simp [execReadTimeout]

@[simp] theorem State.writebackDone_still (o i : Nat) (s : State) :
    Safety.still (State.writebackDone o i s) = Safety.still s := by
  unfold State.writebackDone; split <;> simp

@[simp] theorem State.ppinClear_still (s : State) :
    Safety.still (State.ppinClear s) = Safety.still s := by
  simp [State.ppinClear]

@[simp] theorem State.unpoison_still (s : State) :
    Safety.still (State.unpoison s) = Safety.still s := by
  simp [State.unpoison]

@[simp] theorem State.beginRefetch_still (s : State) :
    Safety.still (State.beginRefetch s) = Safety.still s := by
  simp [State.beginRefetch]

@[simp] theorem State.poisonHandover_still (s : State) :
    Safety.still (State.poisonHandover s) = Safety.still s := by
  simp [State.poisonHandover]

@[simp] theorem State.dropObj_still (o : Nat) (s : State) :
    Safety.still (State.dropObj o s) = Safety.still s := by
  simp [State.dropObj]

@[simp] theorem State.migCommit_still (s : State) :
    Safety.still (State.migCommit s) = Safety.still s := by
  simp [State.migCommit]

@[simp] theorem execMigCommit_still (s : State) :
    Safety.ends (execMigCommit s) (fun t => Safety.still t = Safety.still s) := by
  simp [execMigCommit]

end Sys2Proof.Machine
end

