-- ==== Sys2Proof/Laws/StillTick.lean ====
section
/-! SUPPORT. The operations of Machine/Tick.lean leave the queue, the Window's words, the flash and the debug registers alone. -/

namespace Sys2Proof.Machine

@[simp] theorem State.syncEvent_still (real : Bool) (t : Nat) (s : State) :
    Safety.still (State.syncEvent real t s) = Safety.still s := by
  simp [State.syncEvent]

@[simp] theorem execTickBumpEdge_still (t : Nat) (wide : Bool) (s : State) :
    Safety.ends (execTickBumpEdge t wide s) (fun t => Safety.still t = Safety.still s) := by
  simp [execTickBumpEdge]

@[simp] theorem execTick_still (hl t : Nat) (s : State) :
    Safety.ends (execTick hl t s) (fun t => Safety.still t = Safety.still s) := by
  simp [execTick]

@[simp] theorem execInternalTimer_still (s : State) :
    Safety.ends (execInternalTimer s) (fun t => Safety.still t = Safety.still s) := by
  simp [execInternalTimer]

@[simp] theorem execSynthesisedEdge_still (s : State) :
    Safety.ends (execSynthesisedEdge s) (fun t => Safety.still t = Safety.still s) := by
  simp [execSynthesisedEdge]

@[simp] theorem execCreditReturn_still (ctx pair : Nat) (s : State) :
    Safety.ends (execCreditReturn ctx pair s) (fun t => Safety.still t = Safety.still s) := by
  simp [execCreditReturn]

@[simp] theorem State.saveLines_still (c loop addr n : Nat) (s : State) :
    Safety.still (State.saveLines c loop addr n s) = Safety.still s := by
  unfold State.saveLines; split <;> simp

@[simp] theorem State.keepStep_still (c loop : Nat) (s : State) :
    Safety.still (State.keepStep c loop s) = Safety.still s := by
  simp [State.keepStep]

@[simp] theorem State.putBack_still (c loop : Nat) (s : State) :
    Safety.still (State.putBack c loop s) = Safety.still s := by
  simp [State.putBack]

@[simp] theorem State.endLoop_still (c loop : Nat) (s : State) :
    Safety.still (State.endLoop c loop s) = Safety.still s := by
  simp [State.endLoop]

@[simp] theorem execCreditWaitExpiry_still (unit ctx waited : Nat) (s : State) :
    Safety.ends (execCreditWaitExpiry unit ctx waited s) (fun t => Safety.still t = Safety.still s) := by
  unfold execCreditWaitExpiry
  repeat' first
    | (simp; done)
    | with_reducible refine (ends_next _ _).2 ?_
    | with_reducible refine (onlyIf_still _ _ _ ?_).trans ?_
    | with_reducible refine (each_still _ _ _ (fun _ _ => ?_)).trans ?_
    | with_reducible refine (foldl_still _ _ _ (fun _ _ => ?_)).trans ?_
    | with_reducible refine (foldl_fst_still _ _ _ (fun _ _ => ?_)).trans ?_
    | with_reducible refine (foldl_snd_snd_still _ _ _ (fun _ _ => ?_)).trans ?_
    | with_reducible refine (foldl_snd_still _ _ _ (fun _ _ => ?_)).trans ?_
    | with_reducible refine (handTogether_still _ _ (fun _ => ?_)).trans ?_
    | dsimp only
    | split

end Sys2Proof.Machine
end

