-- ==== Sys2Proof/Laws/StillStrike.lean ====
section
/-! SUPPORT. The operations of Machine/Strike.lean leave the queue, the Window's words, the flash and the debug registers alone. -/

namespace Sys2Proof.Machine

@[simp] theorem State.markPanel_still (p cause : Nat) (s : State) :
    Safety.still (State.markPanel p cause s) = Safety.still s := by
  simp [State.markPanel]

@[simp] theorem State.mismatch_still (p : Nat) (s : State) :
    Safety.still (State.mismatch p s) = Safety.still s := by
  simp [State.mismatch]

@[simp] theorem State.gather_still (unit c : Nat) (whole : Bool) (src : List Nat) (s : State) :
    Safety.still (State.gather unit c whole src s).2.2 = Safety.still s := by
  simp [State.gather]

@[simp] theorem State.takeTrims_still (g : Nat) (h : Hit) (s : State) :
    Safety.still (State.takeTrims g h s) = Safety.still s := by
  simp [State.takeTrims]

@[simp] theorem State.subStrike_still (g : Nat) (i : Nat) (h : Hit) (s : State) :
    Safety.still (State.subStrike g i h s) = Safety.still s := by
  simp [State.subStrike]

@[simp] theorem State.sendRaw_still (c : Nat) (w : Work) (loop layer seq pair : Nat) (ys : List (Nat × Int)) (s : State) :
    Safety.still (State.sendRaw c w loop layer seq pair ys s) = Safety.still s := by
  simp [State.sendRaw]

@[simp] theorem State.vectorResult_still (g : Nat) (m : CMap) (v : Vec) (s : State) :
    Safety.still (State.vectorResult g m v s) = Safety.still s := by
  simp [State.vectorResult]

@[simp] theorem State.residue_still (g : Nat) (vs : List Vec) (s : State) :
    Safety.still (State.residue g vs s) = Safety.still s := by
  simp [State.residue]

@[simp] theorem State.sliceEnds_still (g : Nat) (h : Hit) (s : State) :
    Safety.still (State.sliceEnds g h s) = Safety.still s := by
  simp [State.sliceEnds]

@[simp] theorem State.endVectors_still (g : Nat) (hs : List Hit) (s : State) :
    Safety.still (State.endVectors g hs s) = Safety.still s := by
  simp [State.endVectors]

@[simp] theorem State.issue_still (g c : Nat) (hs : List Hit) (n run : Nat) (bad : Bool) (s : State) :
    Safety.still (State.issue g c hs n run bad s) = Safety.still s := by
  simp [State.issue]

@[simp] theorem State.routeOut_still (g : Nat) (k : StrikeCand) (s : State) :
    Safety.still (State.routeOut g k s) = Safety.still s := by
  unfold State.routeOut; split <;> simp

@[simp] theorem State.skipEmpty_still (g : Nat) (k : StrikeCand) (s : State) :
    Safety.still (State.skipEmpty g k s) = Safety.still s := by
  simp [State.skipEmpty]

@[simp] theorem State.strikeChosen_still (g : Nat) (k : StrikeCand) (bad : Bool) (cut : Option Nat) (s : State) :
    Safety.still (State.strikeChosen g k bad cut s) = Safety.still s := by
  simp [State.strikeChosen]; repeat' split
  all_goals simp

@[simp] theorem execStrikeIssue_still (group : Nat) (cands : List StrikeCand) (residueBad : Bool) (cut : Option Nat) (s : State) :
    Safety.ends (execStrikeIssue group cands residueBad cut s) (fun t => Safety.still t = Safety.still s) := by
  unfold execStrikeIssue
  repeat' first
    | (simp; done)
    | with_reducible refine (ends_next _ _).2 ?_
    | with_reducible refine (onlyIf_still _ _ _ ?_).trans ?_
    | with_reducible refine (each_still _ _ _ (fun _ _ => ?_)).trans ?_
    | with_reducible refine (foldl_still _ _ _ (fun _ _ => ?_)).trans ?_
    | with_reducible refine (foldl_fst_still _ _ _ (fun _ _ => ?_)).trans ?_
    | with_reducible refine (foldl_snd_snd_still _ _ _ (fun _ _ => ?_)).trans ?_
    | with_reducible refine (foldl_snd_still _ _ _ (fun _ _ => ?_)).trans ?_
    | with_reducible refine (handTogether_still _ _ (fun _ => ?_)).trans ?_
    | dsimp only
    | split

@[simp] theorem State.probePanel_still (r : ProbeRead) (s : State) :
    Safety.still (State.probePanel r s) = Safety.still s := by
  simp [State.probePanel]; repeat' split
  all_goals simp

@[simp] theorem execProbeStrike_still (group : Nat) (cands : List StrikeCand) (reads : List ProbeRead) (s : State) :
    Safety.ends (execProbeStrike group cands reads s) (fun t => Safety.still t = Safety.still s) := by
  simp [execProbeStrike]

end Sys2Proof.Machine
end

