-- ==== Sys2Proof/Laws/StillLiner.lean ====
section
/-! SUPPORT. The operations of Machine/Liner.lean leave the queue, the Window's words, the flash and the debug registers alone. -/

namespace Sys2Proof.Machine

@[simp] theorem State.takeParts_still (c : Nat) (used : List (Nat × Nat × Nat)) (s : State) :
    Safety.still (State.takeParts c used s) = Safety.still s := by
  simp [State.takeParts]

@[simp] theorem State.stageAsk_still (c l n : Nat) (s : State) :
    Safety.still (State.stageAsk c l n s) = Safety.still s := by
  simp [State.stageAsk]

@[simp] theorem State.stageFetch_still (c l n : Nat) (s : State) :
    Safety.still (State.stageFetch c l n s) = Safety.still s := by
  simp [State.stageFetch]

@[simp] theorem State.takeShare_still (c l e : Nat) (set : BitVec 16) (s : State) :
    Safety.still (State.takeShare c l e set s) = Safety.still s := by
  simp [State.takeShare]

@[simp] theorem State.chargeCycles_still (c e n : Nat) (s : State) :
    Safety.still (State.chargeCycles c e n s) = Safety.still s := by
  simp [State.chargeCycles]

@[simp] theorem State.startTile_still (e : Nat) (k : TileCand) (s : State) :
    Safety.still (State.startTile e k s) = Safety.still s := by
  simp [State.startTile]

@[simp] theorem State.waitTiles_still (e : Nat) (ks : List TileCand) (s : State) :
    Safety.still (State.waitTiles e ks s) = Safety.still s := by
  simp [State.waitTiles]

@[simp] theorem State.serveTile_still (e : Nat) (k : TileCand) (s : State) :
    Safety.still (State.serveTile e k s) = Safety.still s := by
  unfold State.serveTile; repeat' split
  all_goals simp

@[simp] theorem execTileStart_still (eng : Nat) (cands : List TileCand) (s : State) :
    Safety.ends (execTileStart eng cands s) (fun t => Safety.still t = Safety.still s) := by
  unfold execTileStart
  repeat' first
    | (simp; done)
    | with_reducible refine (ends_next _ _).2 ?_
    | with_reducible refine (onlyIf_still _ _ _ ?_).trans ?_
    | with_reducible refine (each_still _ _ _ (fun _ _ => ?_)).trans ?_
    | with_reducible refine (foldl_still _ _ _ (fun _ _ => ?_)).trans ?_
    | with_reducible refine (foldl_fst_still _ _ _ (fun _ _ => ?_)).trans ?_
    | with_reducible refine (foldl_snd_snd_still _ _ _ (fun _ _ => ?_)).trans ?_
    | with_reducible refine (foldl_snd_still _ _ _ (fun _ _ => ?_)).trans ?_
    | with_reducible refine (handTogether_still _ _ (fun _ => ?_)).trans ?_
    | dsimp only
    | split

@[simp] theorem State.idleEng_still (e : Nat) (s : State) :
    Safety.still (State.idleEng e s) = Safety.still s := by
  simp [State.idleEng]

@[simp] theorem State.lineCheck_still (e line : Nat) (t : Tile) (s : State) :
    Safety.still (State.lineCheck e line t s) = Safety.still s := by
  simp [State.lineCheck]; repeat' split
  all_goals simp

@[simp] theorem State.loadLines_still (e : Nat) (t : Tile) (data : List Byte) (s : State) :
    Safety.still (State.loadLines e t data s) = Safety.still s := by
  simp [State.loadLines]

@[simp] theorem State.countLoad_still (e n : Nat) (s : State) :
    Safety.still (State.countLoad e n s) = Safety.still s := by
  simp [State.countLoad]

@[simp] theorem State.beginCompute_still (e n : Nat) (t : Tile) (s : State) :
    Safety.still (State.beginCompute e n t s) = Safety.still s := by
  simp [State.beginCompute]

@[simp] theorem execLoadPhaseComplete_still (eng wait : Nat) (upset : Option (Nat × Line)) (s : State) :
    Safety.ends (execLoadPhaseComplete eng wait upset s) (fun t => Safety.still t = Safety.still s) := by
  unfold execLoadPhaseComplete
  repeat' first
    | (simp; done)
    | with_reducible refine (ends_next _ _).2 ?_
    | with_reducible refine (onlyIf_still _ _ _ ?_).trans ?_
    | with_reducible refine (each_still _ _ _ (fun _ _ => ?_)).trans ?_
    | with_reducible refine (foldl_still _ _ _ (fun _ _ => ?_)).trans ?_
    | with_reducible refine (foldl_fst_still _ _ _ (fun _ _ => ?_)).trans ?_
    | with_reducible refine (foldl_snd_snd_still _ _ _ (fun _ _ => ?_)).trans ?_
    | with_reducible refine (foldl_snd_still _ _ _ (fun _ _ => ?_)).trans ?_
    | with_reducible refine (handTogether_still _ _ (fun _ => ?_)).trans ?_
    | dsimp only
    | split

@[simp] theorem State.chargeExcess_still (e : Nat) (t : Tile) (ran : Nat) (s : State) :
    Safety.still (State.chargeExcess e t ran s) = Safety.still s := by
  simp [State.chargeExcess]

@[simp] theorem State.tileWrite_still (e : Nat) (t : Tile) (addr : Nat) (bs : List Byte) (s : State) :
    Safety.still (State.tileWrite e t addr bs s) = Safety.still s := by
  simp [State.tileWrite]

@[simp] theorem State.putCodes_still (e : Nat) (t : Tile) (bits : Nat) (os : List (TileCol × Nat)) (s : State) :
    Safety.still (State.putCodes e t bits os s) = Safety.still s := by
  simp [State.putCodes]

@[simp] theorem State.substResults_still (e : Nat) (t : Tile) (m : CMap) (s : State) :
    Safety.still (State.substResults e t m s) = Safety.still s := by
  simp [State.substResults]

@[simp] theorem State.columnResults_still (e : Nat) (t : Tile) (m : CMap) (s : State) :
    Safety.still (State.columnResults e t m s) = Safety.still s := by
  simp [State.columnResults]

@[simp] theorem State.endQuery_still (e : Nat) (t : Tile) (l : LLayer) (q : AttnQuery) (zs : List Word) (s : State) :
    Safety.still (State.endQuery e t l q zs s) = Safety.still s := by
  unfold State.endQuery; split <;> simp

@[simp] theorem State.queryResults_still (e : Nat) (t : Tile) (m : CMap) (s : State) :
    Safety.still (State.queryResults e t m s) = Safety.still s := by
  simp [State.queryResults]

@[simp] theorem State.stepEnds_still (t : Tile) (s : State) :
    Safety.still (State.stepEnds t s) = Safety.still s := by
  simp [State.stepEnds]

@[simp] theorem State.tileResults_still (e : Nat) (t : Tile) (s : State) :
    Safety.still (State.tileResults e t s) = Safety.still s := by
  simp [State.tileResults]

@[simp] theorem execTileEnd_still (eng wait : Nat) (upset : Option (Nat × Line)) (s : State) :
    Safety.ends (execTileEnd eng wait upset s) (fun t => Safety.still t = Safety.still s) := by
  unfold execTileEnd
  repeat' first
    | (simp; done)
    | with_reducible refine (ends_next _ _).2 ?_
    | with_reducible refine (onlyIf_still _ _ _ ?_).trans ?_
    | with_reducible refine (each_still _ _ _ (fun _ _ => ?_)).trans ?_
    | with_reducible refine (foldl_still _ _ _ (fun _ _ => ?_)).trans ?_
    | with_reducible refine (foldl_fst_still _ _ _ (fun _ _ => ?_)).trans ?_
    | with_reducible refine (foldl_snd_snd_still _ _ _ (fun _ _ => ?_)).trans ?_
    | with_reducible refine (foldl_snd_still _ _ _ (fun _ _ => ?_)).trans ?_
    | with_reducible refine (handTogether_still _ _ (fun _ => ?_)).trans ?_
    | dsimp only
    | split

@[simp] theorem State.endWait_still (e c : Nat) (s : State) :
    Safety.still (State.endWait e c s) = Safety.still s := by
  simp [State.endWait]

@[simp] theorem execSwwaitExpiry_still (eng ctx : Nat) (arrived : Bool) (s : State) :
    Safety.ends (execSwwaitExpiry eng ctx arrived s) (fun t => Safety.still t = Safety.still s) := by
  simp [execSwwaitExpiry]

end Sys2Proof.Machine
end

