-- ==== Sys2Proof/Laws/StillWarpPixel.lean ====
section
/-! SUPPORT. The operations of Machine/WarpPixel.lean leave the queue, the Window's words, the flash and the debug registers alone. -/

namespace Sys2Proof.Machine

@[simp] theorem State.storePlane_still (unit c addr : Nat) (p : Plane) (s : State) :
    Safety.still (State.storePlane unit c addr p s) = Safety.still s := by
  simp [State.storePlane]

@[simp] theorem State.loadPlane_still (unit c : Nat) (r : PlaneRef) (s : State) :
    Safety.still (State.loadPlane unit c r s).2.2 = Safety.still s := by
  simp [State.loadPlane]

@[simp] theorem State.warpWaits_still (r : WarpRun) (s : State) :
    Safety.still (State.warpWaits r s) = Safety.still s := by
  simp [State.warpWaits]

@[simp] theorem State.warpRows_still (r : WarpRun) (m : CMap) (j : WarpRec) (cur prev : PlaneRef) (sub mid : Bool × Bool) (outW k0 : Nat) (grid : List Byte) (s : State) :
    Safety.still (State.warpRows r m j cur prev sub mid outW k0 grid s) = Safety.still s := by
  simp [State.warpRows]

@[simp] theorem execWarpJob_still (ctx : Nat) (work : Work) (inp : WarpIn) (s : State) :
    Safety.ends (execWarpJob ctx work inp s) (fun t => Safety.still t = Safety.still s) := by
  simp [execWarpJob]; repeat' split
  all_goals simp

@[simp] theorem execSourceLineFill_still (line cycles : Nat) (s : State) :
    Safety.ends (execSourceLineFill line cycles s) (fun t => Safety.still t = Safety.still s) := by
  unfold execSourceLineFill; split <;> simp

@[simp] theorem State.unpackPicture_still (t : Task) (w h : Nat) (dst : List Nat) (acts : Nat) (s : State) :
    Safety.still (State.unpackPicture t w h dst acts s) = Safety.still s := by
  simp [State.unpackPicture]; repeat' split
  all_goals simp

@[simp] theorem execPayloadUnpack_still (ctx frame slice width height : Nat) (dst : List Nat) (acts : Nat) (s : State) :
    Safety.ends (execPayloadUnpack ctx frame slice width height dst acts s) (fun t => Safety.still t = Safety.still s) := by
  unfold execPayloadUnpack; split <;> simp

@[simp] theorem State.queueBlock_still (t : Task) (producer : Nat) (b : Block) (s : State) :
    Safety.still (State.queueBlock t producer b s) = Safety.still s := by
  simp [State.queueBlock]; repeat' split
  all_goals simp

@[simp] theorem State.readActs_still (c b n : Nat) (addrs : List Nat) (s : State) :
    Safety.still (State.readActs c b n addrs s).2.2 = Safety.still s := by
  simp [State.readActs]

@[simp] theorem execPack_still (ctx frame slice line0 lines before after out : Nat) (acts : List Nat) (count : Nat) (s : State) :
    Safety.ends (execPack ctx frame slice line0 lines before after out acts count s) (fun t => Safety.still t = Safety.still s) := by
  unfold execPack; split <;> simp

@[simp] theorem State.classSource_still (c k : Nat) (ps : List PlaneRef) (size : Nat × Nat) (s : State) :
    Safety.still (State.classSource c k ps size s).2.2 = Safety.still s := by
  unfold State.classSource; split <;> simp

@[simp] theorem State.classPlanes_still (c : Nat) (path : Fallback) (t : Nat) (pics : List (List PlaneRef)) (sizes : List (Nat × Nat)) (s : State) :
    Safety.still (State.classPlanes c path t pics sizes s).2.2 = Safety.still s := by
  simp [State.classPlanes]

@[simp] theorem State.classBlock_still (j : ClassJob) (rest : List ClassJob) (t : Task) (line0 lines : Nat) (sizes : List (Nat × Nat)) (s : State) :
    Safety.still (State.classBlock j rest t line0 lines sizes s) = Safety.still s := by
  simp [State.classBlock]

@[simp] theorem execClassicalBlock_still (line0 lines : Nat) (sizes : List (Nat × Nat)) (s : State) :
    Safety.ends (execClassicalBlock line0 lines sizes s) (fun t => Safety.still t = Safety.still s) := by
  unfold execClassicalBlock
  repeat' first
    | (simp; done)
    | with_reducible refine (ends_next _ _).2 ?_
    | with_reducible refine (onlyIf_still _ _ _ ?_).trans ?_
    | with_reducible refine (each_still _ _ _ (fun _ _ => ?_)).trans ?_
    | with_reducible refine (foldl_still _ _ _ (fun _ _ => ?_)).trans ?_
    | with_reducible refine (foldl_fst_still _ _ _ (fun _ _ => ?_)).trans ?_
    | with_reducible refine (foldl_snd_snd_still _ _ _ (fun _ _ => ?_)).trans ?_
    | with_reducible refine (foldl_snd_still _ _ _ (fun _ _ => ?_)).trans ?_
    | with_reducible refine (handTogether_still _ _ (fun _ => ?_)).trans ?_
    | dsimp only
    | split

end Sys2Proof.Machine
end

