-- ==== Sys2Proof/Laws/StillMover.lean ====
section
/-! SUPPORT. The operations of Machine/Mover.lean leave the queue, the Window's words, the flash and the debug registers alone. -/

namespace Sys2Proof.Machine

@[simp] theorem State.semSignal_still (i : Nat) (s : State) :
    Safety.still (State.semSignal i s) = Safety.still s := by
  simp [State.semSignal]

@[simp] theorem State.semTake_still (i : Nat) (s : State) :
    Safety.still (State.semTake i s) = Safety.still s := by
  simp [State.semTake]

@[simp] theorem execMovSemSig_still (value : Word) (s : State) :
    Safety.ends (execMovSemSig value s) (fun t => Safety.still t = Safety.still s) := by
  simp [execMovSemSig]

@[simp] theorem State.movCommit_still (s : State) :
    Safety.still (State.movCommit s) = Safety.still s := by
  simp [State.movCommit]

@[simp] theorem execMovCommit_still (s : State) :
    Safety.ends (execMovCommit s) (fun t => Safety.still t = Safety.still s) := by
  simp [execMovCommit]

@[simp] theorem State.sendEntry_still (c p : Nat) (data : List Byte) (s : State) :
    Safety.still (State.sendEntry c p data s) = Safety.still s := by
  simp [State.sendEntry]; repeat' split
  all_goals simp

@[simp] theorem State.releaseEntry_still (p : Nat) (s : State) :
    Safety.still (State.releaseEntry p s) = Safety.still s := by
  simp [State.releaseEntry]

@[simp] theorem State.portBytes_still (unit pair off n : Nat) (s : State) :
    Safety.still (State.portBytes unit pair off n s).2 = Safety.still s := by
  simp [State.portBytes]

@[simp] theorem State.readFor_still (q id addr n : Nat) (s : State) :
    Safety.still (State.readFor q id addr n s) = Safety.still s := by
  simp [State.readFor]

@[simp] theorem State.nextXfer_still (q : Nat) (f : Nat → Xfer) (s : State) :
    Safety.still (State.nextXfer q f s) = Safety.still s := by
  simp [State.nextXfer]

@[simp] theorem State.issueJob_still (q : Nat) (j : MovJob) (n : Nat) (s : State) :
    Safety.still (State.issueJob q j n s) = Safety.still s := by
  simp [State.issueJob]; repeat' split
  all_goals simp

@[simp] theorem State.takeHop_still (r : Run) (s : State) :
    Safety.still (State.takeHop r s) = Safety.still s := by
  unfold State.takeHop; repeat' split
  all_goals simp

@[simp] theorem State.issuePref_still (q : Nat) (r : Run) (s : State) :
    Safety.still (State.issuePref q r s) = Safety.still s := by
  simp [State.issuePref]

@[simp] theorem State.galleryFor_still (q id : Nat) (r : Run) (src n : Nat) (issue : State → State) (s : State) (h : ∀ s, Safety.still (issue s) = Safety.still s) :
    Safety.still (State.galleryFor q id r src n issue s).2 = Safety.still s := by
  unfold State.galleryFor
  dsimp only
  repeat' split
  all_goals simp [h]

@[simp] theorem State.issueData_still (q : Nat) (r : Run) (n : Nat) (s : State) :
    Safety.still (State.issueData q r n s).2 = Safety.still s := by
  simp [State.issueData]; repeat' split
  all_goals simp

@[simp] theorem State.chargeXfer_still (q : Nat) (o : Offer) (s : State) :
    Safety.still (State.chargeXfer q o s) = Safety.still s := by
  simp [State.chargeXfer]

@[simp] theorem State.issueOffer_still (q : Nat) (o : Offer) (s : State) :
    Safety.still (State.issueOffer q o s) = Safety.still s := by
  simp [State.issueOffer]; repeat' split
  all_goals simp

@[simp] theorem execTransferIssue_still (queue cycles : Nat) (s : State) :
    Safety.ends (execTransferIssue queue cycles s) (fun t => Safety.still t = Safety.still s) := by
  unfold execTransferIssue
  repeat' first
    | (simp; done)
    | with_reducible refine (ends_next _ _).2 ?_
    | with_reducible refine (onlyIf_still _ _ _ ?_).trans ?_
    | with_reducible refine (each_still _ _ _ (fun _ _ => ?_)).trans ?_
    | with_reducible refine (foldl_still _ _ _ (fun _ _ => ?_)).trans ?_
    | with_reducible refine (foldl_fst_still _ _ _ (fun _ _ => ?_)).trans ?_
    | with_reducible refine (foldl_snd_snd_still _ _ _ (fun _ _ => ?_)).trans ?_
    | with_reducible refine (foldl_snd_still _ _ _ (fun _ _ => ?_)).trans ?_
    | with_reducible refine (handTogether_still _ _ (fun _ => ?_)).trans ?_
    | dsimp only
    | split

@[simp] theorem State.checkPair_still (q : Nat) (s : State) :
    Safety.still (State.checkPair q s) = Safety.still s := by
  simp [State.checkPair]

@[simp] theorem State.midFault_still (q c : Nat) (tick : Word) (t : Option Task) (cause : Nat) (s : State) :
    Safety.still (State.midFault q c tick t cause s) = Safety.still s := by
  unfold State.midFault; split <;> simp

@[simp] theorem State.listFault_still (q c : Nat) (s : State) :
    Safety.still (State.listFault q c s) = Safety.still s := by
  simp [State.listFault]

@[simp] theorem State.fetchDesc_still (q desc : Nat) (s : State) :
    Safety.still (State.fetchDesc q desc s).2 = Safety.still s := by
  simp [State.fetchDesc]; repeat' split
  all_goals simp

@[simp] theorem State.startRun_still (q i : Nat) (d : Line) (s : State) :
    Safety.still (State.startRun q i d s) = Safety.still s := by
  simp [State.startRun]

@[simp] theorem State.armQueue_still (q desc : Nat) (s : State) :
    Safety.still (State.armQueue q desc s) = Safety.still s := by
  simp [State.armQueue]; repeat' split
  all_goals simp

@[simp] theorem execArm_still (queue desc : Nat) (s : State) :
    Safety.ends (execArm queue desc s) (fun t => Safety.still t = Safety.still s) := by
  simp [execArm]

@[simp] theorem State.nextRun_still (q : Nat) (s : State) :
    Safety.still (State.nextRun q s) = Safety.still s := by
  simp [State.nextRun]; repeat' split
  all_goals simp

@[simp] theorem State.runCheck_still (q : Nat) (s : State) :
    Safety.still (State.runCheck q s) = Safety.still s := by
  unfold State.runCheck; split <;> simp

@[simp] theorem execCancel_still (queue : Nat) (s : State) :
    Safety.ends (execCancel queue s) (fun t => Safety.still t = Safety.still s) := by
  unfold execCancel; split <;> simp

@[simp] theorem execCancelComplete_still (queue : Nat) (s : State) :
    Safety.ends (execCancelComplete queue s) (fun t => Safety.still t = Safety.still s) := by
  simp [execCancelComplete]

@[simp] theorem State.handOver_still (q : Nat) (r : Run) (b : Nat) (s : State) :
    Safety.still (State.handOver q r b s) = Safety.still s := by
  unfold State.handOver; repeat' split
  all_goals simp

@[simp] theorem State.handOvers_still (q : Nat) (s : State) :
    Safety.still (State.handOvers q s) = Safety.still s := by
  unfold State.handOvers
  repeat' first
    | (simp; done)
    | with_reducible refine (ends_next _ _).2 ?_
    | with_reducible refine (onlyIf_still _ _ _ ?_).trans ?_
    | with_reducible refine (each_still _ _ _ (fun _ _ => ?_)).trans ?_
    | with_reducible refine (foldl_still _ _ _ (fun _ _ => ?_)).trans ?_
    | with_reducible refine (foldl_fst_still _ _ _ (fun _ _ => ?_)).trans ?_
    | with_reducible refine (foldl_snd_snd_still _ _ _ (fun _ _ => ?_)).trans ?_
    | with_reducible refine (foldl_snd_still _ _ _ (fun _ _ => ?_)).trans ?_
    | with_reducible refine (handTogether_still _ _ (fun _ => ?_)).trans ?_
    | dsimp only
    | split

@[simp] theorem State.land_still (q : Nat) (x : Xfer) (s : State) :
    Safety.still (State.land q x s) = Safety.still s := by
  simp [State.land]; repeat' split
  all_goals simp

@[simp] theorem State.dropXfer_still (q id : Nat) (s : State) :
    Safety.still (State.dropXfer q id s) = Safety.still s := by
  simp [State.dropXfer]

@[simp] theorem State.midStream_still (q : Nat) (x : Xfer) (cause : Nat) (s : State) :
    Safety.still (State.midStream q x cause s) = Safety.still s := by
  simp [State.midStream]

@[simp] theorem execTransferRetire_still (queue id : Nat) (fault : Option Nat) (s : State) :
    Safety.ends (execTransferRetire queue id fault s) (fun t => Safety.still t = Safety.still s) := by
  unfold execTransferRetire; repeat' split
  all_goals simp

@[simp] theorem State.commandBytes_still (n : Nat) (s : State) :
    Safety.still (State.commandBytes n s) = Safety.still s := by
  simp [State.commandBytes]

end Sys2Proof.Machine
end

