-- ==== Sys2Proof/Laws/StillWindow.lean ====
section
/-! SUPPORT. The operations of Machine/Window.lean leave the queue, the Window's words, the flash and the debug registers alone. -/

namespace Sys2Proof.Machine

@[simp] theorem State.winWarn_still (b : PortB) (k : Nat) (m : Meet) (s : State) :
    Safety.still (State.winWarn b k m s).2 = Safety.still s := by
  simp [State.winWarn]

@[simp] theorem State.winCountA_still (m : Meet) (s : State) :
    Safety.still (State.winCountA m s) = Safety.still s := by
  simp [State.winCountA]

@[simp] theorem State.winCommit_still (s : State) :
    Safety.still (State.winCommit s) = Safety.still s := by
  simp [State.winCommit]

@[simp] theorem execWinCommit_still (s : State) :
    Safety.ends (execWinCommit s) (fun t => Safety.still t = Safety.still s) := by
  simp [execWinCommit]

@[simp] theorem execWinBusyExpiry_still (s : State) :
    Safety.ends (execWinBusyExpiry s) (fun t => Safety.still t = Safety.still s) := by
  simp [execWinBusyExpiry]

end Sys2Proof.Machine
end

