-- ==== Sys2Proof/Laws/StillLink.lean ====
section
/-! SUPPORT. The operations of Machine/Link.lean leave the queue, the Window's words, the flash and the debug registers alone. -/

namespace Sys2Proof.Machine

@[simp] theorem State.onMod_still (m : ModId) (f : Module → Module) (s : State) :
    Safety.still (State.onMod m f s) = Safety.still s := by
  unfold State.onMod; split <;> simp

@[simp] theorem State.leftActive_still (m : ModId) (s : State) :
    Safety.still (State.leftActive m s) = Safety.still s := by
  unfold State.leftActive; split <;> simp

@[simp] theorem State.train_still (m : ModId) (s : State) :
    Safety.still (State.train m s) = Safety.still s := by
  simp [State.train]

@[simp] theorem State.modReset_still (m : ModId) (s : State) :
    Safety.still (State.modReset m s) = Safety.still s := by
  simp [State.modReset]

@[simp] theorem State.retrain_still (m : ModId) (s : State) :
    Safety.still (State.retrain m s) = Safety.still s := by
  unfold State.retrain; repeat' split
  all_goals simp

@[simp] theorem State.takeTurn_still (n : Nat) (s : State) :
    Safety.still (State.takeTurn n s) = Safety.still s := by
  simp [State.takeTurn]; repeat' split
  all_goals simp

@[simp] theorem State.linkTurns_still (s : State) :
    Safety.still (State.linkTurns s) = Safety.still s := by
  simp [State.linkTurns]

@[simp] theorem State.hlkCommit_still (s : State) :
    Safety.still (State.hlkCommit s) = Safety.still s := by
  simp [State.hlkCommit]

@[simp] theorem execHlkCommit_still (s : State) :
    Safety.ends (execHlkCommit s) (fun t => Safety.still t = Safety.still s) := by
  simp [execHlkCommit]

@[simp] theorem State.wakeRecord_still (s : State) :
    Safety.still (State.wakeRecord s) = Safety.still s := by
  unfold State.wakeRecord; split <;> simp

@[simp] theorem State.sendEnum_still (p : Nat) (s : State) :
    Safety.still (State.sendEnum p s) = Safety.still s := by
  unfold State.sendEnum; split <;> simp

@[simp] theorem execModuleActive_still (m : ModId) (rate : BitVec 2) (s : State) :
    Safety.ends (execModuleActive m rate s) (fun t => Safety.still t = Safety.still s) := by
  unfold execModuleActive; split <;> simp

@[simp] theorem execTrainingTimeout_still (m : ModId) (s : State) :
    Safety.ends (execTrainingTimeout m s) (fun t => Safety.still t = Safety.still s) := by
  simp [execTrainingTimeout]

@[simp] theorem execTrainingRetry_still (m : ModId) (s : State) :
    Safety.ends (execTrainingRetry m s) (fun t => Safety.still t = Safety.still s) := by
  simp [execTrainingRetry]

@[simp] theorem execLinkManagementRequest_still (hl : Nat) (s : State) :
    Safety.ends (execLinkManagementRequest hl s) (fun t => Safety.still t = Safety.still s) := by
  simp [execLinkManagementRequest]

@[simp] theorem execVddqLoss_still (m : ModId) (s : State) :
    Safety.ends (execVddqLoss m s) (fun t => Safety.still t = Safety.still s) := by
  simp [execVddqLoss]

@[simp] theorem execVddqReturn_still (m : ModId) (s : State) :
    Safety.ends (execVddqReturn m s) (fun t => Safety.still t = Safety.still s) := by
  simp [execVddqReturn]

@[simp] theorem execSidebandMessageIgnored_still (hl : Nat) (vendor : Half) (code : Byte) (s : State) :
    Safety.ends (execSidebandMessageIgnored hl vendor code s) (fun t => Safety.still t = Safety.still s) := by
  simp [execSidebandMessageIgnored]

@[simp] theorem execResetNDeassert_still (strap : BitVec 4) (vddq : BitVec 6) (s : State) :
    Safety.ends (execResetNDeassert strap vddq s) (fun t => Safety.still t = Safety.still s) := by
  simp [execResetNDeassert]

@[simp] theorem State.onLayer_still (k : LinkId) (f : LinkLayer → LinkLayer) (s : State) :
    Safety.still (State.onLayer k f s) = Safety.still s := by
  unfold State.onLayer; split <;> simp

@[simp] theorem State.discardFrame_still (k : LinkId) (s : State) :
    Safety.still (State.discardFrame k s) = Safety.still s := by
  unfold State.discardFrame; split <;> simp

@[simp] theorem State.checkFrame_still (k : LinkId) (rx : Rx) (s : State) :
    Safety.still (State.checkFrame k rx s).2 = Safety.still s := by
  simp [State.checkFrame]

@[simp] theorem State.linkFault_still (q id : Nat) (s : State) :
    Safety.still (State.linkFault q id s) = Safety.still s := by
  unfold State.linkFault; split <;> simp

@[simp] theorem State.galleryFault_still (o i : Nat) (s : State) :
    Safety.still (State.galleryFault o i s) = Safety.still s := by
  simp [State.galleryFault]

@[simp] theorem State.reportFrame_still (f : TxFrame) (s : State) :
    Safety.still (State.reportFrame f s) = Safety.still s := by
  simp [State.reportFrame]; repeat' split
  all_goals simp

@[simp] theorem State.unrecover_still (fs : List TxFrame) (s : State) :
    Safety.still (State.unrecover fs s) = Safety.still s := by
  simp [State.unrecover]

@[simp] theorem State.replayHost_still (seq : Half) (s : State) :
    Safety.still (State.replayHost seq s) = Safety.still s := by
  simp [State.replayHost]

@[simp] theorem State.upLost_still (s : State) :
    Safety.still (State.upLost s) = Safety.still s := by
  simp [State.upLost]

@[simp] theorem State.hopLost_still (p pos : Nat) (s : State) :
    Safety.still (State.hopLost p pos s) = Safety.still s := by
  simp [State.hopLost]

@[simp] theorem State.replayFab_still (p : Nat) (seq : Half) (s : State) :
    Safety.still (State.replayFab p seq s) = Safety.still s := by
  simp [State.replayFab]

@[simp] theorem execAck_still (link : LinkId) (good : Bool) (seq : Half) (credit : List Nat) (s : State) :
    Safety.ends (execAck link good seq credit s) (fun t => Safety.still t = Safety.still s) := by
  unfold execAck; repeat' split
  all_goals simp

@[simp] theorem execNak_still (link : LinkId) (good : Bool) (seq : Half) (s : State) :
    Safety.ends (execNak link good seq s) (fun t => Safety.still t = Safety.still s) := by
  unfold execNak; repeat' split
  all_goals simp

@[simp] theorem execReplayTimeout_still (link : LinkId) (seq : Half) (s : State) :
    Safety.ends (execReplayTimeout link seq s) (fun t => Safety.still t = Safety.still s) := by
  unfold execReplayTimeout; split <;> simp

@[simp] theorem execLinkDownTimeout_still (s : State) :
    Safety.ends (execLinkDownTimeout s) (fun t => Safety.still t = Safety.still s) := by
  simp [execLinkDownTimeout]

@[simp] theorem State.disableRing_still (r : Nat) (s : State) :
    Safety.still (State.disableRing r s) = Safety.still s := by
  simp [State.disableRing]

@[simp] theorem State.linkLoss_still (s : State) :
    Safety.still (State.linkLoss s) = Safety.still s := by
  simp [State.linkLoss]

@[simp] theorem execLinkLossTimeout_still (s : State) :
    Safety.ends (execLinkLossTimeout s) (fun t => Safety.still t = Safety.still s) := by
  simp [execLinkLossTimeout]

@[simp] theorem State.readAhead_still (r : Nat) (s : State) :
    Safety.still (State.readAhead r s) = Safety.still s := by
  simp [State.readAhead]

@[simp] theorem State.dbIgnored_still (s : State) :
    Safety.still (State.dbIgnored s) = Safety.still s := by
  simp [State.dbIgnored]

@[simp] theorem State.enableRing_still (r : Nat) (s : State) :
    Safety.still (State.enableRing r s) = Safety.still s := by
  simp [State.enableRing]

@[simp] theorem State.ringBell_still (r op i : Nat) (s : State) :
    Safety.still (State.ringBell r op i s) = Safety.still s := by
  unfold State.ringBell; split <;> simp

@[simp] theorem State.doorbell_still (r op i : Nat) (s : State) :
    Safety.still (State.doorbell r op i s) = Safety.still s := by
  simp [State.doorbell]

@[simp] theorem execProduce_still (ring index : Nat) (s : State) :
    Safety.ends (execProduce ring index s) (fun t => Safety.still t = Safety.still s) := by
  simp [execProduce]

@[simp] theorem execConsume_still (ring index : Nat) (s : State) :
    Safety.ends (execConsume ring index s) (fun t => Safety.still t = Safety.still s) := by
  simp [execConsume]

@[simp] theorem execEnable_still (ring : Nat) (s : State) :
    Safety.ends (execEnable ring s) (fun t => Safety.still t = Safety.still s) := by
  simp [execEnable]

@[simp] theorem execDisable_still (ring : Nat) (s : State) :
    Safety.ends (execDisable ring s) (fun t => Safety.still t = Safety.still s) := by
  simp [execDisable]

@[simp] theorem State.descClamp_still (bad : Bool) (bit : Nat) (s : State) :
    Safety.still (State.descClamp bad bit s) = Safety.still s := by
  simp [State.descClamp]

@[simp] theorem State.installRing_still (r : Nat) (d : List Byte) (s : State) :
    Safety.still (State.installRing r d s) = Safety.still s := by
  simp [State.installRing]

@[simp] theorem State.holdHeader_still (r : Nat) (h : Line) (s : State) :
    Safety.still (State.holdHeader r h s) = Safety.still s := by
  simp [State.holdHeader]

@[simp] theorem State.readReply_still (by_ : Issuer) (data : List Byte) (s : State) :
    Safety.still (State.readReply by_ data s) = Safety.still s := by
  unfold State.readReply; split <;> simp

@[simp] theorem execMrdc_still (rx : Rx) (id : Nat) (data : List Byte) (s : State) :
    Safety.ends (execMrdc rx id data s) (fun t => Safety.still t = Safety.still s) := by
  unfold execMrdc
  repeat' first
    | (simp; done)
    | with_reducible refine (ends_next _ _).2 ?_
    | with_reducible refine (onlyIf_still _ _ _ ?_).trans ?_
    | with_reducible refine (each_still _ _ _ (fun _ _ => ?_)).trans ?_
    | with_reducible refine (foldl_still _ _ _ (fun _ _ => ?_)).trans ?_
    | with_reducible refine (foldl_fst_still _ _ _ (fun _ _ => ?_)).trans ?_
    | with_reducible refine (foldl_snd_snd_still _ _ _ (fun _ _ => ?_)).trans ?_
    | with_reducible refine (foldl_snd_still _ _ _ (fun _ _ => ?_)).trans ?_
    | with_reducible refine (handTogether_still _ _ (fun _ => ?_)).trans ?_
    | dsimp only
    | split

end Sys2Proof.Machine
end

