-- ==== Sys2Proof/Laws/StillCommands.lean ====
section
/-! SUPPORT. The operations of Machine/Commands.lean leave the queue, the Window's words, the flash and the debug registers alone. -/

namespace Sys2Proof.Machine

@[simp] theorem State.clamps_still (t : Taken) (ws : List Nat) (s : State) :
    Safety.still (State.clamps t ws s) = Safety.still s := by
  simp [State.clamps]

@[simp] theorem State.workerGone_still (c : Cmd) (s : State) :
    Safety.still (State.workerGone c s) = Safety.still s := by
  simp [State.workerGone]

@[simp] theorem State.forward_still (d : Nat) (c : Cmd) (payload : List Byte) (s : State) :
    Safety.still (State.forward d c payload s) = Safety.still s := by
  simp [State.forward]

@[simp] theorem State.takeHeader_still (h : Held) (c : Cmd) (s : State) :
    Safety.still (State.takeHeader h c s) = Safety.still s := by
  simp [State.takeHeader]

@[simp] theorem State.take_still (p : Packet) (ok : Line → Bool) (s : State) :
    Safety.still (State.take p ok s).2 = Safety.still s := by
  simp [State.take]; repeat' split
  all_goals simp

@[simp] theorem State.command_still (p : Packet) (ok : Line → Bool) (body : Taken → State → State) (s : State) (h : ∀ t s, Safety.still (body t s) = Safety.still s) :
    Safety.still (State.command p ok body s) = Safety.still s := by
  have ht := State.take_still p ok s
  unfold State.command
  split <;> simp_all

@[simp] theorem execUnsupported_still (p : Packet) (s : State) :
    Safety.ends (execUnsupported p s) (fun t => Safety.still t = Safety.still s) := by
  simp [execUnsupported]

@[simp] theorem State.ctxOpen_still (t : Taken) (s : State) :
    Safety.still (State.ctxOpen t s) = Safety.still s := by
  simp [State.ctxOpen]

@[simp] theorem execCtxOpen_still (p : Packet) (s : State) :
    Safety.ends (execCtxOpen p s) (fun t => Safety.still t = Safety.still s) := by
  simp [execCtxOpen]

@[simp] theorem State.noteEst_still (s : State) :
    Safety.still (State.noteEst s) = Safety.still s := by
  simp [State.noteEst]

@[simp] theorem State.easelLines_still (bank line : Nat) (data : List Byte) (s : State) :
    Safety.still (State.easelLines bank line data s) = Safety.still s := by
  simp [State.easelLines]

@[simp] theorem State.ensureDesc_still (s : State) :
    Safety.still (State.ensureDesc s) = Safety.still s := by
  unfold State.ensureDesc; split <;> simp

@[simp] theorem State.placeList_still (d : Line) (blocks : List (List Byte)) (s : State) :
    Safety.still (State.placeList d blocks s) = Safety.still s := by
  simp [State.placeList]

@[simp] theorem State.assignStreams_still (c : Nat) (m : CMap) (s : State) :
    Safety.still (State.assignStreams c m s).2 = Safety.still s := by
  simp [State.assignStreams]; repeat' split
  all_goals simp

@[simp] theorem State.setPairs_still (c : Nat) (m : CMap) (s : State) :
    Safety.still (State.setPairs c m s) = Safety.still s := by
  simp [State.setPairs]

@[simp] theorem State.firstBind_still (t : Taken) (s : State) :
    Safety.still (State.firstBind t s) = Safety.still s := by
  unfold State.firstBind; split <;> simp

@[simp] theorem State.ctxBind_still (t : Taken) (s : State) :
    Safety.still (State.ctxBind t s) = Safety.still s := by
  simp [State.ctxBind]

@[simp] theorem execCtxBind_still (p : Packet) (s : State) :
    Safety.ends (execCtxBind p s) (fun t => Safety.still t = Safety.still s) := by
  simp [execCtxBind]

@[simp] theorem State.ctxClose_still (t : Taken) (s : State) :
    Safety.still (State.ctxClose t s) = Safety.still s := by
  simp [State.ctxClose]

@[simp] theorem execCtxClose_still (p : Packet) (s : State) :
    Safety.ends (execCtxClose p s) (fun t => Safety.still t = Safety.still s) := by
  simp [execCtxClose]

@[simp] theorem State.abort_still (c : Cmd) (s : State) :
    Safety.still (State.abort c s) = Safety.still s := by
  simp [State.abort]; repeat' split
  all_goals simp

@[simp] theorem State.abortEnds_still (ctx : Nat) (s : State) :
    Safety.still (State.abortEnds ctx s) = Safety.still s := by
  simp [State.abortEnds]

end Sys2Proof.Machine
end

