-- ==== Sys2Proof/Laws/StillObjects.lean ====
section
/-! SUPPORT. The operations of Machine/Objects.lean leave the queue, the Window's words, the flash and the debug registers alone. -/

namespace Sys2Proof.Machine

@[simp] theorem State.slotNow_still (e : Entry) (s : State) :
    Safety.still (State.slotNow e s).2 = Safety.still s := by
  simp [State.slotNow]

@[simp] theorem State.homeNow_still (o i : Nat) (far : List Byte) (s : State) :
    Safety.still (State.homeNow o i far s).2 = Safety.still s := by
  simp [State.homeNow]; repeat' split
  all_goals simp

@[simp] theorem State.swatchNow_still (o i : Nat) (far : List Byte) (s : State) :
    Safety.still (State.swatchNow o i far s).2 = Safety.still s := by
  unfold State.swatchNow; repeat' split
  all_goals simp

@[simp] theorem State.recordBank_still (o : Nat) (s : State) :
    Safety.still (State.recordBank o s).2 = Safety.still s := by
  simp [State.recordBank]; repeat' split
  all_goals simp

@[simp] theorem State.freeRecord_still (o : Nat) (s : State) :
    Safety.still (State.freeRecord o s) = Safety.still s := by
  simp [State.freeRecord]

@[simp] theorem State.objDefine_still (t : Taken) (s : State) :
    Safety.still (State.objDefine t s) = Safety.still s := by
  simp [State.objDefine]

@[simp] theorem execObjDefine_still (p : Packet) (s : State) :
    Safety.ends (execObjDefine p s) (fun t => Safety.still t = Safety.still s) := by
  simp [execObjDefine]

@[simp] theorem State.storeSwatch_still (c : Cmd) (o i : Nat) (whole : Bool) (data tag : List Byte) (s : State) :
    Safety.still (State.storeSwatch c o i whole data tag s) = Safety.still s := by
  simp [State.storeSwatch]; repeat' split
  all_goals simp

@[simp] theorem State.readParts_still (o off : Nat) (items : List (Nat × List Byte × List Byte × Bool × Nat)) (remote : List Byte) (s : State) :
    Safety.still (State.readParts o off items remote s) = Safety.still s := by
  simp [State.readParts]

@[simp] theorem State.objWrite_still (remote : List Byte) (t : Taken) (s : State) :
    Safety.still (State.objWrite remote t s) = Safety.still s := by
  simp [State.objWrite]; repeat' split
  all_goals simp

@[simp] theorem execObjWrite_still (p : Packet) (remote : List Byte) (s : State) :
    Safety.ends (execObjWrite p remote s) (fun t => Safety.still t = Safety.still s) := by
  simp [execObjWrite]

@[simp] theorem State.writeAcked_still (o i : Nat) (s : State) :
    Safety.still (State.writeAcked o i s).2 = Safety.still s := by
  unfold State.writeAcked; split <;> simp

@[simp] theorem State.noteAccess_still (o i : Nat) (ok : Bool) (s : State) :
    Safety.still (State.noteAccess o i ok s) = Safety.still s := by
  unfold State.noteAccess; repeat' split
  all_goals simp

@[simp] theorem State.readSwatches_still (o first : Nat) (remote : List Byte) (x0 : List Nat) (x1 : State) :
    Safety.still (State.readSwatches o first remote x0 x1).2.2.2 = Safety.still x1 := by
  induction x0 generalizing x1 with
  | nil => rfl
  | cons i is ih =>
    show Safety.still (State.readSwatches o first remote is _).2.2.2 = _
    rw [ih, State.noteAccess_still]
    split
    · rfl
    · exact State.swatchNow_still _ _ _ _

@[simp] theorem State.readTrained_still (c : Cmd) (bs : List Byte) (off n : Nat) (s : State) :
    Safety.still (State.readTrained c bs off n s) = Safety.still s := by
  simp [State.readTrained]

@[simp] theorem State.objRead_still (remote : List Byte) (t : Taken) (s : State) :
    Safety.still (State.objRead remote t s) = Safety.still s := by
  unfold State.objRead
  dsimp only
  split
  · split
    · rw [State.readTrained_still]
      split <;> simp only [State.clampAt_still, State.clamps_still]
    · rw [State.notPerformed_still, State.clamps_still]
  split
  · rw [State.notPerformed_still, State.clamps_still]
  rw [State.complete_still, State.readSwatches_still]
  split
  · rw [State.unmapped_still]
    split <;> simp only [State.clampAt_still, State.clamps_still]
  · split <;> simp only [State.clampAt_still, State.clamps_still]

@[simp] theorem execObjRead_still (p : Packet) (remote : List Byte) (s : State) :
    Safety.ends (execObjRead p remote s) (fun t => Safety.still t = Safety.still s) := by
  simp [execObjRead]

@[simp] theorem State.objPlace_still (t : Taken) (s : State) :
    Safety.still (State.objPlace t s) = Safety.still s := by
  simp [State.objPlace]; repeat' split
  all_goals simp

@[simp] theorem execObjPlace_still (p : Packet) (s : State) :
    Safety.ends (execObjPlace p s) (fun t => Safety.still t = Safety.still s) := by
  simp [execObjPlace]

end Sys2Proof.Machine
end

