-- ==== Sys2Proof/Laws/StillModels.lean ====
section
/-! SUPPORT. The operations of Machine/Models.lean leave the queue, the Window's words, the flash and the debug registers alone. -/

namespace Sys2Proof.Machine

@[simp] theorem State.takePieces_still (n : Nat) (s : State) :
    Safety.still (State.takePieces n s).2 = Safety.still s := by
  simp [State.takePieces]

@[simp] theorem State.stageManifest_still (t : Taken) (o off : Nat) (b : Obj) (remote : List Byte) (s : State) :
    Safety.still (State.stageManifest t o off b remote s) = Safety.still s := by
  unfold State.stageManifest
  dsimp only
  have h1 := State.readSwatches_still o (off / 16384) remote [off / 16384] s
  generalize State.readSwatches o (off / 16384) remote [off / 16384] s = r1 at h1 ⊢
  split
  · rw [State.notPerformed_still, h1]
  have h2 := State.readSwatches_still o (off / 16384) remote
    ((List.range (ceilDiv (fieldB (r1.1.take 64) 12 4) 16384)).map (off / 16384 + ·)) r1.2.2.2
  generalize State.readSwatches o (off / 16384) remote
    ((List.range (ceilDiv (fieldB (r1.1.take 64) 12 4) 16384)).map (off / 16384 + ·)) r1.2.2.2 = r2 at h2 ⊢
  split
  · rw [State.notPerformed_still, h2, h1]
  have h3 := each_still (sectionsOf (r2.1.take (fieldB (r1.1.take 64) 12 4))).2 (fun w s => s.clampAt t.ctx 0x20 w) r2.2.2.2
    fun x s => State.clampAt_still _ _ _ _
  generalize each (sectionsOf (r2.1.take (fieldB (r1.1.take 64) 12 4))).2 (fun w s => s.clampAt t.ctx 0x20 w) r2.2.2.2 = s3 at h3 ⊢
  split
  · rw [State.notPerformed_still, h3, h2, h1]
  have h4 := State.takePieces_still (ceilDiv (fieldB (r1.1.take 64) 12 4) 65536) s3
  split
  · rw [State.notPerformed_still, h3, h2, h1]
  · rename_i ps s4 hs
    rw [hs] at h4
    have e := h4.trans (h3.trans (h2.trans h1))
    simp [e]

@[simp] theorem State.modelStage_still (remote : List Byte) (t : Taken) (s : State) :
    Safety.still (State.modelStage remote t s) = Safety.still s := by
  simp [State.modelStage]; repeat' split
  all_goals simp

@[simp] theorem execModelStage_still (p : Packet) (remote : List Byte) (s : State) :
    Safety.ends (execModelStage p remote s) (fun t => Safety.still t = Safety.still s) := by
  simp [execModelStage]

@[simp] theorem State.modelSwitch_still (t : Taken) (s : State) :
    Safety.still (State.modelSwitch t s) = Safety.still s := by
  simp [State.modelSwitch]

@[simp] theorem execModelSwitch_still (p : Packet) (s : State) :
    Safety.ends (execModelSwitch p s) (fun t => Safety.still t = Safety.still s) := by
  simp [execModelSwitch]

end Sys2Proof.Machine
end

