-- ==== Sys2Proof/Laws/StillPrograms.lean ====
section
/-! SUPPORT. The operations of Machine/Programs.lean leave the queue, the Window's words, the flash and the debug registers alone. -/

namespace Sys2Proof.Machine

@[simp] theorem State.savePanel_still (p : Nat) (s : State) :
    Safety.still (State.savePanel p s) = Safety.still s := by
  simp [State.savePanel]

@[simp] theorem State.takeSlot_still (p spare : Nat) (s : State) :
    Safety.still (State.takeSlot p spare s) = Safety.still s := by
  simp [State.takeSlot]

@[simp] theorem State.refuseReq_still (c : Option Cmd) (p : Nat) (s : State) :
    Safety.still (State.refuseReq c p s) = Safety.still s := by
  unfold State.refuseReq; split <;> simp

@[simp] theorem State.queueReq_still (r : Req) (s : State) :
    Safety.still (State.queueReq r s) = Safety.still s := by
  simp [State.queueReq]

@[simp] theorem State.wornReq_still (r : Req) (s : State) :
    Safety.still (State.wornReq r s).2 = Safety.still s := by
  simp [State.wornReq]; repeat' split
  all_goals simp

@[simp] theorem State.grantReq_still (r : Req) (s : State) :
    Safety.still (State.grantReq r s) = Safety.still s := by
  unfold State.grantReq
  dsimp only
  split
  · simp
  split
  · split <;> simp
  have hw := State.wornReq_still r (s.onGroup (r.panel / 17) (fun x => { x with queue := dropReq r x.queue }))
  split <;> rename_i h <;> rw [h] at hw <;> simp_all
  repeat' split
  all_goals simp_all

@[simp] theorem State.edgePrograms_still (s : State) :
    Safety.still (State.edgePrograms s) = Safety.still s := by
  unfold State.edgePrograms
  repeat' first
    | (simp; done)
    | with_reducible refine (ends_next _ _).2 ?_
    | with_reducible refine (onlyIf_still _ _ _ ?_).trans ?_
    | with_reducible refine (each_still _ _ _ (fun _ _ => ?_)).trans ?_
    | with_reducible refine (foldl_still _ _ _ (fun _ _ => ?_)).trans ?_
    | with_reducible refine (foldl_fst_still _ _ _ (fun _ _ => ?_)).trans ?_
    | with_reducible refine (foldl_snd_snd_still _ _ _ (fun _ _ => ?_)).trans ?_
    | with_reducible refine (foldl_snd_still _ _ _ (fun _ _ => ?_)).trans ?_
    | with_reducible refine (handTogether_still _ _ (fun _ => ?_)).trans ?_
    | dsimp only
    | split

@[simp] theorem State.imageOf_still (r : Req) (fetched : List Byte) (s : State) :
    Safety.still (State.imageOf r fetched s).2 = Safety.still s := by
  simp [State.imageOf]; repeat' split
  all_goals simp

@[simp] theorem State.beginErase_still (p : Nat) (r : Req) (retry : Bool) (s : State) :
    Safety.still (State.beginErase p r retry s) = Safety.still s := by
  simp [State.beginErase]

@[simp] theorem State.bufferedImage_still (g : Nat) (r : Req) (fetched : List Byte) (s : State) :
    Safety.still (State.bufferedImage g r fetched s).2 = Safety.still s := by
  unfold State.bufferedImage; split <;> simp

@[simp] theorem State.prefetchImage_still (g p : Nat) (src : Src) (image next : List Byte) (s : State) :
    Safety.still (State.prefetchImage g p src image next s) = Safety.still s := by
  simp [State.prefetchImage]; repeat' split
  all_goals simp

@[simp] theorem State.badImage_still (r : Req) (fetched : List Byte) (s : State) :
    Safety.still (State.badImage r fetched s) = Safety.still s := by
  simp [State.badImage]

@[simp] theorem State.unGrant_still (p : Nat) (r : Req) (s : State) :
    Safety.still (State.unGrant p r s) = Safety.still s := by
  simp [State.unGrant]

@[simp] theorem State.startProgram_still (g p : Nat) (fetched next : List Byte) (s : State) :
    Safety.still (State.startProgram g p fetched next s) = Safety.still s := by
  unfold State.startProgram; split <;> simp

@[simp] theorem State.programStart_still (g : Nat) (fetched next : List Byte) (s : State) :
    Safety.still (State.programStart g fetched next s) = Safety.still s := by
  simp [State.programStart]; repeat' split
  all_goals simp

@[simp] theorem execProgramStart_still (group : Nat) (fetched next : List Byte) (s : State) :
    Safety.ends (execProgramStart group fetched next s) (fun t => Safety.still t = Safety.still s) := by
  simp [execProgramStart]

@[simp] theorem State.endProgram_still (p : Nat) (r : Req) (result : BitVec 2) (pulses : BitVec 4) (time : Half) (s : State) :
    Safety.still (State.endProgram p r result pulses time s) = Safety.still s := by
  simp [State.endProgram]

@[simp] theorem State.programComplete_still (g : Nat) (good : Bool) (pulses : BitVec 4) (time : Half) (refs : List (List (Byte × Byte))) (s : State) :
    Safety.still (State.programComplete g good pulses time refs s) = Safety.still s := by
  unfold State.programComplete; repeat' split
  all_goals simp

@[simp] theorem State.panelProgram_still (t : Taken) (s : State) :
    Safety.still (State.panelProgram t s) = Safety.still s := by
  simp [State.panelProgram]; repeat' split
  all_goals simp

@[simp] theorem execPanelProgram_still (p : Packet) (s : State) :
    Safety.ends (execPanelProgram p s) (fun t => Safety.still t = Safety.still s) := by
  simp [execPanelProgram]

@[simp] theorem State.panelReprime_still (t : Taken) (s : State) :
    Safety.still (State.panelReprime t s) = Safety.still s := by
  simp [State.panelReprime]; repeat' split
  all_goals simp

@[simp] theorem execPanelReprime_still (p : Packet) (s : State) :
    Safety.ends (execPanelReprime p s) (fun t => Safety.still t = Safety.still s) := by
  simp [execPanelReprime]

end Sys2Proof.Machine
end

