-- ==== Sys2Proof/Laws/StillRuns.lean ====
section
/-! SUPPORT. The operations of Machine/Runs.lean leave the queue, the Window's words, the flash and the debug registers alone. -/

namespace Sys2Proof.Machine

@[simp] theorem State.beginFetch_still (t : Taken) (u : Task) (s : State) :
    Safety.still (State.beginFetch t u s) = Safety.still s := by
  simp [State.beginFetch]

@[simp] theorem State.beginTask_still (t : Taken) (u : Task) (s : State) :
    Safety.still (State.beginTask t u s) = Safety.still s := by
  simp [State.beginTask]; repeat' split
  all_goals simp

@[simp] theorem State.runSlice_still (blocks : Nat) (t : Taken) (s : State) :
    Safety.still (State.runSlice blocks t s) = Safety.still s := by
  simp [State.runSlice]

@[simp] theorem execRunSlice_still (p : Packet) (blocks : Nat) (s : State) :
    Safety.ends (execRunSlice p blocks s) (fun t => Safety.still t = Safety.still s) := by
  simp [execRunSlice]

@[simp] theorem State.runFrame_still (blocks : Nat) (t : Taken) (s : State) :
    Safety.still (State.runFrame blocks t s) = Safety.still s := by
  simp [State.runFrame]

@[simp] theorem execRunFrame_still (p : Packet) (blocks : Nat) (s : State) :
    Safety.ends (execRunFrame p blocks s) (fun t => Safety.still t = Safety.still s) := by
  simp [execRunFrame]

@[simp] theorem State.retouchCmd_still (t : Taken) (s : State) :
    Safety.still (State.retouchCmd t s) = Safety.still s := by
  simp [State.retouchCmd]

@[simp] theorem execRetouch_still (p : Packet) (s : State) :
    Safety.ends (execRetouch p s) (fun t => Safety.still t = Safety.still s) := by
  simp [execRetouch]

@[simp] theorem State.objBytes_still (o off n : Nat) (remote : List Byte) (s : State) :
    Safety.still (State.objBytes o off n remote s).2.2 = Safety.still s := by
  simp [State.objBytes]

@[simp] theorem State.retouchLayer_still (m : CMap) (r : RetouchRun) (inp : RetouchIn) (i : Nat) (p : Nat × Nat × Nat) (s : State) :
    Safety.still (State.retouchLayer m r inp i p s).2.2 = Safety.still s := by
  simp [State.retouchLayer]

@[simp] theorem State.retouchReads_still (m : CMap) (r : RetouchRun) (inp : RetouchIn) (x0 : Nat) (x1 : List (Nat × Nat × Nat)) (x2 : State) :
    Safety.still (State.retouchReads m r inp x0 x1 x2).2.2 = Safety.still x2 := by
  induction x1 generalizing x0 x2 with
  | nil => rfl
  | cons p ps ih =>
    show Safety.still (State.retouchReads m r inp (x0 + 1) ps _).2.2 = _
    rw [ih, State.retouchLayer_still]

@[simp] theorem State.retouchStep_still (c : Nat) (r : RetouchRun) (inp : RetouchIn) (s : State) :
    Safety.still (State.retouchStep c r inp s) = Safety.still s := by
  simp [State.retouchStep]

@[simp] theorem execRetouchStepDone_still (ctx : Nat) (inp : RetouchIn) (s : State) :
    Safety.ends (execRetouchStepDone ctx inp s) (fun t => Safety.still t = Safety.still s) := by
  unfold execRetouchStepDone; split <;> simp

end Sys2Proof.Machine
end

