-- ==== Sys2Proof/Laws/StillSettings.lean ====
section
/-! SUPPORT. The operations of Machine/Settings.lean leave the queue, the Window's words, the flash and the debug registers alone. -/

namespace Sys2Proof.Machine

@[simp] theorem State.tckCommit_still (s : State) :
    Safety.still (State.tckCommit s) = Safety.still s := by
  simp [State.tckCommit]

@[simp] theorem State.prmCommit_still (s : State) :
    Safety.still (State.prmCommit s) = Safety.still s := by
  simp [State.prmCommit]

@[simp] theorem State.glzCommit_still (s : State) :
    Safety.still (State.glzCommit s) = Safety.still s := by
  simp [State.glzCommit]

@[simp] theorem execTckCommit_still (s : State) :
    Safety.ends (execTckCommit s) (fun t => Safety.still t = Safety.still s) := by
  simp [execTckCommit]

@[simp] theorem execPrmCommit_still (s : State) :
    Safety.ends (execPrmCommit s) (fun t => Safety.still t = Safety.still s) := by
  simp [execPrmCommit]

@[simp] theorem execGlzCommit_still (s : State) :
    Safety.ends (execGlzCommit s) (fun t => Safety.still t = Safety.still s) := by
  simp [execGlzCommit]

@[simp] theorem State.tickConfig_still (t : Taken) (s : State) :
    Safety.still (State.tickConfig t s) = Safety.still s := by
  simp [State.tickConfig]

@[simp] theorem execTickConfig_still (p : Packet) (s : State) :
    Safety.ends (execTickConfig p s) (fun t => Safety.still t = Safety.still s) := by
  simp [execTickConfig]

@[simp] theorem State.calSet_still (t : Taken) (s : State) :
    Safety.still (State.calSet t s) = Safety.still s := by
  simp [State.calSet]

@[simp] theorem State.calMark_still (t : Taken) (s : State) :
    Safety.still (State.calMark t s) = Safety.still s := by
  simp [State.calMark]

@[simp] theorem State.calClear_still (t : Taken) (s : State) :
    Safety.still (State.calClear t s) = Safety.still s := by
  simp [State.calClear]

@[simp] theorem execCalControlSet_still (p : Packet) (s : State) :
    Safety.ends (execCalControlSet p s) (fun t => Safety.still t = Safety.still s) := by
  simp [execCalControlSet]

@[simp] theorem execCalControlMark_still (p : Packet) (s : State) :
    Safety.ends (execCalControlMark p s) (fun t => Safety.still t = Safety.still s) := by
  simp [execCalControlMark]

@[simp] theorem execCalControlClear_still (p : Packet) (s : State) :
    Safety.ends (execCalControlClear p s) (fun t => Safety.still t = Safety.still s) := by
  simp [execCalControlClear]

end Sys2Proof.Machine
end

