-- ==== Sys2Proof/Laws/StillPower.lean ====
section
/-! SUPPORT. The operations of Machine/Power.lean leave the queue, the Window's words, the flash and the debug registers alone. -/

namespace Sys2Proof.Machine

@[simp] theorem State.saveTrims_still (s : State) :
    Safety.still (State.saveTrims s) = Safety.still s := by
  simp [State.saveTrims]

@[simp] theorem State.savePanels_still (s : State) :
    Safety.still (State.savePanels s) = Safety.still s := by
  simp [State.savePanels]

@[simp] theorem execTrimSave_still (s : State) :
    Safety.ends (execTrimSave s) (fun t => Safety.still t = Safety.still s) := by
  simp [execTrimSave]

@[simp] theorem execPoweredHour_still (s : State) :
    Safety.ends (execPoweredHour s) (fun t => Safety.still t = Safety.still s) := by
  simp [execPoweredHour]

@[simp] theorem execAllowanceGain_still (s : State) :
    Safety.ends (execAllowanceGain s) (fun t => Safety.still t = Safety.still s) := by
  simp [execAllowanceGain]

@[simp] theorem State.dropCopies_still (s : State) :
    Safety.still (State.dropCopies s) = Safety.still s := by
  simp [State.dropCopies]

@[simp] theorem State.darken_still (st : Nat) (s : State) :
    Safety.still (State.darken st s) = Safety.still s := by
  unfold State.darken; split <;> simp

@[simp] theorem State.sleep_still (st : Nat) (s : State) :
    Safety.still (State.sleep st s) = Safety.still s := by
  simp [State.sleep]

@[simp] theorem State.wakeBy_still (src : Nat) (coreLow : Bool) (s : State) :
    Safety.ends (State.wakeBy src coreLow s) (fun t => Safety.still t = Safety.still s) := by
  unfold State.wakeBy; split <;> simp

@[simp] theorem execWakeBump_still (level : Bool) (cycles : Nat) (short coreLow : Bool) (s : State) :
    Safety.ends (execWakeBump level cycles short coreLow s) (fun t => Safety.still t = Safety.still s) := by
  unfold execWakeBump
  dsimp only
  repeat' split
  all_goals first
    | exact (ends_next _ _).2 (by simp)
    | exact ends_still_trans (State.wakeBy_still _ _ _) (by simp)

@[simp] theorem execWake_still (hl : Nat) (byte1 : Byte) (cycles : Nat) (coreLow : Bool) (s : State) :
    Safety.ends (execWake hl byte1 cycles coreLow s) (fun t => Safety.still t = Safety.still s) := by
  unfold execWake
  dsimp only
  repeat' split
  all_goals first
    | exact (ends_next _ _).2 (by simp)
    | exact ends_still_trans (State.wakeBy_still _ _ _) (by simp)

@[simp] theorem execWakeTimer_still (us : Nat) (coreLow : Bool) (s : State) :
    Safety.ends (execWakeTimer us coreLow s) (fun t => Safety.still t = Safety.still s) := by
  unfold execWakeTimer; split <;> simp

@[simp] theorem State.zeroHomes_still (lost : List Nat) (s : State) :
    Safety.still (State.zeroHomes lost s) = Safety.still s := by
  unfold State.zeroHomes
  refine each_still _ _ _ fun p s => ?_
  dsimp only
  generalize List.replicate 16384 (0 : Byte) = z
  simp

@[simp] theorem State.restoreTrims_still (s : State) :
    Safety.still (State.restoreTrims s) = Safety.still s := by
  simp [State.restoreTrims]

@[simp] theorem State.loseArith_still (s : State) :
    Safety.still (State.loseArith s) = Safety.still s := by
  simp [State.loseArith]

@[simp] theorem State.loseStores_still (s : State) :
    Safety.still (State.loseStores s) = Safety.still s := by
  simp [State.loseStores]

@[simp] theorem State.loseVolatile_still (s : State) :
    Safety.still (State.loseVolatile s) = Safety.still s := by
  simp [State.loseVolatile]

@[simp] theorem State.helpersReady_still (s : State) :
    Safety.still (State.helpersReady s) = Safety.still s := by
  simp [State.helpersReady]

@[simp] theorem State.startFenced_still (error : Byte) (a0 : Nat) (s : State) :
    Safety.still (State.startFenced error a0 s) = Safety.still s := by
  simp [State.startFenced]

@[simp] theorem State.reloadHelpers_still (ok : Bool) (s : State) :
    Safety.still (State.reloadHelpers ok s) = Safety.still s := by
  simp [State.reloadHelpers]

@[simp] theorem State.retrainAll_still (s : State) :
    Safety.still (State.retrainAll s) = Safety.still s := by
  simp [State.retrainAll]

@[simp] theorem execEaselResume_still (loadOk : Bool) (s : State) :
    Safety.ends (execEaselResume loadOk s) (fun t => Safety.still t = Safety.still s) := by
  unfold execEaselResume; split <;> simp

end Sys2Proof.Machine
end

