-- ==== Sys2Proof/Laws/StillBoot.lean ====
section
/-! SUPPORT. The operations of Machine/Boot.lean leave the queue, the Window's words, the flash and the debug registers alone. -/

namespace Sys2Proof.Machine

@[simp] theorem State.trainAtStart_still (s : State) :
    Safety.still (State.trainAtStart s) = Safety.still s := by
  simp [State.trainAtStart]

@[simp] theorem State.kick_still (value : Word) (s : State) :
    Safety.still (State.kick value s) = Safety.still s := by
  simp [State.kick]

@[simp] theorem execEasWdog_still (value : Word) (s : State) :
    Safety.ends (execEasWdog value s) (fun t => Safety.still t = Safety.still s) := by
  simp [execEasWdog]

@[simp] theorem State.writeRec_still (f : BootRec → BootRec) (s : State) :
    Safety.still (State.writeRec f s) = Safety.still s := by
  simp [State.writeRec]

@[simp] theorem State.chooseSlot_still (okA okB : Bool) (s : State) :
    Safety.still (State.chooseSlot okA okB s).2 = Safety.still s := by
  unfold State.chooseSlot; split <;> simp

@[simp] theorem State.loadImage_still (second : Bool) (s : State) :
    Safety.still (State.loadImage second s) = Safety.still s := by
  simp [State.loadImage]

@[simp] theorem State.startBanks_still (s : State) :
    Safety.still (State.startBanks s) = Safety.still s := by
  simp [State.startBanks]

@[simp] theorem State.refence_still (a : Nat × Nat) (s : State) :
    Safety.still (State.refence a s) = Safety.still s := by
  unfold State.refence; split <;> simp

@[simp] theorem State.fenceTests_still (fail corr : List (Nat × Nat)) (s : State) :
    Safety.still (State.fenceTests fail corr s).2 = Safety.still s := by
  simp [State.fenceTests]

@[simp] theorem State.fusePanels_still (s : State) :
    Safety.still (State.fusePanels s) = Safety.still s := by
  simp [State.fusePanels]

@[simp] theorem State.startPanels_still (probe : List BootProbe) (s : State) :
    Safety.still (State.startPanels probe s) = Safety.still s := by
  simp [State.startPanels]

@[simp] theorem State.loadFuses_still (s : State) :
    Safety.still (State.loadFuses s) = Safety.still s := by
  simp [State.loadFuses]

@[simp] theorem State.takeOver_still (s : State) :
    Safety.still (State.takeOver s) = Safety.still s := by
  simp [State.takeOver]

end Sys2Proof.Machine
end

