-- ==== Sys2Proof/Laws/StillFabric.lean ====
section
/-! SUPPORT. The operations of Machine/Fabric.lean leave the queue, the Window's words, the flash and the debug registers alone. -/

namespace Sys2Proof.Machine

@[simp] theorem State.messageFrom_still (src p dst kind vc param aux : Nat) (data : List Byte) (s : State) :
    Safety.still (State.messageFrom src p dst kind vc param aux data s) = Safety.still s := by
  simp [State.messageFrom]

@[simp] theorem State.linesBack_still (kind vc : Nat) (w : Wrx) (s : State) :
    Safety.still (State.linesBack kind vc w s) = Safety.still s := by
  simp [State.linesBack]

@[simp] theorem State.frame_still (kind vc : Nat) (w : Wrx) (body : State → State) (s : State) (h : ∀ s, Safety.still (body s) = Safety.still s) :
    Safety.still (State.frame kind vc w body s) = Safety.still s := by
  unfold State.frame
  dsimp only
  repeat' split
  all_goals simp [h]

@[simp] theorem execUndefinedKindFrame_still (w : Wrx) (kind vc : Nat) (s : State) :
    Safety.ends (execUndefinedKindFrame w kind vc s) (fun t => Safety.still t = Safety.still s) := by
  simp [execUndefinedKindFrame]

@[simp] theorem State.askEnum_still (p q : Nat) (s : State) :
    Safety.still (State.askEnum p q s) = Safety.still s := by
  simp [State.askEnum]; repeat' split
  all_goals simp

@[simp] theorem execEnum_still (w : Wrx) (s : State) :
    Safety.ends (execEnum w s) (fun t => Safety.still t = Safety.still s) := by
  simp [execEnum]

@[simp] theorem State.farWrite_still (off v d : Nat) (s : State) :
    Safety.still (State.farWrite off v d s) = Safety.still s := by
  simp [State.farWrite]

@[simp] theorem State.joinCheck_still (s : State) :
    Safety.still (State.joinCheck s) = Safety.still s := by
  unfold State.joinCheck; split <;> simp

@[simp] theorem State.fabJoin_still (t : Taken) (s : State) :
    Safety.still (State.fabJoin t s) = Safety.still s := by
  simp [State.fabJoin]

@[simp] theorem execFabJoin_still (p : Packet) (s : State) :
    Safety.ends (execFabJoin p s) (fun t => Safety.still t = Safety.still s) := by
  simp [execFabJoin]

@[simp] theorem State.stopEnum_still (p : Nat) (s : State) :
    Safety.still (State.stopEnum p s) = Safety.still s := by
  simp [State.stopEnum]

@[simp] theorem execEnumReply_still (w : Wrx) (s : State) :
    Safety.ends (execEnumReply w s) (fun t => Safety.still t = Safety.still s) := by
  simp [execEnumReply]

@[simp] theorem execEnumTimeout_still (port : Nat) (s : State) :
    Safety.ends (execEnumTimeout port s) (fun t => Safety.still t = Safety.still s) := by
  simp [execEnumTimeout]

@[simp] theorem execCmd_still (w : Wrx) (s : State) :
    Safety.ends (execCmd w s) (fun t => Safety.still t = Safety.still s) := by
  simp [execCmd]

@[simp] theorem execCpl_still (w : Wrx) (s : State) :
    Safety.ends (execCpl w s) (fun t => Safety.still t = Safety.still s) := by
  unfold execCpl
  repeat' first
    | (simp; done)
    | with_reducible refine (ends_next _ _).2 ?_
    | with_reducible refine (onlyIf_still _ _ _ ?_).trans ?_
    | with_reducible refine (each_still _ _ _ (fun _ _ => ?_)).trans ?_
    | with_reducible refine (foldl_still _ _ _ (fun _ _ => ?_)).trans ?_
    | with_reducible refine (foldl_fst_still _ _ _ (fun _ _ => ?_)).trans ?_
    | with_reducible refine (foldl_snd_snd_still _ _ _ (fun _ _ => ?_)).trans ?_
    | with_reducible refine (foldl_snd_still _ _ _ (fun _ _ => ?_)).trans ?_
    | with_reducible refine (handTogether_still _ _ (fun _ => ?_)).trans ?_
    | with_reducible refine (State.frame_still _ _ _ _ _ (fun _ => ?_)).trans ?_
    | dsimp only
    | split

@[simp] theorem State.remoteAccess_still (write : Bool) (s : State) :
    Safety.still (State.remoteAccess write s) = Safety.still s := by
  simp [State.remoteAccess]

@[simp] theorem execRemoteRead_still (s : State) :
    Safety.ends (execRemoteRead s) (fun t => Safety.still t = Safety.still s) := by
  simp [execRemoteRead]

@[simp] theorem execRemoteWrite_still (s : State) :
    Safety.ends (execRemoteWrite s) (fun t => Safety.still t = Safety.still s) := by
  simp [execRemoteWrite]

@[simp] theorem execRmtReply_still (w : Wrx) (s : State) :
    Safety.ends (execRmtReply w s) (fun t => Safety.still t = Safety.still s) := by
  simp [execRmtReply]

@[simp] theorem State.setRoute_still (d : Nat) (v : Word) (s : State) :
    Safety.still (State.setRoute d v s) = Safety.still s := by
  simp [State.setRoute]

@[simp] theorem execFabRoute_still (d : Nat) (value : Word) (s : State) :
    Safety.ends (execFabRoute d value s) (fun t => Safety.still t = Safety.still s) := by
  simp [execFabRoute]

@[simp] theorem State.fabCommit_still (s : State) :
    Safety.still (State.fabCommit s) = Safety.still s := by
  simp [State.fabCommit]

@[simp] theorem execFabCommit_still (s : State) :
    Safety.ends (execFabCommit s) (fun t => Safety.still t = Safety.still s) := by
  simp [execFabCommit]

@[simp] theorem execLendBankReturn_still (bank : Nat) (s : State) :
    Safety.ends (execLendBankReturn bank s) (fun t => Safety.still t = Safety.still s) := by
  simp [execLendBankReturn]

@[simp] theorem execHeartbeatSend_still (s : State) :
    Safety.ends (execHeartbeatSend s) (fun t => Safety.still t = Safety.still s) := by
  simp [execHeartbeatSend]

@[simp] theorem State.borrow_still (d : Nat) (banks : List Nat) (chest : Nat) (s : State) :
    Safety.still (State.borrow d banks chest s) = Safety.still s := by
  simp [State.borrow]

@[simp] theorem execHeartbeat_still (w : Wrx) (s : State) :
    Safety.ends (execHeartbeat w s) (fun t => Safety.still t = Safety.still s) := by
  simp [execHeartbeat]

@[simp] theorem execHeartbeatLoss_still (d : Nat) (s : State) :
    Safety.ends (execHeartbeatLoss d s) (fun t => Safety.still t = Safety.still s) := by
  simp [execHeartbeatLoss]

@[simp] theorem execHopDownTimeout_still (port pos : Nat) (s : State) :
    Safety.ends (execHopDownTimeout port pos s) (fun t => Safety.still t = Safety.still s) := by
  simp [execHopDownTimeout]

@[simp] theorem State.storeBytes_still (p : Nat) (bs : List Byte) (first last : Bool) (s : State) :
    Safety.still (State.storeBytes p bs first last s) = Safety.still s := by
  simp [State.storeBytes]

@[simp] theorem State.queueRecord_still (w : Wrx) (s : State) :
    Safety.still (State.queueRecord w s) = Safety.still s := by
  simp [State.queueRecord]

@[simp] theorem execEntry_still (w : Wrx) (s : State) :
    Safety.ends (execEntry w s) (fun t => Safety.still t = Safety.still s) := by
  simp [execEntry]

@[simp] theorem execEntryCredit_still (w : Wrx) (s : State) :
    Safety.ends (execEntryCredit w s) (fun t => Safety.still t = Safety.still s) := by
  simp [execEntryCredit]

@[simp] theorem execGlzAck_still (w : Wrx) (s : State) :
    Safety.ends (execGlzAck w s) (fun t => Safety.still t = Safety.still s) := by
  unfold execGlzAck
  repeat' first
    | (simp; done)
    | with_reducible refine (ends_next _ _).2 ?_
    | with_reducible refine (onlyIf_still _ _ _ ?_).trans ?_
    | with_reducible refine (each_still _ _ _ (fun _ _ => ?_)).trans ?_
    | with_reducible refine (foldl_still _ _ _ (fun _ _ => ?_)).trans ?_
    | with_reducible refine (foldl_fst_still _ _ _ (fun _ _ => ?_)).trans ?_
    | with_reducible refine (foldl_snd_snd_still _ _ _ (fun _ _ => ?_)).trans ?_
    | with_reducible refine (foldl_snd_still _ _ _ (fun _ _ => ?_)).trans ?_
    | with_reducible refine (handTogether_still _ _ (fun _ => ?_)).trans ?_
    | with_reducible refine (State.frame_still _ _ _ _ _ (fun _ => ?_)).trans ?_
    | dsimp only
    | split

@[simp] theorem execGlzResend_still (w : Wrx) (s : State) :
    Safety.ends (execGlzResend w s) (fun t => Safety.still t = Safety.still s) := by
  unfold execGlzResend
  repeat' first
    | (simp; done)
    | with_reducible refine (ends_next _ _).2 ?_
    | with_reducible refine (onlyIf_still _ _ _ ?_).trans ?_
    | with_reducible refine (each_still _ _ _ (fun _ _ => ?_)).trans ?_
    | with_reducible refine (foldl_still _ _ _ (fun _ _ => ?_)).trans ?_
    | with_reducible refine (foldl_fst_still _ _ _ (fun _ _ => ?_)).trans ?_
    | with_reducible refine (foldl_snd_snd_still _ _ _ (fun _ _ => ?_)).trans ?_
    | with_reducible refine (foldl_snd_still _ _ _ (fun _ _ => ?_)).trans ?_
    | with_reducible refine (handTogether_still _ _ (fun _ => ?_)).trans ?_
    | with_reducible refine (State.frame_still _ _ _ _ _ (fun _ => ?_)).trans ?_
    | dsimp only
    | split

@[simp] theorem execTierRd_still (w : Wrx) (s : State) :
    Safety.ends (execTierRd w s) (fun t => Safety.still t = Safety.still s) := by
  simp [execTierRd]

@[simp] theorem execTierWr_still (w : Wrx) (s : State) :
    Safety.ends (execTierWr w s) (fun t => Safety.still t = Safety.still s) := by
  simp [execTierWr]

@[simp] theorem execTierRdc_still (w : Wrx) (obj idx : Nat) (s : State) :
    Safety.ends (execTierRdc w obj idx s) (fun t => Safety.still t = Safety.still s) := by
  simp [execTierRdc]

end Sys2Proof.Machine
end

