-- ==== Sys2Proof/Laws/StillGlaze.lean ====
section
/-! SUPPORT. The operations of Machine/Glaze.lean leave the queue, the Window's words, the flash and the debug registers alone. -/

namespace Sys2Proof.Machine

@[simp] theorem State.codeJob_still (j : GlzJob) (s : State) :
    Safety.still (State.codeJob j s) = Safety.still s := by
  simp [State.codeJob]

@[simp] theorem execCompressBlock_still (lane : Nat) (s : State) :
    Safety.ends (execCompressBlock lane s) (fun t => Safety.still t = Safety.still s) := by
  unfold execCompressBlock; split <;> simp

@[simp] theorem State.glzReply_still (kind : Nat) (r : GlzIn) (s : State) :
    Safety.still (State.glzReply kind r s) = Safety.still s := by
  simp [State.glzReply]

@[simp] theorem State.corruptBlock_still (c : Nat) (r : GlzIn) (s : State) :
    Safety.still (State.corruptBlock c r s) = Safety.still s := by
  simp [State.corruptBlock]

@[simp] theorem State.expand_still (r : GlzIn) (s : State) :
    Safety.still (State.expand r s) = Safety.still s := by
  simp [State.expand]; repeat' split
  all_goals simp

@[simp] theorem execExpandBlock_still (lane : Nat) (s : State) :
    Safety.ends (execExpandBlock lane s) (fun t => Safety.still t = Safety.still s) := by
  unfold execExpandBlock; split <;> simp

end Sys2Proof.Machine
end

