-- ==== Sys2Proof/Laws/StillBroadcast.lean ====
section
/-! SUPPORT. The operations of Machine/Broadcast.lean leave the queue, the Window's words, the flash and the debug registers alone. -/

namespace Sys2Proof.Machine

@[simp] theorem State.onBcast_still (f : Bcast → Bcast) (s : State) :
    Safety.still (State.onBcast f s) = Safety.still s := by
  simp [State.onBcast]

@[simp] theorem State.bcastTable_still (b : Bcast) (s : State) :
    Safety.still (State.bcastTable b s) = Safety.still s := by
  simp [State.bcastTable]

@[simp] theorem State.sendShard_still (p dst n : Nat) (bytes : List Byte) (s : State) :
    Safety.still (State.sendShard p dst n bytes s) = Safety.still s := by
  simp [State.sendShard]

@[simp] theorem State.countShard_still (rawcut : Nat) (b : Bcast) (data : List Byte) (s : State) :
    Safety.still (State.countShard rawcut b data s) = Safety.still s := by
  simp [State.countShard]

@[simp] theorem State.bcastPump_still (x0 : Nat) (x1 : State) :
    Safety.still (State.bcastPump x0 x1) = Safety.still x1 := by
  induction x0 generalizing x1 with
  | zero => rfl
  | succ f ih =>
    unfold State.bcastPump
    dsimp only
    repeat' split
    all_goals simp [ih]

@[simp] theorem State.bcastGo_still (s : State) :
    Safety.still (State.bcastGo s) = Safety.still s := by
  unfold State.bcastGo; split <;> simp

@[simp] theorem State.fabBroadcast_still (remote : List Byte) (t : Taken) (s : State) :
    Safety.still (State.fabBroadcast remote t s) = Safety.still s := by
  simp [State.fabBroadcast]; repeat' split
  all_goals simp

@[simp] theorem execFabBroadcast_still (p : Packet) (remote : List Byte) (s : State) :
    Safety.ends (execFabBroadcast p remote s) (fun t => Safety.still t = Safety.still s) := by
  simp [execFabBroadcast]

@[simp] theorem execBcastStartTimeout_still (d : Nat) (s : State) :
    Safety.ends (execBcastStartTimeout d s) (fun t => Safety.still t = Safety.still s) := by
  simp [execBcastStartTimeout]

@[simp] theorem State.bcastAnswer_still (d : Nat) (yes : Bool) (s : State) :
    Safety.still (State.bcastAnswer d yes s) = Safety.still s := by
  unfold State.bcastAnswer; split <;> simp

@[simp] theorem State.bcastAcked_still (d upto : Nat) (s : State) :
    Safety.still (State.bcastAcked d upto s) = Safety.still s := by
  simp [State.bcastAcked]

@[simp] theorem execShardAck_still (w : Wrx) (s : State) :
    Safety.ends (execShardAck w s) (fun t => Safety.still t = Safety.still s) := by
  simp [execShardAck]

@[simp] theorem execShardNack_still (w : Wrx) (s : State) :
    Safety.ends (execShardNack w s) (fun t => Safety.still t = Safety.still s) := by
  unfold execShardNack
  repeat' first
    | (simp; done)
    | with_reducible refine (ends_next _ _).2 ?_
    | with_reducible refine (onlyIf_still _ _ _ ?_).trans ?_
    | with_reducible refine (each_still _ _ _ (fun _ _ => ?_)).trans ?_
    | with_reducible refine (foldl_still _ _ _ (fun _ _ => ?_)).trans ?_
    | with_reducible refine (foldl_fst_still _ _ _ (fun _ _ => ?_)).trans ?_
    | with_reducible refine (foldl_snd_snd_still _ _ _ (fun _ _ => ?_)).trans ?_
    | with_reducible refine (foldl_snd_still _ _ _ (fun _ _ => ?_)).trans ?_
    | with_reducible refine (handTogether_still _ _ (fun _ => ?_)).trans ?_
    | with_reducible refine (State.frame_still _ _ _ _ _ (fun _ => ?_)).trans ?_
    | dsimp only
    | split

@[simp] theorem execBcastStart_still (w : Wrx) (s : State) :
    Safety.ends (execBcastStart w s) (fun t => Safety.still t = Safety.still s) := by
  simp [execBcastStart]

@[simp] theorem State.shardMiss_still (n : Nat) (s : State) :
    Safety.still (State.shardMiss n s) = Safety.still s := by
  unfold State.shardMiss; split <;> simp

@[simp] theorem State.shardGap_still (n : Nat) (s : State) :
    Safety.still (State.shardGap n s) = Safety.still s := by
  unfold State.shardGap; split <;> simp

@[simp] theorem State.shardAckNow_still (s : State) :
    Safety.still (State.shardAckNow s) = Safety.still s := by
  unfold State.shardAckNow; split <;> simp

@[simp] theorem execShard_still (w : Wrx) (s : State) :
    Safety.ends (execShard w s) (fun t => Safety.still t = Safety.still s) := by
  unfold execShard
  repeat' first
    | (simp; done)
    | with_reducible refine (ends_next _ _).2 ?_
    | with_reducible refine (onlyIf_still _ _ _ ?_).trans ?_
    | with_reducible refine (each_still _ _ _ (fun _ _ => ?_)).trans ?_
    | with_reducible refine (foldl_still _ _ _ (fun _ _ => ?_)).trans ?_
    | with_reducible refine (foldl_fst_still _ _ _ (fun _ _ => ?_)).trans ?_
    | with_reducible refine (foldl_snd_snd_still _ _ _ (fun _ _ => ?_)).trans ?_
    | with_reducible refine (foldl_snd_still _ _ _ (fun _ _ => ?_)).trans ?_
    | with_reducible refine (handTogether_still _ _ (fun _ => ?_)).trans ?_
    | with_reducible refine (State.frame_still _ _ _ _ _ (fun _ => ?_)).trans ?_
    | dsimp only
    | split

@[simp] theorem execShardTimeout_still (sno : Nat) (s : State) :
    Safety.ends (execShardTimeout sno s) (fun t => Safety.still t = Safety.still s) := by
  simp [execShardTimeout]

@[simp] theorem execBcastEnd_still (w : Wrx) (s : State) :
    Safety.ends (execBcastEnd w s) (fun t => Safety.still t = Safety.still s) := by
  unfold execBcastEnd
  repeat' first
    | (simp; done)
    | with_reducible refine (ends_next _ _).2 ?_
    | with_reducible refine (onlyIf_still _ _ _ ?_).trans ?_
    | with_reducible refine (each_still _ _ _ (fun _ _ => ?_)).trans ?_
    | with_reducible refine (foldl_still _ _ _ (fun _ _ => ?_)).trans ?_
    | with_reducible refine (foldl_fst_still _ _ _ (fun _ _ => ?_)).trans ?_
    | with_reducible refine (foldl_snd_snd_still _ _ _ (fun _ _ => ?_)).trans ?_
    | with_reducible refine (foldl_snd_still _ _ _ (fun _ _ => ?_)).trans ?_
    | with_reducible refine (handTogether_still _ _ (fun _ => ?_)).trans ?_
    | with_reducible refine (State.frame_still _ _ _ _ _ (fun _ => ?_)).trans ?_
    | dsimp only
    | split

@[simp] theorem State.poisonStuck_still (o i : Nat) (s : State) :
    Safety.still (State.poisonStuck o i s) = Safety.still s := by
  simp [State.poisonStuck]

@[simp] theorem execBcastFail_still (w : Option Wrx) (sno : Nat) (s : State) :
    Safety.ends (execBcastFail w sno s) (fun t => Safety.still t = Safety.still s) := by
  unfold execBcastFail; repeat' split
  all_goals simp

end Sys2Proof.Machine
end

