-- ==== Sys2Proof/Laws/StillContain.lean ====
section
/-! SUPPORT. The operations of Machine/Contain.lean leave the queue, the Window's words, the flash and the debug registers alone. -/

namespace Sys2Proof.Machine

@[simp] theorem execHelperWatchdog_still (unit index : Nat) (s : State) :
    Safety.ends (execHelperWatchdog unit index s) (fun t => Safety.still t = Safety.still s) := by
  simp [execHelperWatchdog]

@[simp] theorem State.rebank_still (old new : Nat) (s : State) :
    Safety.still (State.rebank old new s) = Safety.still s := by
  simp [State.rebank]

@[simp] theorem execDispatchReinstallDone_still (bank : Nat) (s : State) :
    Safety.ends (execDispatchReinstallDone bank s) (fun t => Safety.still t = Safety.still s) := by
  unfold execDispatchReinstallDone
  repeat' first
    | (simp; done)
    | with_reducible refine (ends_next _ _).2 ?_
    | with_reducible refine (onlyIf_still _ _ _ ?_).trans ?_
    | with_reducible refine (each_still _ _ _ (fun _ _ => ?_)).trans ?_
    | with_reducible refine (foldl_still _ _ _ (fun _ _ => ?_)).trans ?_
    | with_reducible refine (foldl_fst_still _ _ _ (fun _ _ => ?_)).trans ?_
    | with_reducible refine (foldl_snd_snd_still _ _ _ (fun _ _ => ?_)).trans ?_
    | with_reducible refine (foldl_snd_still _ _ _ (fun _ _ => ?_)).trans ?_
    | with_reducible refine (handTogether_still _ _ (fun _ => ?_)).trans ?_
    | dsimp only
    | split

@[simp] theorem State.darkLinks_still (s : State) :
    Safety.still (State.darkLinks s) = Safety.still s := by
  simp [State.darkLinks]

@[simp] theorem execSensorSample_still (tj : List Int) (s : State) :
    Safety.ends (execSensorSample tj s) (fun t => Safety.still t = Safety.still s) := by
  simp [execSensorSample]

@[simp] theorem execRefclkLoss_still (s : State) :
    Safety.ends (execRefclkLoss s) (fun t => Safety.still t = Safety.still s) := by
  simp [execRefclkLoss]

@[simp] theorem execFlWpNChange_still (asserted : Bool) (s : State) :
    Safety.ends (execFlWpNChange asserted s) (fun t => Safety.still t = Safety.still s) := by
  simp [execFlWpNChange]

end Sys2Proof.Machine
end

