-- ==== Sys2Proof/Laws/StillFirmware.lean ====
section
/-! SUPPORT. The operations of Machine/Firmware.lean leave the queue, the Window's words, the flash and the debug registers alone. -/

namespace Sys2Proof.Machine

@[simp] theorem State.fwActivate_still (verified : Bool) (t : Taken) (s : State) :
    Safety.still (State.fwActivate verified t s) = Safety.still s := by
  simp [State.fwActivate]

@[simp] theorem execFwActivate_still (p : Packet) (verified : Bool) (s : State) :
    Safety.ends (execFwActivate p verified s) (fun t => Safety.still t = Safety.still s) := by
  simp [execFwActivate]

@[simp] theorem State.fwSwap_still (loadOk : Bool) (s : State) :
    Safety.still (State.fwSwap loadOk s) = Safety.still s := by
  simp [State.fwSwap]; repeat' split
  all_goals simp

@[simp] theorem execFwSwap_still (loadOk : Bool) (s : State) :
    Safety.ends (execFwSwap loadOk s) (fun t => Safety.still t = Safety.still s) := by
  simp [execFwSwap]

@[simp] theorem State.confirm_still (s : State) :
    Safety.still (State.confirm s) = Safety.still s := by
  unfold State.confirm
  repeat' first
    | (simp; done)
    | with_reducible refine (ends_next _ _).2 ?_
    | with_reducible refine (onlyIf_still _ _ _ ?_).trans ?_
    | with_reducible refine (each_still _ _ _ (fun _ _ => ?_)).trans ?_
    | with_reducible refine (foldl_still _ _ _ (fun _ _ => ?_)).trans ?_
    | with_reducible refine (foldl_fst_still _ _ _ (fun _ _ => ?_)).trans ?_
    | with_reducible refine (foldl_snd_snd_still _ _ _ (fun _ _ => ?_)).trans ?_
    | with_reducible refine (foldl_snd_still _ _ _ (fun _ _ => ?_)).trans ?_
    | with_reducible refine (handTogether_still _ _ (fun _ => ?_)).trans ?_
    | dsimp only
    | split

end Sys2Proof.Machine
end

