-- ==== Sys2Proof/Laws/StillDiag.lean ====
section
/-! SUPPORT. The operations of Machine/Diag.lean leave the queue, the Window's words, the flash and the debug registers alone. -/

namespace Sys2Proof.Machine

@[simp] theorem State.clampsDiag_still (t : Taken) (s : State) :
    Safety.still (State.clampsDiag t s) = Safety.still s := by
  simp [State.clampsDiag]

@[simp] theorem execClamps_still (p : Packet) (s : State) :
    Safety.ends (execClamps p s) (fun t => Safety.still t = Safety.still s) := by
  simp [execClamps]

@[simp] theorem State.swatchDiag_still (t : Taken) (s : State) :
    Safety.still (State.swatchDiag t s) = Safety.still s := by
  simp [State.swatchDiag]; repeat' split
  all_goals simp

@[simp] theorem execSwatch_still (p : Packet) (s : State) :
    Safety.ends (execSwatch p s) (fun t => Safety.still t = Safety.still s) := by
  simp [execSwatch]

@[simp] theorem State.semDiag_still (t : Taken) (s : State) :
    Safety.still (State.semDiag t s) = Safety.still s := by
  simp [State.semDiag]

@[simp] theorem execSem_still (p : Packet) (s : State) :
    Safety.ends (execSem p s) (fun t => Safety.still t = Safety.still s) := by
  simp [execSem]

@[simp] theorem State.eventsDiag_still (t : Taken) (s : State) :
    Safety.still (State.eventsDiag t s) = Safety.still s := by
  simp [State.eventsDiag]

@[simp] theorem execEvents_still (p : Packet) (s : State) :
    Safety.ends (execEvents p s) (fun t => Safety.still t = Safety.still s) := by
  simp [execEvents]

@[simp] theorem execDiagUndefinedFunc_still (p : Packet) (s : State) :
    Safety.ends (execDiagUndefinedFunc p s) (fun t => Safety.still t = Safety.still s) := by
  simp [execDiagUndefinedFunc]

@[simp] theorem State.palStep_still (bank : Nat) (mode : BitVec 2) (flipD flipC : Nat) (s : State) :
    Safety.still (State.palStep bank mode flipD flipC s).2 = Safety.still s := by
  simp [State.palStep]

@[simp] theorem State.palSequence_still (bank : Nat) (s : State) :
    Safety.still (State.palSequence bank s).2 = Safety.still s := by
  simp [State.palSequence]

@[simp] theorem State.palCheck_still (t : Taken) (s : State) :
    Safety.still (State.palCheck t s) = Safety.still s := by
  simp [State.palCheck]

@[simp] theorem execPalCheck_still (p : Packet) (s : State) :
    Safety.ends (execPalCheck p s) (fun t => Safety.still t = Safety.still s) := by
  simp [execPalCheck]

@[simp] theorem State.winSequence_still (collided : Bool) (s : State) :
    Safety.still (State.winSequence collided s).2 = Safety.still s := by
  simp [State.winSequence]

@[simp] theorem State.winCheck_still (collided : Bool) (t : Taken) (s : State) :
    Safety.still (State.winCheck collided t s) = Safety.still s := by
  simp [State.winCheck]

@[simp] theorem execWinCheck_still (p : Packet) (collided : Bool) (s : State) :
    Safety.ends (execWinCheck p collided s) (fun t => Safety.still t = Safety.still s) := by
  simp [execWinCheck]

@[simp] theorem State.attestNow_still (c : Cmd) (nonce : List Byte) (s : State) :
    Safety.still (State.attestNow c nonce s) = Safety.still s := by
  simp [State.attestNow]

@[simp] theorem State.attest_still (t : Taken) (s : State) :
    Safety.still (State.attest t s) = Safety.still s := by
  simp [State.attest]

@[simp] theorem execAttest_still (p : Packet) (s : State) :
    Safety.ends (execAttest p s) (fun t => Safety.still t = Safety.still s) := by
  simp [execAttest]

@[simp] theorem State.attestWaiting_still (s : State) :
    Safety.still (State.attestWaiting s) = Safety.still s := by
  simp [State.attestWaiting]

@[simp] theorem execKeyExpansionDone_still (s : State) :
    Safety.ends (execKeyExpansionDone s) (fun t => Safety.still t = Safety.still s) := by
  simp [execKeyExpansionDone]

@[simp] theorem execSlotDigestDone_still (s : State) :
    Safety.ends (execSlotDigestDone s) (fun t => Safety.still t = Safety.still s) := by
  simp [execSlotDigestDone]

end Sys2Proof.Machine
end

