-- ==== Sys2Proof/Laws/StillRegisters.lean ====
section
/-! SUPPORT. The operations of Machine/Registers.lean leave the queue, the Window's words, the flash and the debug registers alone. -/

namespace Sys2Proof.Machine

@[simp] theorem State.onCommit_still (v : Nat) (f : State → State) (s : State) (h : Safety.still (f s) = Safety.still s) :
    Safety.still (State.onCommit v f s) = Safety.still s := by
  exact onlyIf_still _ _ _ h

@[simp] theorem State.hostTck_still (off v : Nat) (s : State) :
    Safety.still (State.hostTck off v s) = Safety.still s := by
  unfold State.hostTck; split <;> simp

@[simp] theorem State.hostPnl_still (off v : Nat) (s : State) :
    Safety.still (State.hostPnl off v s) = Safety.still s := by
  unfold State.hostPnl; split <;> simp

@[simp] theorem State.hostPgr_still (off v : Nat) (s : State) :
    Safety.still (State.hostPgr off v s) = Safety.still s := by
  unfold State.hostPgr; split <;> simp

@[simp] theorem State.hostPrm_still (off v : Nat) (s : State) :
    Safety.still (State.hostPrm off v s) = Safety.still s := by
  unfold State.hostPrm; split <;> simp

@[simp] theorem State.hostLin_still (off v : Nat) (s : State) :
    Safety.still (State.hostLin off v s) = Safety.still s := by
  unfold State.hostLin; split <;> simp

@[simp] theorem State.hostPix_still (off v : Nat) (s : State) :
    Safety.still (State.hostPix off v s) = Safety.still s := by
  unfold State.hostPix; split <;> simp

@[simp] theorem State.hostGlz_still (off v : Nat) (s : State) :
    Safety.still (State.hostGlz off v s) = Safety.still s := by
  unfold State.hostGlz; split <;> simp

@[simp] theorem State.hostPal_still (off v : Nat) (s : State) :
    Safety.still (State.hostPal off v s) = Safety.still s := by
  unfold State.hostPal; split <;> simp

@[simp] theorem State.hostWin_still (off v : Nat) (s : State) :
    Safety.still (State.hostWin off v s) = Safety.still s := by
  unfold State.hostWin; split <;> simp

@[simp] theorem State.hostSwm_still (off v : Nat) (s : State) :
    Safety.still (State.hostSwm off v s) = Safety.still s := by
  unfold State.hostSwm; split <;> simp

@[simp] theorem State.hostMig_still (off v : Nat) (s : State) :
    Safety.still (State.hostMig off v s) = Safety.still s := by
  unfold State.hostMig; split <;> simp

@[simp] theorem State.putLimit_still (q v : Nat) (s : State) :
    Safety.still (State.putLimit q v s) = Safety.still s := by
  simp [State.putLimit]

@[simp] theorem State.hostMov_still (off v : Nat) (s : State) :
    Safety.still (State.hostMov off v s) = Safety.still s := by
  unfold State.hostMov; split <;> simp

@[simp] theorem State.hostChs_still (off v : Nat) (s : State) :
    Safety.still (State.hostChs off v s) = Safety.still s := by
  unfold State.hostChs; split <;> simp

@[simp] theorem State.remoteCommand_still (cmd : Nat) (s : State) :
    Safety.still (State.remoteCommand cmd s) = Safety.still s := by
  unfold State.remoteCommand; split <;> simp

@[simp] theorem State.hostFab_still (off v : Nat) (s : State) :
    Safety.still (State.hostFab off v s) = Safety.still s := by
  unfold State.hostFab; repeat' split
  all_goals simp

@[simp] theorem State.hostPmu_still (off v : Nat) (s : State) :
    Safety.still (State.hostPmu off v s) = Safety.still s := by
  unfold State.hostPmu; split <;> simp

@[simp] theorem State.easelPal_still (off v : Nat) (s : State) :
    Safety.still (State.easelPal off v s) = Safety.still s := by
  unfold State.easelPal; repeat' split
  all_goals simp

@[simp] theorem State.easelMov_still (sel off v : Nat) (s : State) :
    Safety.still (State.easelMov sel off v s) = Safety.still s := by
  unfold State.easelMov; repeat' split
  all_goals simp

@[simp] theorem State.easelPmu_still (off v : Nat) (s : State) :
    Safety.still (State.easelPmu off v s) = Safety.still s := by
  unfold State.easelPmu; split <;> simp

end Sys2Proof.Machine
end

