-- ==== Sys2Proof/Laws/StillEdgeEnd.lean ====
section
/-! SUPPORT. The operations of Machine/EdgeEnd.lean leave the queue, the Window's words, the flash and the debug registers alone. -/

namespace Sys2Proof.Machine

@[simp] theorem State.passOverruns_still (os : List (Nat × List Task)) (s : State) :
    Safety.still (State.passOverruns os s) = Safety.still s := by
  unfold State.passOverruns
  repeat' first
    | (simp; done)
    | with_reducible refine (ends_next _ _).2 ?_
    | with_reducible refine (onlyIf_still _ _ _ ?_).trans ?_
    | with_reducible refine (each_still _ _ _ (fun _ _ => ?_)).trans ?_
    | with_reducible refine (foldl_still _ _ _ (fun _ _ => ?_)).trans ?_
    | with_reducible refine (foldl_fst_still _ _ _ (fun _ _ => ?_)).trans ?_
    | with_reducible refine (foldl_snd_snd_still _ _ _ (fun _ _ => ?_)).trans ?_
    | with_reducible refine (foldl_snd_still _ _ _ (fun _ _ => ?_)).trans ?_
    | with_reducible refine (handTogether_still _ _ (fun _ => ?_)).trans ?_
    | dsimp only
    | split

@[simp] theorem State.latchStats_still (c : Nat) (s : State) :
    Safety.still (State.latchStats c s) = Safety.still s := by
  simp [State.latchStats]

@[simp] theorem State.commitTick_still (late had : Bool) (c : Nat) (s : State) :
    Safety.still (State.commitTick late had c s) = Safety.still s := by
  simp [State.commitTick]

@[simp] theorem State.trimUpdate_still (s : State) :
    Safety.still (State.trimUpdate s) = Safety.still s := by
  simp [State.trimUpdate]

@[simp] theorem State.endTick_still (draw : Half) (same : List Nat) (s : State) :
    Safety.still (State.endTick draw same s) = Safety.still s := by
  simp [State.endTick]

end Sys2Proof.Machine
end

