-- ==== Sys2Proof/Laws/StillEdgeMaps.lean ====
section
/-! SUPPORT. The operations of Machine/EdgeMaps.lean leave the queue, the Window's words, the flash and the debug registers alone. -/

namespace Sys2Proof.Machine

@[simp] theorem State.liftFences_still (s : State) :
    Safety.still (State.liftFences s) = Safety.still s := by
  simp [State.liftFences]

@[simp] theorem State.releasePanels_still (ms : List CMap) (s : State) :
    Safety.still (State.releasePanels ms s) = Safety.still s := by
  simp [State.releasePanels]

@[simp] theorem State.freeStreams_still (c : Nat) (s : State) :
    Safety.still (State.freeStreams c s) = Safety.still s := by
  simp [State.freeStreams]

@[simp] theorem State.dropFallback_still (c : Nat) (s : State) :
    Safety.still (State.dropFallback c s) = Safety.still s := by
  simp [State.dropFallback]

@[simp] theorem State.closeRelease_still (c : Nat) (s : State) :
    Safety.still (State.closeRelease c s) = Safety.still s := by
  simp [State.closeRelease]; repeat' split
  all_goals simp

@[simp] theorem State.takeMarks_still (s : State) :
    Safety.still (State.takeMarks s) = Safety.still s := by
  simp [State.takeMarks]

@[simp] theorem State.servePanels_still (s : State) :
    Safety.still (State.servePanels s) = Safety.still s := by
  simp [State.servePanels]

@[simp] theorem State.adopt_still (s : State) :
    Safety.still (State.adopt s) = Safety.still s := by
  unfold State.adopt
  repeat' first
    | (simp; done)
    | with_reducible refine (ends_next _ _).2 ?_
    | with_reducible refine (onlyIf_still _ _ _ ?_).trans ?_
    | with_reducible refine (each_still _ _ _ (fun _ _ => ?_)).trans ?_
    | with_reducible refine (foldl_still _ _ _ (fun _ _ => ?_)).trans ?_
    | with_reducible refine (foldl_fst_still _ _ _ (fun _ _ => ?_)).trans ?_
    | with_reducible refine (foldl_snd_snd_still _ _ _ (fun _ _ => ?_)).trans ?_
    | with_reducible refine (foldl_snd_still _ _ _ (fun _ _ => ?_)).trans ?_
    | with_reducible refine (handTogether_still _ _ (fun _ => ?_)).trans ?_
    | dsimp only
    | split

@[simp] theorem State.keepFrames_still (begun : Task → Bool) (c : Nat) (s : State) :
    Safety.still (State.keepFrames begun c s) = Safety.still s := by
  simp [State.keepFrames]

@[simp] theorem State.retouchEdge_still (c : Nat) (s : State) :
    Safety.still (State.retouchEdge c s) = Safety.still s := by
  unfold State.retouchEdge; split <;> simp

@[simp] theorem State.mapStreams_still (c : Nat) (m : CMap) (s : State) :
    Safety.still (State.mapStreams c m s) = Safety.still s := by
  simp [State.mapStreams]

@[simp] theorem State.fitRefs_still (c : Nat) (s : State) :
    Safety.still (State.fitRefs c s) = Safety.still s := by
  simp [State.fitRefs]

@[simp] theorem State.movePointer_still (isOld : Task → Bool) (c : Nat) (s : State) :
    Safety.still (State.movePointer isOld c s) = Safety.still s := by
  simp [State.movePointer]; repeat' split
  all_goals simp

@[simp] theorem State.releaseMap_still (c : Nat) (s : State) :
    Safety.still (State.releaseMap c s) = Safety.still s := by
  simp [State.releaseMap]

@[simp] theorem State.spareTakes_still (g : Nat) (r : Req) (s : State) :
    Safety.still (State.spareTakes g r s) = Safety.still s := by
  unfold State.spareTakes; split <;> simp

@[simp] theorem State.spareTakeover_still (g : Nat) (s : State) :
    Safety.still (State.spareTakeover g s) = Safety.still s := by
  simp [State.spareTakeover]

@[simp] theorem State.rewriteStreams_still (c : Nat) (s : State) :
    Safety.still (State.rewriteStreams c s) = Safety.still s := by
  simp [State.rewriteStreams]; repeat' split
  all_goals simp

@[simp] theorem State.renameBank_still (old new : Nat) (s : State) :
    Safety.still (State.renameBank old new s) = Safety.still s := by
  simp [State.renameBank]

@[simp] theorem State.replaceBank_still (b : Nat) (s : State) :
    Safety.still (State.replaceBank b s) = Safety.still s := by
  simp [State.replaceBank]; repeat' split
  all_goals simp

@[simp] theorem State.copyLines_still (b l b2 l2 n : Nat) (s : State) :
    Safety.still (State.copyLines b l b2 l2 n s) = Safety.still s := by
  simp [State.copyLines]

@[simp] theorem State.moveQueue_still (q : Nat) (s : State) :
    Safety.still (State.moveQueue q s) = Safety.still s := by
  simp [State.moveQueue]; repeat' split
  all_goals simp

@[simp] theorem State.trimEsets_still (s : State) :
    Safety.still (State.trimEsets s) = Safety.still s := by
  simp [State.trimEsets]

end Sys2Proof.Machine
end

