-- ==== Sys2Proof/Laws/StillEdge.lean ====
section
/-! SUPPORT. The operations of Machine/Edge.lean leave the queue, the Window's words, the flash and the debug registers alone. -/

namespace Sys2Proof.Machine

@[simp] theorem State.takeSettings_still (s : State) :
    Safety.still (State.takeSettings s) = Safety.still s := by
  simp [State.takeSettings]

@[simp] theorem State.tickResets_still (s : State) :
    Safety.still (State.tickResets s) = Safety.still s := by
  simp [State.tickResets]

@[simp] theorem State.dropLost_still (s : State) :
    Safety.still (State.dropLost s) = Safety.still s := by
  simp [State.dropLost]

@[simp] theorem State.loopResets_still (s : State) :
    Safety.still (State.loopResets s) = Safety.still s := by
  simp [State.loopResets]

@[simp] theorem State.reloadTokens_still (s : State) :
    Safety.still (State.reloadTokens s) = Safety.still s := by
  simp [State.reloadTokens]

@[simp] theorem State.carryParts_still (s : State) :
    Safety.still (State.carryParts s) = Safety.still s := by
  simp [State.carryParts]

@[simp] theorem State.edgeEffects_still (s : State) :
    Safety.still (State.edgeEffects s) = Safety.still s := by
  simp [State.edgeEffects]

@[simp] theorem State.forwardTick_still (s : State) :
    Safety.still (State.forwardTick s) = Safety.still s := by
  simp [State.forwardTick]

@[simp] theorem execSliceBoundary_still (s : State) :
    Safety.ends (execSliceBoundary s) (fun t => Safety.still t = Safety.still s) := by
  unfold execSliceBoundary
  repeat' first
    | (simp; done)
    | with_reducible refine (ends_next _ _).2 ?_
    | with_reducible refine (onlyIf_still _ _ _ ?_).trans ?_
    | with_reducible refine (each_still _ _ _ (fun _ _ => ?_)).trans ?_
    | with_reducible refine (foldl_still _ _ _ (fun _ _ => ?_)).trans ?_
    | with_reducible refine (foldl_fst_still _ _ _ (fun _ _ => ?_)).trans ?_
    | with_reducible refine (foldl_snd_snd_still _ _ _ (fun _ _ => ?_)).trans ?_
    | with_reducible refine (foldl_snd_still _ _ _ (fun _ _ => ?_)).trans ?_
    | with_reducible refine (handTogether_still _ _ (fun _ => ?_)).trans ?_
    | dsimp only
    | split

end Sys2Proof.Machine
end

