-- ==== Sys2Proof/Laws/StillPosting.lean ====
section
/-! SUPPORT. The operations of Machine/Posting.lean leave the queue, the Window's words, the flash and the debug registers alone. -/

namespace Sys2Proof.Machine

@[simp] theorem execCompletionPost_still (ring : Nat) (s : State) :
    Safety.ends (execCompletionPost ring s) (fun t => Safety.still t = Safety.still s) := by
  unfold execCompletionPost; split <;> simp

@[simp] theorem execEventRecordPost_still (s : State) :
    Safety.ends (execEventRecordPost s) (fun t => Safety.still t = Safety.still s) := by
  unfold execEventRecordPost; split <;> simp

end Sys2Proof.Machine
end

