-- ==== Sys2Proof/Laws/KeepBase.lean ====
section
/-! SUPPORT. What the operations keep that do write the Window, the Plan chest or the debug registers: the queue stays as it is, and
memories in canonical form and a consistent test port stay so. -/

namespace Sys2Proof.Machine

/-- The memories are in canonical form and the test port is consistent, said of what few rows touch. -/
def GoodStill (q : List Instr × SMap WWord × Flash × Debug) : Prop :=
  memWf ({} : WWord) q.2.1 = true ∧ Safety.FlashMem q.2.2.1 ∧ Safety.PortOk q.2.2.2

/-- The queue is the same, and what is good stays good. -/
def Keeps (q r : List Instr × SMap WWord × Flash × Debug) : Prop := r.1 = q.1 ∧ (GoodStill q → GoodStill r)

theorem goodStill_iff (s : State) : GoodStill (Safety.still s) ↔ Safety.MemInv s ∧ Safety.PortInv s := by
  simp [GoodStill, Safety.still, Safety.MemInv, Safety.PortInv, and_assoc]

@[simp] theorem keeps_refl (q : List Instr × SMap WWord × Flash × Debug) : Keeps q q := ⟨rfl, id⟩

theorem Keeps.trans {p q r : List Instr × SMap WWord × Flash × Debug} (h : Keeps p q) (k : Keeps q r) : Keeps p r :=
  ⟨k.1.trans h.1, fun g => k.2 (h.2 g)⟩

@[simp] theorem keeps_ite (c : Prop) [Decidable c] (q a b : List Instr × SMap WWord × Flash × Debug) :
    Keeps q (if c then a else b) ↔ (c → Keeps q a) ∧ (¬c → Keeps q b) := by
  by_cases h : c <;> simp [h]

variable {q : List Instr × SMap WWord × Flash × Debug}

@[simp] theorem onlyIf_keeps (b : Bool) (f : State → State) (s : State) (h : Keeps q (Safety.still s))
    (hf : Keeps q (Safety.still (f s))) : Keeps q (Safety.still (onlyIf b f s)) := by
  cases b <;> simp [onlyIf, h, hf]

@[simp] theorem each_keeps {α : Type} (xs : List α) (f : α → State → State) (s : State) (h : Keeps q (Safety.still s))
    (hf : ∀ x t, Keeps q (Safety.still t) → Keeps q (Safety.still (f x t))) : Keeps q (Safety.still (each xs f s)) := by
  induction xs generalizing s with
  | nil => exact h
  | cons x xs ih => exact ih (f x s) (hf x s h)

@[simp] theorem foldl_snd_keeps {α β : Type} (xs : List α) (f : β × State → α → β × State) (t : β × State)
    (h : Keeps q (Safety.still t.2)) (hf : ∀ t x, Keeps q (Safety.still t.2) → Keeps q (Safety.still (f t x).2)) :
    Keeps q (Safety.still (xs.foldl f t).2) := by
  induction xs generalizing t with
  | nil => exact h
  | cons x xs ih => exact ih (f t x) (hf t x h)

@[simp] theorem foldl_snd3_keeps {α β γ δ : Type} (xs : List α) (f : β × γ × δ × State → α → β × γ × δ × State)
    (t : β × γ × δ × State) (h : Keeps q (Safety.still t.2.2.2))
    (hf : ∀ t x, Keeps q (Safety.still t.2.2.2) → Keeps q (Safety.still (f t x).2.2.2)) :
    Keeps q (Safety.still (xs.foldl f t).2.2.2) := by
  induction xs generalizing t with
  | nil => exact h
  | cons x xs ih => exact ih (f t x) (hf t x h)

theorem State.command_keeps (p : Packet) (ok : Line → Bool) (body : Taken → State → State) (s : State)
    (h : Keeps q (Safety.still s)) (hb : ∀ t s, Keeps q (Safety.still s) → Keeps q (Safety.still (body t s))) :
    Keeps q (Safety.still (s.command p ok body)) := by
  have ht := State.take_still p ok s
  unfold State.command
  split <;> simp_all

theorem State.onCommit_keeps (v : Nat) (f : State → State) (s : State) (h : Keeps q (Safety.still s))
    (hf : Keeps q (Safety.still (f s))) : Keeps q (Safety.still (State.onCommit v f s)) := onlyIf_keeps _ _ _ h hf

theorem State.frame_keeps (kind vc : Nat) (w : Wrx) (body : State → State) (s : State) (h : Keeps q (Safety.still s))
    (hb : ∀ s, Keeps q (Safety.still s) → Keeps q (Safety.still (body s))) : Keeps q (Safety.still (s.frame kind vc w body)) := by
  unfold State.frame
  dsimp only
  split
  · exact h
  split
  · simpa using h
  split
  · simpa using h
  have hk : ∀ u, Safety.still u = Safety.still s → Keeps q (Safety.still (if w.dst = u.addr ∨ w.dst = 31 then body u else u)) := by
    intro u hu
    split
    · exact hb _ (by rw [hu]; exact h)
    · rw [hu]; exact h
  refine hk _ ?_
  split <;> simp

-- What each of the three does to its memory.

theorem onChest_keeps (f : Chest → Chest) (s : State) (h : Keeps q (Safety.still s))
    (hf : ∀ c, Safety.FlashMem c.flash → Safety.FlashMem (f c).flash) : Keeps q (Safety.still (s.onChest f)) :=
  ⟨h.1, fun g => ⟨(h.2 g).1, hf _ (h.2 g).2.1, (h.2 g).2.2⟩⟩

@[simp] theorem onFlash_keeps (f : Flash → Flash) (s : State) (h : Keeps q (Safety.still s))
    (hf : ∀ c, Safety.FlashMem c → Safety.FlashMem (f c)) : Keeps q (Safety.still (s.onFlash f)) :=
  onChest_keeps _ s h fun _ k => hf _ k

@[simp] theorem onDbg_keeps (f : Debug → Debug) (s : State) (h : Keeps q (Safety.still s))
    (hf : ∀ d, Safety.PortOk d → Safety.PortOk (f d)) : Keeps q (Safety.still (s.onDbg f)) :=
  ⟨h.1, fun g => ⟨(h.2 g).1, (h.2 g).2.1, hf _ (h.2 g).2.2⟩⟩

@[simp] theorem winStore_keeps (w : Nat) (v : WWord) (s : State) (h : Keeps q (Safety.still s)) :
    Keeps q (Safety.still (s.winStore w v)) :=
  ⟨h.1, fun g => ⟨put_memWf _ _ _ _ (h.2 g).1, (h.2 g).2⟩⟩

-- The memories of the Plan chest.

@[simp] theorem onBlocks_user (f : Flash) (bs : List Nat) (g : BlockInfo → BlockInfo) : (f.onBlocks bs g).user = f.user := (rfl)
@[simp] theorem onBlocks_sys (f : Flash) (bs : List Nat) (g : BlockInfo → BlockInfo) : (f.onBlocks bs g).sys = f.sys := (rfl)
@[simp] theorem onBlocks_slotA (f : Flash) (bs : List Nat) (g : BlockInfo → BlockInfo) : (f.onBlocks bs g).slotA = f.slotA := (rfl)
@[simp] theorem onBlocks_slotB (f : Flash) (bs : List Nat) (g : BlockInfo → BlockInfo) : (f.onBlocks bs g).slotB = f.slotB := (rfl)

@[simp] theorem rawEnd_flash (c : Chest) (a b : Nat) (d : Bool) : (c.rawEnd a b d).flash = c.flash := (rfl)
@[simp] theorem fillRaw_flash (c : Chest) (bs : List Byte) : (c.fillRaw bs).flash = c.flash := (rfl)
@[simp] theorem suspendQuad_flash (c : Chest) (n : Nat) : (c.suspendQuad n).flash = c.flash := (rfl)

@[simp] theorem flash_foldl_mem {α : Type} (xs : List α) (g : Flash → α → Flash) (f : Flash) (h : Safety.FlashMem f)
    (hg : ∀ f x, Safety.FlashMem f → Safety.FlashMem (g f x)) : Safety.FlashMem (xs.foldl g f) := by
  induction xs generalizing f with
  | nil => exact h
  | cons x xs ih => exact ih _ (hg f x h)

@[simp] theorem flashMem_mk (x0 : SMap Byte) (x1 : SMap Byte) (x2 : SMap Byte) (x3 : SMap Byte) (x4 : List Nat)
    (x5 : SMap (Nat × Nat × Nat)) (x6 : List Nat) (x7 : SMap BlockInfo) (x8 : SMap (List Byte)) (x9 : Nat) (x10 : Nat) (x11 : Nat)
    (x12 : Bool) (x13 : List Nat) (x14 : SMap Nat) (x15 : Nat) (x16 : SMap (Nat × Nat × Nat)) (x17 : Nat) (x18 : Nat)
    (x19 : List Nat) :
    Safety.FlashMem
      { user := x0, sys := x1, slotA := x2, slotB := x3, erasedA := x4, places := x5, lost := x6, blocks := x7, raw := x8, grown := x9,
        spare := x10, free := x11, seeded := x12, factory := x13, own := x14, seq := x15, meta_ := x16, journal := x17,
        checkpoints := x18, order := x19 } ↔
      Safety.ByteMem x0 ∧ Safety.ByteMem x1 ∧ Safety.ByteMem x2 ∧ Safety.ByteMem x3 := Iff.rfl

@[simp] theorem user_mem (f : Flash) (h : Safety.FlashMem f) : Safety.ByteMem f.user := h.1
@[simp] theorem sys_mem (f : Flash) (h : Safety.FlashMem f) : Safety.ByteMem f.sys := h.2.1
@[simp] theorem slotA_mem (f : Flash) (h : Safety.FlashMem f) : Safety.ByteMem f.slotA := h.2.2.1
@[simp] theorem slotB_mem (f : Flash) (h : Safety.FlashMem f) : Safety.ByteMem f.slotB := h.2.2.2
@[simp] theorem putBytes_mem (a : Nat) (bs : List Byte) (m : SMap Byte) (h : Safety.ByteMem m) : Safety.ByteMem (putBytes a bs m) :=
  putBytes_memWf a bs m h
@[simp] theorem filter_mem (p : Nat × Byte → Bool) (m : SMap Byte) (h : Safety.ByteMem m) : Safety.ByteMem (m.filter p) :=
  filter_memWf 0 p m h

@[simp] theorem onBlocks_mem (f : Flash) (bs : List Nat) (g : BlockInfo → BlockInfo) (h : Safety.FlashMem f) :
    Safety.FlashMem (f.onBlocks bs g) := h

@[simp] theorem journalled_mem (n : Nat) (f : Flash) (h : Safety.FlashMem f) : Safety.FlashMem (f.journalled n) := h
@[simp] theorem wipe_mem (bs : List Nat) (f : Flash) (h : Safety.FlashMem f) : Safety.FlashMem (f.wipe bs) := h
@[simp] theorem settleAt_mem (u : Nat) (p : Nat × Nat × Nat) (f : Flash) (h : Safety.FlashMem f) : Safety.FlashMem (f.settleAt u p) := h

@[simp] theorem retire_mem (u : Nat) (f : Flash) (h : Safety.FlashMem f) : Safety.FlashMem (f.retire u) := by
  unfold Flash.retire
  split <;> exact h

@[simp] theorem putUnit_mem (u : Nat) (data : List Byte) (f : Flash) (h : Safety.FlashMem f) : Safety.FlashMem (f.putUnit u data) := by
  unfold Flash.putUnit
  split
  · exact ⟨putBytes_memWf _ _ _ h.1, h.2⟩
  · exact ⟨h.1, putBytes_memWf _ _ _ h.2.1, h.2.2⟩

@[simp] theorem moveTo_mem (f : Flash) (us : List Nat) (set : Nat) (h : Safety.FlashMem f) : Safety.FlashMem (f.moveTo us set) :=
  onBlocks_mem _ _ _ (flash_foldl_mem _ _ f h fun f x k => settleAt_mem _ _ _ (retire_mem _ f k))

@[simp] theorem kept_flash (c : Chest) : c.kept.flash = c.flash := (rfl)

@[simp] theorem eraseBlock_mem (f : Flash) (b : Nat) (h : Safety.FlashMem f) : Safety.FlashMem (f.eraseBlock b) := by
  obtain ⟨h1, h2, h3, h4⟩ := h
  refine ⟨h1, h2, ?_, ?_⟩ <;> simp only [Flash.eraseBlock] <;> split
  · exact filter_memWf _ _ _ h3
  · exact h3
  · exact filter_memWf _ _ _ h4
  · exact h4

@[simp] theorem eraseSlot_mem (f : Flash) (second : Bool) (h : Safety.FlashMem f) : Safety.FlashMem (f.eraseSlot second) :=
  flash_foldl_mem _ _ f h fun f x k => by split <;> [exact k; exact eraseBlock_mem f x k]

@[simp] theorem slotProgram_mem (f : Flash) (second : Bool) (a : Nat) (data : List Byte) (h : Safety.FlashMem f) :
    Safety.FlashMem (f.slotProgram second a data) := by
  have k := flash_foldl_mem (List.range (ceilDiv data.length 4096)) (fun (f : Flash) k =>
    f.onBlocks [f.slotBlk second (a + 4096 * k)] (fun x => { x with pages := x.pages ++ [(a + 4096 * k) % 262144 / 4096] })) f h
    fun _ _ k => k
  unfold Flash.slotProgram
  dsimp only
  split
  · exact ⟨k.1, k.2.1, k.2.2.1, putBytes_memWf _ _ _ k.2.2.2⟩
  · exact ⟨k.1, k.2.1, putBytes_memWf _ _ _ k.2.2.1, k.2.2.2⟩

end Sys2Proof.Machine
end

