-- ==== Sys2Proof/Laws/KeepChest.lean ====
section
/-! SUPPORT. What the operations of Machine/Chest.lean that write a memory or the debug registers keep. -/

namespace Sys2Proof.Machine

variable {q : List Instr × SMap WWord × Flash × Debug}

@[simp] theorem State.countPages_keeps (bs : List Nat) (s : State) (h : Keeps q (Safety.still s)) :
    Keeps q (Safety.still (State.countPages bs s)) := by
  unfold State.countPages
  dsimp only
  rw [each_still _ _ _ (fun _ s => State.queueReloc_still _ _ s)]
  exact onFlash_keeps _ s h fun _ k => k

@[simp] theorem State.countUnit_keeps (u : Nat) (s : State) (h : Keeps q (Safety.still s)) :
    Keeps q (Safety.still (State.countUnit u s)) := by
  unfold State.countUnit
  repeat' first
    | (simp +contextual [*]; done)
    | with_reducible refine State.countPages_keeps _ _ ?_
    | dsimp only
    | split

@[simp] theorem State.chestClear_keeps (addr n : Nat) (s : State) (h : Keeps q (Safety.still s)) :
    Keeps q (Safety.still (State.chestClear addr n s)) := by
  exact onChest_keeps _ s h fun c k => by
    have k1 := flash_foldl_mem (List.filter (fun u => c.flash.places.any (fun p => p.1 == u)) ((List.range ((addr + n + unitBytes - 1) / unitBytes - addr / unitBytes)).map (fun i => addr / unitBytes + i)))
      (fun f u => f.retire u) c.flash k fun f x k => retire_mem x f k
    exact ⟨filter_memWf _ _ _ k1.1, k1.2⟩

@[simp] theorem State.growBad_keeps (bs : List Nat) (s : State) (h : Keeps q (Safety.still s)) :
    Keeps q (Safety.still (State.growBad bs s)) := by
  unfold State.growBad
  rw [State.spareCheck_still]
  exact onFlash_keeps _ s h fun f k => k

@[simp] theorem State.chestWriteDone_keeps (quad blockSet page : Nat) (failed : List Nat) (s : State) (h : Keeps q (Safety.still s)) :
    Keeps q (Safety.still (State.chestWriteDone quad blockSet page failed s)) := by
  unfold State.chestWriteDone
  split
  · exact h
  refine onlyIf_keeps _ _ _ h ?_
  dsimp only
  obtain ⟨s1, e⟩ : ∃ s1, s1 = s.onFlash (fun f => { f.onBlocks (setBlocks quad blockSet) (fun b => { b with pages := b.pages ++ [page] }) with
      free := if (s.chest.flash.block ((setBlocks quad blockSet).headD 0)).pages.isEmpty = true then f.free - 4 else f.free }) := ⟨_, rfl⟩
  have h1 : Keeps q (Safety.still s1) := by rw [e]; exact onFlash_keeps _ s h fun _ k => k
  rw [← e]
  clear e
  rename_i w rest _
  obtain ⟨s2, e⟩ : ∃ s2, s2 = (if w.whole = true then s1 else s1.countUnit w.unit) := ⟨_, rfl⟩
  have h2 : Keeps q (Safety.still s2) := by
    rw [e]; split
    · exact h1
    · exact State.countUnit_keeps _ _ h1
  rw [← e]
  clear e
  split
  · exact onChest_keeps _ _ h2 fun c k => settleAt_mem w.unit (quad, blockSet, page) _ (putUnit_mem _ _ _ (retire_mem _ _ k))
  · exact onChest_keeps _ _ (State.growBad_keeps _ _ h2) fun _ k => k

@[simp] theorem State.loseUnit_keeps (u quad bs : Nat) (blocks : List Nat) (s : State) (h : Keeps q (Safety.still s)) :
    Keeps q (Safety.still (State.loseUnit u quad bs blocks s)) := by
  unfold State.loseUnit
  rw [State.queueReloc_still]
  refine State.growBad_keeps _ _ (onFlash_keeps _ _ ?_ fun _ k => ?_)
  · rw [State.uncorrectable_still]; exact h
  · split <;> exact k

@[simp] theorem State.readAt_keeps (u g bs : Nat) (f : ReadFinding) (s : State) (h : Keeps q (Safety.still s)) :
    Keeps q (Safety.still (State.readAt u g bs f s)) := by
  unfold State.readAt
  dsimp only
  have h1 : Keeps q (Safety.still ((s.countRead f).countPages (setBlocks g bs))) :=
    State.countPages_keeps _ _ (by rw [State.countRead_still]; exact h)
  split
  · exact State.loseUnit_keeps _ _ _ _ _ h1
  split
  · rw [State.queueReloc_still]; exact h1
  · exact h1

@[simp] theorem State.readUnit_keeps (u : Nat) (f : ReadFinding) (s : State) (h : Keeps q (Safety.still s)) :
    Keeps q (Safety.still (State.readUnit u f s)) := by
  unfold State.readUnit
  split
  · simpa using h
  split
  · exact h
  · exact State.readAt_keeps _ _ _ _ _ (by simpa using h)

@[simp] theorem execChestRead_keeps (addr : Nat) (sys : Bool) (find : ReadFinding) (s : State) (h : Keeps q (Safety.still s)) :
    Safety.ends (execChestRead addr sys find s) (fun t => Keeps q (Safety.still t)) := by
  simp [execChestRead, h]

@[simp] theorem State.relocReads_keeps (us : List Nat) (set : Nat) (finds : List ReadFinding) (s : State) (h : Keeps q (Safety.still s)) :
    Keeps q (Safety.still (State.relocReads us set finds s)) := by
  exact each_keeps _ _ _ h fun x t k => State.readAt_keeps _ _ _ _ _ k

@[simp] theorem State.relocate_keeps (set kind : Nat) (finds : List ReadFinding) (s : State) (h : Keeps q (Safety.still s)) :
    Keeps q (Safety.still (State.relocate set kind finds s)) := by
  unfold State.relocate
  dsimp only
  split
  · exact h
  · refine onlyIf_keeps _ _ _ h (onChest_keeps _ _ (onFlash_keeps _ _ (State.relocReads_keeps _ _ _ _ h) fun f k => ?_) fun c k => ?_)
    · exact flash_foldl_mem _ _ _ (moveTo_mem f _ _ k) fun f x k => retire_mem x f k
    · split <;> exact k

@[simp] theorem State.levelWear_keeps (set : Nat) (finds : List ReadFinding) (s : State) (h : Keeps q (Safety.still s)) :
    Keeps q (Safety.still (State.levelWear set finds s)) := by
  unfold State.levelWear
  dsimp only
  split
  · rename_i u _ _ _ _ _
    have h1 := State.relocReads_keeps [u] set finds s h
    split
    · exact h1
    · exact onFlash_keeps _ _ h1 fun f k => moveTo_mem f _ _ k
  · exact onlyIf_keeps _ _ _ h (onChest_keeps _ s h fun c k => k)

@[simp] theorem execRelocation_keeps (blockSet : Nat) (finds : List ReadFinding) (s : State) (h : Keeps q (Safety.still s)) :
    Safety.ends (execRelocation blockSet finds s) (fun t => Keeps q (Safety.still t)) := by
  unfold execRelocation
  repeat' first
    | (simp +contextual [*]; done)
    | with_reducible refine State.levelWear_keeps _ _ _ ?_
    | with_reducible refine State.relocate_keeps _ _ _ _ ?_
    | with_reducible refine (ends_next _ _).2 ?_
    | with_reducible exact ends_fault _ _
    | with_reducible refine onlyIf_keeps _ _ _ ?_ ?_
    | dsimp only
    | split

@[simp] theorem execBlockEraseDone_keeps (blockSet : Nat) (failed : List Nat) (s : State) (h : Keeps q (Safety.still s)) :
    Safety.ends (execBlockEraseDone blockSet failed s) (fun t => Keeps q (Safety.still t)) := by
  refine (ends_next _ _).2 (onlyIf_keeps _ _ _ h ?_)
  dsimp only
  have h1 : Keeps q (Safety.still ((s.onChest (fun c => { c with busy := c.busy.filter (fun p => p / 4 != blockSet / 2560) })).onFlash
      (fun f => (f.wipe (setBlocks (blockSet / 2560) (blockSet % 2560))).onBlocks (setBlocks (blockSet / 2560) (blockSet % 2560))
        (fun b => { b with erases := b.erases + 1, reads := 0, pages := [] })))) :=
    onFlash_keeps _ _ (by simpa using h) fun _ k => k
  split
  · exact onFlash_keeps _ _ h1 fun _ k => k
  · exact State.growBad_keeps _ _ h1

@[simp] theorem State.losePage_keeps (b page : Nat) (s : State) (h : Keeps q (Safety.still s)) :
    Keeps q (Safety.still (State.losePage b page s)) := by
  unfold State.losePage
  split
  · exact State.loseUnit_keeps _ _ _ _ _ h
  split
  · simpa using h
  · rw [State.queueReloc_still]
    exact State.growBad_keeps _ _ (by simpa using h)

@[simp] theorem execRefreshScan_keeps (find : ReadFinding) (s : State) (h : Keeps q (Safety.still s)) :
    Safety.ends (execRefreshScan find s) (fun t => Keeps q (Safety.still t)) := by
  refine (ends_next _ _).2 (onlyIf_keeps _ _ _ h ?_)
  split
  · exact h
  rename_i n _
  dsimp only
  have h1 : Keeps q (Safety.still (((s.onChest (fun c => { c with scan := n })).countRead find).countPages [n / 64])) :=
    State.countPages_keeps _ _ (by simpa using h)
  repeat' split
  · exact State.losePage_keeps _ _ _ h1
  · rw [State.queueReloc_still]; exact h1
  · exact h1

@[simp] theorem execXipFetch_keeps (addr lat : Nat) (busy : Bool) (s : State) (h : Keeps q (Safety.still s)) :
    Safety.ends (execXipFetch addr lat busy s) (fun t => Keeps q (Safety.still t)) := by
  simp [execXipFetch, h]

@[simp] theorem State.chestRaw1_keeps (f : ReadFinding) (s : State) (h : Keeps q (Safety.still s)) :
    Keeps q (Safety.still (State.chestRaw1 f s)) := by
  unfold State.chestRaw1
  dsimp only
  have h1 : Keeps q (Safety.still ((s.countRead f).countPages [s.chest.rawBlk])) :=
    State.countPages_keeps _ _ (by rw [State.countRead_still]; exact h)
  split
  · exact onChest_keeps _ _ (State.losePage_keeps _ _ _ h1) fun _ k => k
  · exact onChest_keeps _ _ h1 fun _ k => k

@[simp] theorem State.chestRaw2_keeps (s : State) (h : Keeps q (Safety.still s)) :
    Keeps q (Safety.still (State.chestRaw2 s)) := by
  simp [State.chestRaw2, h]

@[simp] theorem State.chestRaw3_keeps (ctx : Nat) (verified : Bool) (s : State) (h : Keeps q (Safety.still s)) :
    Keeps q (Safety.still (State.chestRaw3 ctx verified s)) := by
  unfold State.chestRaw3
  dsimp only
  split
  · simpa using h
  split
  · simpa using h
  split
  · simpa using h
  split <;> refine onChest_keeps _ _ ?_ fun _ k => k
  · refine onFlash_keeps _ s h fun f k => ?_
    split
    · split <;> simp only [flashMem_mk]
      · exact ⟨k.1, k.2.1, putBytes_mem _ _ _ k.2.2.1, k.2.2.2⟩
      · exact ⟨k.1, k.2.1, k.2.2.1, putBytes_mem _ _ _ k.2.2.2⟩
    · exact k
  · refine State.growBad_keeps _ _ (onFlash_keeps _ s h fun f k => ?_)
    split
    · split <;> simp only [flashMem_mk]
      · exact ⟨k.1, k.2.1, putBytes_mem _ _ _ k.2.2.1, k.2.2.2⟩
      · exact ⟨k.1, k.2.1, k.2.2.1, putBytes_mem _ _ _ k.2.2.2⟩
    · exact k

@[simp] theorem State.chestRaw4_keeps (ctx : Nat) (verified : Bool) (s : State) (h : Keeps q (Safety.still s)) :
    Keeps q (Safety.still (State.chestRaw4 ctx verified s)) := by
  unfold State.chestRaw4
  repeat' first
    | (simp +contextual [*]; done)
    | with_reducible refine State.growBad_keeps _ _ ?_
    | with_reducible refine onFlash_keeps _ _ ?_ ?_
    | dsimp only
    | split
    | simp [*]

@[simp] theorem State.chestRaw5_keeps (bits : List Nat) (s : State) (h : Keeps q (Safety.still s)) :
    Keeps q (Safety.still (State.chestRaw5 bits s)) := by
  simp [State.chestRaw5, h]

@[simp] theorem execRead_keeps (find : ReadFinding) (s : State) (h : Keeps q (Safety.still s)) :
    Safety.ends (execRead find s) (fun t => Keeps q (Safety.still t)) := by
  simp [execRead, h]

@[simp] theorem execReadRaw_keeps (s : State) (h : Keeps q (Safety.still s)) :
    Safety.ends (execReadRaw s) (fun t => Keeps q (Safety.still t)) := by
  simp [execReadRaw, h]

@[simp] theorem execProgram_keeps (verified : Bool) (s : State) (h : Keeps q (Safety.still s)) :
    Safety.ends (execProgram verified s) (fun t => Keeps q (Safety.still t)) := by
  simp [execProgram, h]

@[simp] theorem execErase_keeps (verified : Bool) (s : State) (h : Keeps q (Safety.still s)) :
    Safety.ends (execErase verified s) (fun t => Keeps q (Safety.still t)) := by
  simp [execErase, h]

@[simp] theorem execBlankCheck_keeps (programmedBits : List Nat) (s : State) (h : Keeps q (Safety.still s)) :
    Safety.ends (execBlankCheck programmedBits s) (fun t => Keeps q (Safety.still t)) := by
  simp [execBlankCheck, h]

@[simp] theorem State.chsCommit_keeps (s : State) (h : Keeps q (Safety.still s)) :
    Keeps q (Safety.still (State.chsCommit s)) := by
  unfold State.chsCommit
  repeat' first
    | (simp +contextual [*]; done)
    | with_reducible refine State.service_keeps _ _ ?_
    | with_reducible refine onFlash_keeps _ _ ?_ ?_
    | with_reducible refine foldl_snd_keeps _ _ _ ?_ (fun _ _ _ => ?_)
    | with_reducible refine foldl_snd3_keeps _ _ _ ?_ (fun _ _ _ => ?_)
    | dsimp only
    | split

@[simp] theorem execChsCommit_keeps (s : State) (h : Keeps q (Safety.still s)) :
    Safety.ends (execChsCommit s) (fun t => Keeps q (Safety.still t)) := by
  simp [execChsCommit, h]

end Sys2Proof.Machine
end

