-- ==== Sys2Proof/Laws/KeepWindow.lean ====
section
/-! SUPPORT. What the operations of Machine/Window.lean that write a memory or the debug registers keep. -/

namespace Sys2Proof.Machine

variable {q : List Instr × SMap WWord × Flash × Debug}

@[simp] theorem State.winPut_keeps (w : Nat) (d : DWord) (s : State) (h : Keeps q (Safety.still s)) :
    Keeps q (Safety.still (State.winPut w d s)) := by
  simp [State.winPut, h]

@[simp] theorem State.winRead_keeps (w : Nat) (s : State) (h : Keeps q (Safety.still s)) :
    Keeps q (Safety.still (State.winRead w s).2.2) := by
  unfold State.winRead
  repeat' first
    | (simp +contextual [*]; done)
    | with_reducible refine State.winPut_keeps _ _ _ ?_
    | dsimp only
    | split

@[simp] theorem State.winMerge_keeps (w : Nat) (bs : List (Option Byte)) (s : State) (h : Keeps q (Safety.still s)) :
    Keeps q (Safety.still (State.winMerge w bs s)) := by
  unfold State.winMerge
  repeat' first
    | (simp +contextual [*]; done)
    | with_reducible refine State.winRead_keeps _ _ ?_
    | with_reducible refine winStore_keeps _ _ _ ?_
    | dsimp only
    | split

@[simp] theorem State.winB_keeps (b : PortB) (s : State) (h : Keeps q (Safety.still s)) :
    Keeps q (Safety.still (State.winB b s)) := by
  unfold State.winB
  repeat' first
    | (simp +contextual [*]; done)
    | with_reducible refine State.winPut_keeps _ _ _ ?_
    | with_reducible refine State.winRead_keeps _ _ ?_
    | dsimp only
    | split

@[simp] theorem State.winReadA_keeps (off n : Nat) (bs : List PortB) (s : State) (h : Keeps q (Safety.still s)) :
    Keeps q (Safety.still (State.winReadA off n bs s).2.2) := by
  unfold State.winReadA
  repeat' first
    | (simp +contextual [*]; done)
    | with_reducible refine State.winB_keeps _ _ ?_
    | with_reducible refine State.winRead_keeps _ _ ?_
    | with_reducible refine each_keeps _ _ _ ?_ (fun _ _ _ => ?_)
    | with_reducible refine foldl_snd_keeps _ _ _ ?_ (fun _ _ _ => ?_)
    | with_reducible refine foldl_snd3_keeps _ _ _ ?_ (fun _ _ _ => ?_)
    | dsimp only
    | simp [*]
    | split

@[simp] theorem State.winWriteA_keeps (off : Nat) (data : List Byte) (bs : List PortB) (s : State) (h : Keeps q (Safety.still s)) :
    Keeps q (Safety.still (State.winWriteA off data bs s).2) := by
  unfold State.winWriteA
  repeat' first
    | (simp +contextual [*]; done)
    | with_reducible refine State.winB_keeps _ _ ?_
    | with_reducible refine State.winMerge_keeps _ _ _ ?_
    | with_reducible refine each_keeps _ _ _ ?_ (fun _ _ _ => ?_)
    | with_reducible refine foldl_snd_keeps _ _ _ ?_ (fun _ _ _ => ?_)
    | with_reducible refine foldl_snd3_keeps _ _ _ ?_ (fun _ _ _ => ?_)
    | dsimp only
    | simp [*]
    | split

end Sys2Proof.Machine
end

