-- ==== Sys2Proof/Laws/KeepLink.lean ====
section
/-! SUPPORT. What the operations of Machine/Link.lean that write a memory or the debug registers keep. -/

namespace Sys2Proof.Machine

variable {q : List Instr × SMap WWord × Flash × Debug}

@[simp] theorem State.urgBit_keeps (n : Nat) (s : State) (h : Keeps q (Safety.still s)) :
    Keeps q (Safety.still (State.urgBit n s)) := by
  simp [State.urgBit, h]

@[simp] theorem State.urgDb_keeps (mask : Half) (s : State) (h : Keeps q (Safety.still s)) :
    Keeps q (Safety.still (State.urgDb mask s)) := by
  unfold State.urgDb
  repeat' first
    | (simp +contextual [*]; done)
    | with_reducible refine State.urgBit_keeps _ _ ?_
    | with_reducible refine each_keeps _ _ _ ?_ (fun _ _ _ => ?_)
    | dsimp only
    | split

@[simp] theorem execHlkUrgDb_keeps (mask : Half) (s : State) (h : Keeps q (Safety.still s)) :
    Safety.ends (execHlkUrgDb mask s) (fun t => Keeps q (Safety.still t)) := by
  simp [execHlkUrgDb, h]

@[simp] theorem State.postUrgent_keeps (n : Nat) (slot : Line) (s : State) (h : Keeps q (Safety.still s)) :
    Keeps q (Safety.still (State.postUrgent n slot s)) := by
  unfold State.postUrgent
  repeat' first
    | (simp +contextual [*]; done)
    | with_reducible refine State.winPut_keeps _ _ _ ?_
    | with_reducible refine each_keeps _ _ _ ?_ (fun _ _ _ => ?_)
    | dsimp only
    | split

@[simp] theorem State.flushUrgent_keeps (s : State) (h : Keeps q (Safety.still s)) :
    Keeps q (Safety.still (State.flushUrgent s)) := by
  unfold State.flushUrgent
  repeat' first
    | (simp +contextual [*]; done)
    | with_reducible refine State.postUrgent_keeps _ _ _ ?_
    | with_reducible refine each_keeps _ _ _ ?_ (fun _ _ _ => ?_)
    | dsimp only
    | split

end Sys2Proof.Machine
end

