-- ==== Sys2Proof/Laws/KeepCommands.lean ====
section
/-! SUPPORT. What the operations of Machine/Commands.lean that write a memory or the debug registers keep. -/

namespace Sys2Proof.Machine

variable {q : List Instr × SMap WWord × Flash × Debug}

@[simp] theorem State.urgentAbort_keeps (n : Nat) (s : State) (h : Keeps q (Safety.still s)) :
    Keeps q (Safety.still (State.urgentAbort n s)) := by
  unfold State.urgentAbort
  repeat' first
    | (simp +contextual [*]; done)
    | with_reducible refine State.flushUrgent_keeps _ ?_
    | with_reducible refine State.winRead_keeps _ _ ?_
    | with_reducible refine foldl_snd_keeps _ _ _ ?_ (fun _ _ _ => ?_)
    | with_reducible refine foldl_snd3_keeps _ _ _ ?_ (fun _ _ _ => ?_)
    | dsimp only
    | split

@[simp] theorem execAbort_keeps (p : Packet) (urgent : Option Nat) (s : State) (h : Keeps q (Safety.still s)) :
    Safety.ends (execAbort p urgent s) (fun t => Keeps q (Safety.still t)) := by
  unfold execAbort
  repeat' first
    | (simp +contextual [*]; done)
    | with_reducible refine State.urgentAbort_keeps _ _ ?_
    | with_reducible refine (ends_next _ _).2 ?_
    | with_reducible exact ends_fault _ _
    | with_reducible refine onlyIf_keeps _ _ _ ?_ ?_
    | dsimp only
    | split

@[simp] theorem State.abortDone_keeps (ctx : Nat) (s : State) (h : Keeps q (Safety.still s)) :
    Keeps q (Safety.still (State.abortDone ctx s)) := by
  simp [State.abortDone, h]

@[simp] theorem execAbortCompletion_keeps (ctx : Nat) (s : State) (h : Keeps q (Safety.still s)) :
    Safety.ends (execAbortCompletion ctx s) (fun t => Keeps q (Safety.still t)) := by
  simp [execAbortCompletion, h]

end Sys2Proof.Machine
end

