-- ==== Sys2Proof/Laws/KeepObjects.lean ====
section
/-! SUPPORT. What the operations of Machine/Objects.lean that write a memory or the debug registers keep. -/

namespace Sys2Proof.Machine

variable {q : List Instr × SMap WWord × Flash × Debug}

@[simp] theorem State.clearHome_keeps (b : Obj) (s : State) (h : Keeps q (Safety.still s)) :
    Keeps q (Safety.still (State.clearHome b s)) := by
  unfold State.clearHome
  dsimp only
  split
  · exact State.chestClear_keeps _ _ _ h
  · generalize List.replicate 16384 (0 : Byte) = z
    simpa using h
  · exact h

@[simp] theorem State.objUndefine_keeps (t : Taken) (s : State) (h : Keeps q (Safety.still s)) :
    Keeps q (Safety.still (State.objUndefine t s)) := by
  unfold State.objUndefine
  repeat' first
    | (simp +contextual [*]; done)
    | with_reducible refine State.clearHome_keeps _ _ ?_
    | dsimp only
    | split

@[simp] theorem execObjDefineUndef_keeps (p : Packet) (s : State) (h : Keeps q (Safety.still s)) :
    Safety.ends (execObjDefineUndef p s) (fun t => Keeps q (Safety.still t)) := by
  unfold execObjDefineUndef
  repeat' first
    | (simp +contextual [*]; done)
    | with_reducible refine State.objUndefine_keeps _ _ ?_
    | with_reducible refine State.command_keeps _ _ _ _ ?_ (fun _ _ _ => ?_)
    | with_reducible refine (ends_next _ _).2 ?_
    | with_reducible exact ends_fault _ _
    | dsimp only
    | split

end Sys2Proof.Machine
end

