-- ==== Sys2Proof/Laws/KeepPower.lean ====
section
/-! SUPPORT. What the operations of Machine/Power.lean that write a memory or the debug registers keep. -/

namespace Sys2Proof.Machine

variable {q : List Instr × SMap WWord × Flash × Debug}

@[simp] theorem State.drainUrgent_keeps (s : State) (h : Keeps q (Safety.still s)) :
    Keeps q (Safety.still (State.drainUrgent s)) := by
  unfold State.drainUrgent
  repeat' first
    | (simp +contextual [*]; done)
    | with_reducible refine State.abortDone_keeps _ _ ?_
    | with_reducible refine State.urgentAbort_keeps _ _ ?_
    | with_reducible refine each_keeps _ _ _ ?_ (fun _ _ _ => ?_)
    | dsimp only
    | split

@[simp] theorem State.powerEnter_keeps (s : State) (h : Keeps q (Safety.still s)) :
    Keeps q (Safety.still (State.powerEnter s)) := by
  unfold State.powerEnter
  split
  · exact h
  split
  · exact h
  rename_i st c _ _
  dsimp only
  have h1 : ∀ u, Safety.still u = Safety.still s → Keeps q (Safety.still (if (!u.chest.buffer.isEmpty || u.writingBack) = true then u else
      ((if 2 ≤ st then (if st = 4 then u.drainUrgent.onFlash (fun f => { f with checkpoints := f.checkpoints + 1 }) else u.drainUrgent).darken st
        else (if st = 4 then u.drainUrgent.onFlash (fun f => { f with checkpoints := f.checkpoints + 1 }) else u.drainUrgent)).complete c 0 st 0 []).sleep st)) := by
    intro u hu
    have hd : Keeps q (Safety.still u.drainUrgent) := State.drainUrgent_keeps u (by rw [hu]; exact h)
    have hf : Keeps q (Safety.still (if st = 4 then u.drainUrgent.onFlash (fun f => { f with checkpoints := f.checkpoints + 1 }) else u.drainUrgent)) := by
      split
      · exact onFlash_keeps _ _ hd fun _ k => k
      · exact hd
    split
    · rw [hu]; exact h
    · rw [State.sleep_still, State.complete_still]
      split
      · rw [State.darken_still]; exact hf
      · exact hf
  refine h1 _ ?_
  split
  · rw [State.savePanels_still, State.dropCopies_still, State.saveTrims_still]
    refine each_still _ _ _ fun x s => ?_
    split <;> simp
  · rw [State.saveTrims_still]
    refine each_still _ _ _ fun x s => ?_
    split <;> simp

@[simp] theorem State.power__keeps (t : Taken) (s : State) (h : Keeps q (Safety.still s)) :
    Keeps q (Safety.still (State.power_ t s)) := by
  simp [State.power_, h]

@[simp] theorem execPowerActive_keeps (p : Packet) (s : State) (h : Keeps q (Safety.still s)) :
    Safety.ends (execPowerActive p s) (fun t => Keeps q (Safety.still t)) := by
  unfold execPowerActive
  repeat' first
    | (simp +contextual [*]; done)
    | with_reducible refine State.power__keeps _ _ ?_
    | with_reducible refine State.command_keeps _ _ _ _ ?_ (fun _ _ _ => ?_)
    | with_reducible refine (ends_next _ _).2 ?_
    | with_reducible exact ends_fault _ _
    | dsimp only
    | split

@[simp] theorem execPowerHold_keeps (p : Packet) (s : State) (h : Keeps q (Safety.still s)) :
    Safety.ends (execPowerHold p s) (fun t => Keeps q (Safety.still t)) := by
  unfold execPowerHold
  repeat' first
    | (simp +contextual [*]; done)
    | with_reducible refine State.power__keeps _ _ ?_
    | with_reducible refine State.command_keeps _ _ _ _ ?_ (fun _ _ _ => ?_)
    | with_reducible refine (ends_next _ _).2 ?_
    | with_reducible exact ends_fault _ _
    | dsimp only
    | split

@[simp] theorem execPowerDoze_keeps (p : Packet) (s : State) (h : Keeps q (Safety.still s)) :
    Safety.ends (execPowerDoze p s) (fun t => Keeps q (Safety.still t)) := by
  unfold execPowerDoze
  repeat' first
    | (simp +contextual [*]; done)
    | with_reducible refine State.power__keeps _ _ ?_
    | with_reducible refine State.command_keeps _ _ _ _ ?_ (fun _ _ _ => ?_)
    | with_reducible refine (ends_next _ _).2 ?_
    | with_reducible exact ends_fault _ _
    | dsimp only
    | split

@[simp] theorem execPowerRest_keeps (p : Packet) (s : State) (h : Keeps q (Safety.still s)) :
    Safety.ends (execPowerRest p s) (fun t => Keeps q (Safety.still t)) := by
  unfold execPowerRest
  repeat' first
    | (simp +contextual [*]; done)
    | with_reducible refine State.power__keeps _ _ ?_
    | with_reducible refine State.command_keeps _ _ _ _ ?_ (fun _ _ _ => ?_)
    | with_reducible refine (ends_next _ _).2 ?_
    | with_reducible exact ends_fault _ _
    | dsimp only
    | split

@[simp] theorem execPowerOff_keeps (p : Packet) (s : State) (h : Keeps q (Safety.still s)) :
    Safety.ends (execPowerOff p s) (fun t => Keeps q (Safety.still t)) := by
  unfold execPowerOff
  repeat' first
    | (simp +contextual [*]; done)
    | with_reducible refine State.power__keeps _ _ ?_
    | with_reducible refine State.command_keeps _ _ _ _ ?_ (fun _ _ _ => ?_)
    | with_reducible refine (ends_next _ _).2 ?_
    | with_reducible exact ends_fault _ _
    | dsimp only
    | split

@[simp] theorem execProgramComplete_keeps (group : Nat) (good : Bool) (pulses : BitVec 4) (time : Half) (refs : List (List (Byte × Byte))) (s : State) (h : Keeps q (Safety.still s)) :
    Safety.ends (execProgramComplete group good pulses time refs s) (fun t => Keeps q (Safety.still t)) := by
  simp [execProgramComplete, h]

@[simp] theorem execChestWriteDone_keeps (quad blockSet page : Nat) (failed : List Nat) (s : State) (h : Keeps q (Safety.still s)) :
    Safety.ends (execChestWriteDone quad blockSet page failed s) (fun t => Keeps q (Safety.still t)) := by
  unfold execChestWriteDone
  repeat' first
    | (simp +contextual [*]; done)
    | with_reducible refine State.powerEnter_keeps _ ?_
    | with_reducible refine State.chestWriteDone_keeps _ _ _ _ _ ?_
    | with_reducible refine (ends_next _ _).2 ?_
    | with_reducible exact ends_fault _ _
    | with_reducible refine onlyIf_keeps _ _ _ ?_ ?_
    | dsimp only
    | split

@[simp] theorem execWritebackDone_keeps (obj idx : Nat) (s : State) (h : Keeps q (Safety.still s)) :
    Safety.ends (execWritebackDone obj idx s) (fun t => Keeps q (Safety.still t)) := by
  simp [execWritebackDone, h]

end Sys2Proof.Machine
end

