-- ==== Sys2Proof/Laws/KeepBoot.lean ====
section
/-! SUPPORT. What the operations of Machine/Boot.lean that write a memory or the debug registers keep. -/

namespace Sys2Proof.Machine

variable {q : List Instr × SMap WWord × Flash × Debug}

@[simp] theorem State.internalReset_keeps (cause : BitVec 3) (s : State) (h : Keeps q (Safety.still s)) :
    Keeps q (Safety.still (State.internalReset cause s)) := by
  unfold State.internalReset
  rw [State.trainAtStart_still]
  exact ⟨h.1, fun g => ⟨rfl, (h.2 g).2.1, (h.2 g).2.2⟩⟩

@[simp] theorem execColdReset_keeps (rstAsserted pwrGood : Bool) (s : State) (h : Keeps q (Safety.still s)) :
    Safety.ends (execColdReset rstAsserted pwrGood s) (fun t => Keeps q (Safety.still t)) := by
  refine (ends_next _ _).2 (onlyIf_keeps _ _ _ h ⟨h.1, fun g => ⟨rfl, (h.2 g).2.1, ?_⟩⟩)
  cases pwrGood
  · exact ⟨rfl, fun _ => rfl⟩
  · exact (h.2 g).2.2

@[simp] theorem execWatchdogExpiry_keeps (s : State) (h : Keeps q (Safety.still s)) :
    Safety.ends (execWatchdogExpiry s) (fun t => Keeps q (Safety.still t)) := by
  simp [execWatchdogExpiry, h]

@[simp] theorem State.seedChest_keeps (s : State) (h : Keeps q (Safety.still s)) :
    Keeps q (Safety.still (State.seedChest s)) := by
  exact onFlash_keeps _ s h fun f k => by split <;> exact k

@[simp] theorem State.start_keeps (i : StartIn) (s : State) (h : Keeps q (Safety.still s)) :
    Keeps q (Safety.still (State.start i s)) := by
  unfold State.start
  dsimp only
  split
  · rw [State.startFenced_still, State.onBoot_still]; exact h
  have h1 := State.seedChest_keeps (State.loadFuses (s.onBoot (fun b => { b with error := if b.cause = 1 then 7 else 0 })))
    (q := q) (by rw [State.loadFuses_still, State.onBoot_still]; exact h)
  obtain ⟨s1, e⟩ : ∃ s1, s1 = State.seedChest (State.loadFuses (s.onBoot (fun b => { b with error := if b.cause = 1 then 7 else 0 }))) :=
    ⟨_, rfl⟩
  rw [← e] at h1 ⊢
  repeat' split
  all_goals simpa using h1

@[simp] theorem execStart_keeps (inp : StartIn) (s : State) (h : Keeps q (Safety.still s)) :
    Safety.ends (execStart inp s) (fun t => Keeps q (Safety.still t)) := by
  simp [execStart, h]

@[simp] theorem State.recControl_keeps (s : State) (h : Keeps q (Safety.still s)) :
    Keeps q (Safety.still (State.recControl s).2) := by
  simp [State.recControl, h]

@[simp] theorem State.recStatus_keeps (v : Nat) (s : State) (h : Keeps q (Safety.still s)) :
    Keeps q (Safety.still (State.recStatus v s)) := by
  simp [State.recStatus, h]

@[simp] theorem State.recWritten_keeps (s : State) (h : Keeps q (Safety.still s)) :
    Keeps q (Safety.still (State.recWritten s)) := by
  simp [State.recWritten, h]

@[simp] theorem State.recoveryGo_keeps (verified : Bool) (s : State) (h : Keeps q (Safety.still s)) :
    Keeps q (Safety.still (State.recoveryGo verified s)) := by
  unfold State.recoveryGo
  dsimp only
  generalize s.recControl.1 = v
  have h1 : Keeps q (Safety.still (s.recControl.2.onBoot (fun b => { b with recGo := false }))) := by
    rw [State.onBoot_still]; exact State.recControl_keeps s h
  obtain ⟨s1, e⟩ : ∃ s1, s1 = s.recControl.2.onBoot (fun b => { b with recGo := false }) := ⟨_, rfl⟩
  rw [← e] at h1 ⊢
  split
  · exact State.recStatus_keeps _ _ h1
  have h2 : Keeps q (Safety.still (if s1.boot.recErased = true then s1 else
      (s1.onFlash (fun f => f.eraseSlot false)).onBoot (fun b => { b with recErased := true }))) := by
    split
    · exact h1
    · rw [State.onBoot_still]; exact onFlash_keeps _ _ h1 fun f k => eraseSlot_mem f false k
  obtain ⟨s2, e2⟩ : ∃ s2, s2 = (if s1.boot.recErased = true then s1 else
      (s1.onFlash (fun f => f.eraseSlot false)).onBoot (fun b => { b with recErased := true })) := ⟨_, rfl⟩
  rw [← e2] at h2 ⊢
  have h3 := foldl_snd_keeps (List.range (min 1048576 (64 * bits v 25 5) / 8)) (fun (a : List Byte × State) k =>
    (a.1 ++ bytesOf 8 (a.2.winRead k).1.toNat, (a.2.winRead k).2.2)) ([], s2) h2 (fun t x k => State.winRead_keeps _ _ k)
  generalize List.foldl _ _ _ = d at h3 ⊢
  have h4 := onFlash_keeps (fun f => f.slotProgram false (bits v 4 0 * 1048576) d.1) d.2 h3 (fun f k => slotProgram_mem _ _ _ _ k)
  generalize State.onFlash (fun f => f.slotProgram false (bits v 4 0 * 1048576) d.1) d.2 = s4 at h4 ⊢
  split
  · split
    · exact State.internalReset_keeps _ _ (by rw [State.writeRec_still]; exact h4)
    · exact State.recStatus_keeps _ _ h4
  · exact State.recStatus_keeps _ _ h4

@[simp] theorem execRecoveryGo_keeps (verified : Bool) (s : State) (h : Keeps q (Safety.still s)) :
    Safety.ends (execRecoveryGo verified s) (fun t => Keeps q (Safety.still t)) := by
  simp [execRecoveryGo, h]

end Sys2Proof.Machine
end

