-- ==== Sys2Proof/Laws/KeepFabric.lean ====
section
/-! SUPPORT. What the operations of Machine/Fabric.lean that write a memory or the debug registers keep. -/

namespace Sys2Proof.Machine

variable {q : List Instr × SMap WWord × Flash × Debug}

@[simp] theorem execTierWrack_keeps (w : Wrx) (obj idx : Nat) (s : State) (h : Keeps q (Safety.still s)) :
    Safety.ends (execTierWrack w obj idx s) (fun t => Keeps q (Safety.still t)) := by
  unfold execTierWrack
  repeat' first
    | (simp +contextual [*]; done)
    | with_reducible refine State.powerEnter_keeps _ ?_
    | with_reducible refine State.frame_keeps _ _ _ _ _ ?_ (fun _ _ => ?_)
    | with_reducible refine (ends_next _ _).2 ?_
    | with_reducible exact ends_fault _ _
    | dsimp only
    | split

end Sys2Proof.Machine
end

