-- ==== Sys2Proof/Laws/KeepContain.lean ====
section
/-! SUPPORT. What the operations of Machine/Contain.lean that write a memory or the debug registers keep. -/

namespace Sys2Proof.Machine

variable {q : List Instr × SMap WWord × Flash × Debug}

@[simp] theorem execJtagTckEdge_keeps (tms tdi : Bool) (s : State) (h : Keeps q (Safety.still s)) :
    Safety.ends (execJtagTckEdge tms tdi s) (fun t => Keeps q (Safety.still t)) := by
  refine (ends_next _ _).2 (onDbg_keeps _ s h fun d hd => ?_)
  have ha : Safety.PortOk (d.act tdi) := by
    unfold Debug.act
    dsimp only
    split <;> exact hd
  unfold Debug.enter
  dsimp only
  split
  · rename_i ht; exact ⟨rfl, fun h15 => absurd (ht.symm.trans h15) (by decide)⟩
  · split
    · exact ⟨rfl, fun _ => rfl⟩
    · exact ⟨ha.1, fun h15 => absurd h15 ‹_›⟩

@[simp] theorem execTrstNAssert_keeps (s : State) (h : Keeps q (Safety.still s)) :
    Safety.ends (execTrstNAssert s) (fun t => Keeps q (Safety.still t)) := by
  refine (ends_next _ _).2 (onDbg_keeps _ s h fun d hd => ?_)
  simp [Debug.enter, Safety.PortOk]

end Sys2Proof.Machine
end

