-- ==== Sys2Proof/Laws/KeepFirmware.lean ====
section
/-! SUPPORT. What the operations of Machine/Firmware.lean that write a memory or the debug registers keep. -/

namespace Sys2Proof.Machine

variable {q : List Instr × SMap WWord × Flash × Debug}

@[simp] theorem State.fwStage_keeps (t : Taken) (s : State) (h : Keeps q (Safety.still s)) :
    Keeps q (Safety.still (State.fwStage t s)) := by
  unfold State.fwStage
  dsimp only
  generalize hs1 : State.clamps _ _ _ = s1
  have h1 : Keeps q (Safety.still s1) := by rw [← hs1, State.clamps_still]; exact h
  clear hs1
  split
  · rw [State.notPerformed_still]; exact h1
  split
  · rw [State.complete_still]; exact h1
  split
  · rw [State.complete_still, State.wpRefuse_still]; exact h1
  rw [State.complete_still]
  split
  · rw [State.onBoot_still, State.writeRec_still]
    refine onFlash_keeps _ _ ?_ fun f k => slotProgram_mem _ _ _ _ k
    split
    · rw [State.onBoot_still]
      refine onFlash_keeps _ _ ?_ fun f k => eraseSlot_mem f _ k
      rw [State.writeRec_still]; exact h1
    · exact h1
  · refine onFlash_keeps _ _ ?_ fun f k => slotProgram_mem _ _ _ _ k
    split
    · rw [State.onBoot_still]
      refine onFlash_keeps _ _ ?_ fun f k => eraseSlot_mem f _ k
      rw [State.writeRec_still]; exact h1
    · exact h1

@[simp] theorem execFwStage_keeps (p : Packet) (s : State) (h : Keeps q (Safety.still s)) :
    Safety.ends (execFwStage p s) (fun t => Keeps q (Safety.still t)) := by
  unfold execFwStage
  repeat' first
    | (simp +contextual [*]; done)
    | with_reducible refine State.fwStage_keeps _ _ ?_
    | with_reducible refine State.command_keeps _ _ _ _ ?_ (fun _ _ _ => ?_)
    | with_reducible refine (ends_next _ _).2 ?_
    | with_reducible exact ends_fault _ _
    | dsimp only
    | split

@[simp] theorem execSelfTestDone_keeps (passed : Bool) (s : State) (h : Keeps q (Safety.still s)) :
    Safety.ends (execSelfTestDone passed s) (fun t => Keeps q (Safety.still t)) := by
  simp [execSelfTestDone, h]

@[simp] theorem execConfirmWindowExpiry_keeps (s : State) (h : Keeps q (Safety.still s)) :
    Safety.ends (execConfirmWindowExpiry s) (fun t => Keeps q (Safety.still t)) := by
  simp [execConfirmWindowExpiry, h]

end Sys2Proof.Machine
end

