-- ==== Sys2Proof/Laws/KeepDiag.lean ====
section
/-! SUPPORT. What the operations of Machine/Diag.lean that write a memory or the debug registers keep. -/

namespace Sys2Proof.Machine

variable {q : List Instr × SMap WWord × Flash × Debug}

@[simp] theorem State.service_keeps (t : Taken) (s : State) (h : Keeps q (Safety.still s)) :
    Keeps q (Safety.still (State.service t s)) := by
  simp [State.service, h]

@[simp] theorem execService_keeps (p : Packet) (s : State) (h : Keeps q (Safety.still s)) :
    Safety.ends (execService p s) (fun t => Keeps q (Safety.still t)) := by
  unfold execService
  repeat' first
    | (simp +contextual [*]; done)
    | with_reducible refine State.service_keeps _ _ ?_
    | with_reducible refine State.command_keeps _ _ _ _ ?_ (fun _ _ _ => ?_)
    | with_reducible refine (ends_next _ _).2 ?_
    | with_reducible exact ends_fault _ _
    | dsimp only
    | split

@[simp] theorem State.rawCommand_keeps (cmd ctx : Nat) (find : ReadFinding) (verified : Bool) (bits : List Nat) (s : State) (h : Keeps q (Safety.still s)) :
    Keeps q (Safety.still (State.rawCommand cmd ctx find verified bits s)) := by
  unfold State.rawCommand
  repeat' first
    | (simp +contextual [*]; done)
    | with_reducible refine State.chestRaw5_keeps _ _ ?_
    | with_reducible refine State.chestRaw4_keeps _ _ _ ?_
    | with_reducible refine State.chestRaw2_keeps _ ?_
    | with_reducible refine State.chestRaw1_keeps _ _ ?_
    | with_reducible refine State.chestRaw3_keeps _ _ _ ?_
    | dsimp only
    | split

@[simp] theorem State.chestRawDiag_keeps (find : ReadFinding) (verified : Bool) (t : Taken) (s : State) (h : Keeps q (Safety.still s)) :
    Keeps q (Safety.still (State.chestRawDiag find verified t s)) := by
  simp [State.chestRawDiag, h]

@[simp] theorem execChestRaw_keeps (p : Packet) (find : ReadFinding) (verified : Bool) (s : State) (h : Keeps q (Safety.still s)) :
    Safety.ends (execChestRaw p find verified s) (fun t => Keeps q (Safety.still t)) := by
  unfold execChestRaw
  repeat' first
    | (simp +contextual [*]; done)
    | with_reducible refine State.chestRawDiag_keeps _ _ _ _ ?_
    | with_reducible refine State.command_keeps _ _ _ _ ?_ (fun _ _ _ => ?_)
    | with_reducible refine (ends_next _ _).2 ?_
    | with_reducible exact ends_fault _ _
    | dsimp only
    | split

end Sys2Proof.Machine
end

