-- ==== Sys2Proof/Laws/KeepRegRead.lean ====
section
/-! SUPPORT. What the operations of Machine/RegRead.lean that write a memory or the debug registers keep. -/

namespace Sys2Proof.Machine

variable {q : List Instr × SMap WWord × Flash × Debug}

@[simp] theorem State.readSpace_keeps (off len : Nat) (bs : List PortB) (s : State) (h : Keeps q (Safety.still s)) :
    Keeps q (Safety.still (State.readSpace off len bs s).2) := by
  unfold State.readSpace
  repeat' first
    | (simp +contextual [*]; done)
    | with_reducible refine State.winReadA_keeps _ _ _ _ ?_
    | dsimp only
    | split

end Sys2Proof.Machine
end

