-- ==== Sys2Proof/Laws/KeepRegisters.lean ====
section
/-! SUPPORT. What the operations of Machine/Registers.lean that write a memory or the debug registers keep. -/

namespace Sys2Proof.Machine

variable {q : List Instr × SMap WWord × Flash × Debug}

@[simp] theorem State.hostHlk_keeps (off v : Nat) (s : State) (h : Keeps q (Safety.still s)) :
    Keeps q (Safety.still (State.hostHlk off v s)) := by
  unfold State.hostHlk
  repeat' first
    | (simp +contextual [*]; done)
    | with_reducible refine State.urgDb_keeps _ _ ?_
    | with_reducible refine State.onCommit_keeps _ _ _ ?_ ?_
    | dsimp only
    | split

@[simp] theorem State.hostDbg_keeps (off v : Nat) (s : State) (h : Keeps q (Safety.still s)) :
    Keeps q (Safety.still (State.hostDbg off v s)) := by
  unfold State.hostDbg
  split
  · exact onDbg_keeps _ _ h fun _ k => k
  · exact onDbg_keeps _ _ h fun _ k => k
  · simpa using h

@[simp] theorem State.hostPage_keeps (page off v : Nat) (s : State) (h : Keeps q (Safety.still s)) :
    Keeps q (Safety.still (State.hostPage page off v s)) := by
  unfold State.hostPage
  repeat' first
    | (simp +contextual [*]; done)
    | with_reducible refine State.hostDbg_keeps _ _ _ ?_
    | with_reducible refine State.hostHlk_keeps _ _ _ ?_
    | dsimp only
    | split

@[simp] theorem State.easelChs_keeps (off v : Nat) (s : State) (h : Keeps q (Safety.still s)) :
    Keeps q (Safety.still (State.easelChs off v s)) := by
  unfold State.easelChs
  repeat' first
    | (simp +contextual [*]; done)
    | with_reducible refine State.chsCommit_keeps _ ?_
    | with_reducible refine State.service_keeps _ _ ?_
    | with_reducible refine State.onCommit_keeps _ _ _ ?_ ?_
    | with_reducible refine onlyIf_keeps _ _ _ ?_ ?_
    | dsimp only
    | split

@[simp] theorem State.easelPage_keeps (sel page off v : Nat) (s : State) (h : Keeps q (Safety.still s)) :
    Keeps q (Safety.still (State.easelPage sel page off v s)) := by
  unfold State.easelPage
  repeat' first
    | (simp +contextual [*]; done)
    | with_reducible refine State.easelChs_keeps _ _ _ ?_
    | with_reducible refine State.hostPage_keeps _ _ _ _ ?_
    | with_reducible refine State.onCommit_keeps _ _ _ ?_ ?_
    | with_reducible refine onlyIf_keeps _ _ _ ?_ ?_
    | dsimp only
    | split

@[simp] theorem State.pageWrite_keeps (a : Agent) (n off v : Nat) (s : State) (h : Keeps q (Safety.still s)) :
    Keeps q (Safety.still (State.pageWrite a n off v s)) := by
  unfold State.pageWrite
  repeat' first
    | (simp +contextual [*]; done)
    | with_reducible refine State.hostPage_keeps _ _ _ _ ?_
    | with_reducible refine State.easelPage_keeps _ _ _ _ _ ?_
    | dsimp only
    | split

@[simp] theorem State.writeSpace_keeps (off : Nat) (data : List Byte) (bs : List PortB) (s : State) (h : Keeps q (Safety.still s)) :
    Keeps q (Safety.still (State.writeSpace off data bs s).2) := by
  unfold State.writeSpace
  repeat' first
    | (simp +contextual [*]; done)
    | with_reducible refine State.pageWrite_keeps _ _ _ _ _ ?_
    | with_reducible refine State.recWritten_keeps _ ?_
    | with_reducible refine State.winWriteA_keeps _ _ _ _ ?_
    | dsimp only
    | split

@[simp] theorem execCwr_keeps (rx : Rx) (off : Nat) (data : List Byte) (resp : Bool) (portB : List PortB) (s : State) (h : Keeps q (Safety.still s)) :
    Safety.ends (execCwr rx off data resp portB s) (fun t => Keeps q (Safety.still t)) := by
  simp [execCwr, h]

@[simp] theorem execCrd_keeps (rx : Rx) (off len : Nat) (portB : List PortB) (s : State) (h : Keeps q (Safety.still s)) :
    Safety.ends (execCrd rx off len portB s) (fun t => Keeps q (Safety.still t)) := by
  simp [execCrd, h]

@[simp] theorem execRegisterWrite_keeps (a : Agent) (off : Nat) (v : Word) (s : State) (h : Keeps q (Safety.still s)) :
    Safety.ends (execRegisterWrite a off v s) (fun t => Keeps q (Safety.still t)) := by
  unfold execRegisterWrite
  repeat' first
    | (simp +contextual [*]; done)
    | with_reducible refine State.pageWrite_keeps _ _ _ _ _ ?_
    | with_reducible refine (ends_next _ _).2 ?_
    | with_reducible exact ends_fault _ _
    | with_reducible refine onlyIf_keeps _ _ _ ?_ ?_
    | dsimp only
    | split

@[simp] theorem execRmt_keeps (w : Wrx) (s : State) (h : Keeps q (Safety.still s)) :
    Safety.ends (execRmt w s) (fun t => Keeps q (Safety.still t)) := by
  unfold execRmt
  repeat' first
    | (simp +contextual [*]; done)
    | with_reducible refine State.pageWrite_keeps _ _ _ _ _ ?_
    | with_reducible refine State.readSpace_keeps _ _ _ _ ?_
    | with_reducible refine State.writeSpace_keeps _ _ _ _ ?_
    | with_reducible refine State.frame_keeps _ _ _ _ _ ?_ (fun _ _ => ?_)
    | with_reducible refine (ends_next _ _).2 ?_
    | with_reducible exact ends_fault _ _
    | with_reducible refine onlyIf_keeps _ _ _ ?_ ?_
    | dsimp only
    | split

end Sys2Proof.Machine
end

