-- ==== Sys2Proof/Laws/KeepEdge.lean ====
section
/-! SUPPORT. What the operations of Machine/Edge.lean that write a memory or the debug registers keep. -/

namespace Sys2Proof.Machine

variable {q : List Instr × SMap WWord × Flash × Debug}

@[simp] theorem State.beginTick_keeps (s : State) (h : Keeps q (Safety.still s)) :
    Keeps q (Safety.still (State.beginTick s)) := by
  simp [State.beginTick, h]

@[simp] theorem State.edge_keeps (e : SyncEvent) (draw : Half) (same : List Nat) (s : State) (h : Keeps q (Safety.still s)) :
    Keeps q (Safety.still (State.edge e draw same s)) := by
  simp [State.edge, h]

@[simp] theorem execRegisteredEdge_keeps (draw : Half) (same : List Nat) (s : State) (h : Keeps q (Safety.still s)) :
    Safety.ends (execRegisteredEdge draw same s) (fun t => Keeps q (Safety.still t)) := by
  unfold execRegisteredEdge
  repeat' first
    | (simp +contextual [*]; done)
    | with_reducible refine State.edge_keeps _ _ _ _ ?_
    | with_reducible refine (ends_next _ _).2 ?_
    | with_reducible exact ends_fault _ _
    | with_reducible refine onlyIf_keeps _ _ _ ?_ ?_
    | dsimp only
    | split

end Sys2Proof.Machine
end

