-- ==== Sys2Proof/Laws/Shared.lean ====
section
/-! SUPPORT. What the shared operations of several rows can do: a message goes out, a header is taken, clamps are counted. -/

namespace Sys2Proof.Machine

/-- A message from a stack changes the fabric alone. -/
theorem weaveFrom_frame (a b c d e f g : Nat) (h : List Byte) (s : State) :
    ∃ x, State.weaveFrom a b c d e f g h s = { s with fab := x } := ⟨_, rfl⟩

/-- Operations that change the fabric alone, one after another, do so together. -/
theorem each_frame {α : Type} (f : α → State → State) (hf : ∀ a s, ∃ x, f a s = { s with fab := x }) (l : List α) (s : State) :
    ∃ x, each l f s = { s with fab := x } := by
  induction l generalizing s with
  | nil => exact ⟨s.fab, rfl⟩
  | cons a l ih =>
    obtain ⟨x, hx⟩ := hf a s
    obtain ⟨y, hy⟩ := ih (f a s)
    refine ⟨y, ?_⟩
    show each l f (f a s) = _
    rw [hy, hx]

/-- A Weave message changes the fabric alone. -/
theorem weave_frame (c d e f g : Nat) (h : List Byte) (s : State) :
    ∃ x, State.weave c d e f g h s = { s with fab := x } := by
  unfold State.weave; dsimp only; split
  · exact weaveFrom_frame ..
  · exact each_frame _ (fun a s => weaveFrom_frame ..) _ _

/-- Reading a ring ahead changes the rings and the host link. -/
theorem readAhead_frame (r : Nat) (s : State) :
    ∃ rs l, s.readAhead r = { s with easel := { s.easel with rings := rs }, link := l } := by
  unfold State.readAhead; dsimp only; split
  · exact ⟨_, _, rfl⟩
  · exact ⟨_, _, rfl⟩

/-- Operations that change Easel alone, one after another, do so together. -/
theorem each_easel_frame {α : Type} (f : α → State → State) (hf : ∀ a s, ∃ x, f a s = { s with easel := x }) (l : List α) (s : State) :
    ∃ x, each l f s = { s with easel := x } := by
  induction l generalizing s with
  | nil => exact ⟨s.easel, rfl⟩
  | cons a l ih =>
    obtain ⟨x, hx⟩ := hf a s
    obtain ⟨y, hy⟩ := ih (f a s)
    refine ⟨y, ?_⟩
    show each l f (f a s) = _
    rw [hy, hx]

/-- Counting clamps changes Easel alone. -/
theorem clamps_frame (t : Taken) (ws : List Nat) (s : State) : ∃ x, s.clamps t ws = { s with easel := x } :=
  each_easel_frame _ (fun _ _ => ⟨_, rfl⟩) _ _

/-- Counting clamps leaves the objects. -/
theorem clamps_obj (t : Taken) (ws : List Nat) (s : State) (o : Nat) : (s.clamps t ws).obj o = s.obj o := by
  obtain ⟨x, h⟩ := clamps_frame t ws s; rw [h]; rfl

/-- Counting clamps leaves what bars a home. -/
theorem clamps_serviceBars (t : Taken) (ws : List Nat) (s : State) (o : Nat) : (s.clamps t ws).serviceBars o = s.serviceBars o := by
  obtain ⟨x, h⟩ := clamps_frame t ws s; rw [h]; rfl

/-- Taking a header moves it from the held ones to the live commands. -/
theorem takeHeader_frame (h : Held) (c : Cmd) (s : State) :
    ∃ rs rr l, s.takeHeader h c = { s with easel := { s.easel with held := s.easel.held.erase h, nextSeq := s.easel.nextSeq + 1, taken := s.easel.taken + 1, live := s.easel.live ++ [{ cmd := c }], rrRing := rr, rings := rs }, link := l } := by
  unfold State.takeHeader; dsimp only; split
  · exact ⟨_, _, _, rfl⟩
  · obtain ⟨rs, l, e⟩ := readAhead_frame h.ring (State.onRing h.ring (fun g => { g with passed := g.passed ++ [(c.seq, c.head, false)] }) (s.onEasel (fun e => { e with held := e.held.erase h, nextSeq := e.nextSeq + 1, taken := e.taken + 1, live := e.live ++ [{ cmd := c }], rrRing := putRaw (s.ring h.ring).cls.toNat h.ring e.rrRing })))
    exact ⟨rs, putRaw (s.ring h.ring).cls.toNat h.ring s.easel.rrRing, l, e⟩

/-- Passing a packet changes the rings and the Mover. -/
theorem passPacket_frame (c : Cmd) (n : Nat) (s : State) :
    ∃ rs m, (s.passPacket c).commandBytes n = { s with easel := { s.easel with rings := rs }, mover := m } := by
  unfold State.passPacket; split <;> exact ⟨_, _, rfl⟩

/-- A command that a row takes is one that the row accepts. -/
theorem take_accepts {p : Packet} {ok : Line → Bool} {t : Taken} {u s : State} (h : s.take p ok = (some t, u)) : ok t.cmd.hdr = true := by
  unfold State.take at h
  split at h
  · simp at h
  · rename_i x _
    dsimp only at h
    split at h
    · simp at h
    · rename_i q
      have hok : ok x.hdr = true := by
        cases k : ok x.hdr with
        | true => rfl
        | false => exact absurd (Or.inr (Or.inr (by simp [k]))) q
      cases hx : x.payload with
      | none =>
        simp only [hx, Option.isSome_none, Bool.false_eq_true, if_false] at h
        generalize hc : ({ src := .ring x.ring, hdr := x.hdr, seq := s.easel.nextSeq, head := (x.idx + 1 + (s.ring x.ring).slots x.hdr) % (2 * (s.ring x.ring).size) } : Cmd) = c at h
        have hh : c.hdr = x.hdr := by rw [← hc]
        repeat' split at h
        all_goals first
          | (simp only [Prod.mk.injEq, Option.some.injEq] at h; obtain ⟨rfl, -⟩ := h; simpa [hh] using hok)
          | (simp at h; done)
      | some d =>
        simp only [hx, Option.isSome_some, if_true] at h
        generalize hc : ({ src := .fabric x.ring, hdr := x.hdr, seq := s.easel.nextSeq, head := 0 } : Cmd) = c at h
        have hh : c.hdr = x.hdr := by rw [← hc]
        repeat' split at h
        all_goals first
          | (simp only [Prod.mk.injEq, Option.some.injEq] at h; obtain ⟨rfl, -⟩ := h; simpa [hh] using hok)
          | (simp at h; done)
end Sys2Proof.Machine
end

