-- ==== Sys2Proof/Tests/Slice0.lean ====
section
/-! SUPPORT. Small checks: an ill-formed operand for each check of WellFormed, states that meet the premises of the statements, and
single steps on values of the spec. -/

namespace Sys2Proof.Tests

set_option Elab.async false

open Sys2Proof Sys2Proof.Machine

-- Well-formedness: each check refuses an operand beyond its range.

def noHdr : Packet := { ring := 0, hdr := 0, payload := [] }

theorem test_ctx_range : ctxOk 1023 = true ∧ (Instr.retouchStepDone 1024 { samp := [], tgt := [], canvas := [], ascales := [] }).wf = false := by decide
theorem test_ring_range : ringOk 32767 = true ∧ (Instr.enable 32768).wf = false := by decide
theorem test_bank_range : bankOk 255 = true ∧ (Instr.bankClearDone 256).wf = false := by decide
theorem test_line_range : lineOk 8191 = true ∧ (Instr.palAccess 1 [{ unit := 2, agent := 0, line := 8192, op := .read, upset := 0, noise := 0, declines := false, ctx := 0 }]).wf = false := by decide
theorem test_group_range : groupOk 31 = true ∧ (Instr.strikeIssue 32 [] false none).wf = false := by decide
theorem test_panel_range : panelOk 543 = true ∧
    (Instr.probeStrike 0 [] [{ panel := 544, codes := { data := [], chk := [], r0 := 0, r1 := 0 } }]).wf = false := by decide
theorem test_eng_range : engOk 15 = true ∧ (Instr.tileStart 16 []).wf = false := by decide
theorem test_queue_range : queueOk 63 = true ∧ (Instr.cancel 64).wf = false := by decide
theorem test_worker_range : workerOk 15 = true ∧ (Instr.heartbeatLoss 16).wf = false := by decide
theorem test_port_range : portOk 3 = true ∧ (Instr.enumTimeout 4).wf = false := by decide
theorem test_obj_range : objOk 1048575 = true ∧ (Instr.fillDone 1048576 0 true []).wf = false := by decide
theorem test_idx_range : idxOk 1073741823 = true ∧ (Instr.readTimeout 0 1073741824).wf = false := by decide
theorem test_frame_range : frameOk 4294967295 = true ∧ (Instr.payloadUnpack 0 4294967296 0 1 1 [] 0).wf = false := by decide
theorem test_packet_slots : (Instr.ctxOpen noHdr).wf = true ∧ (Instr.ctxOpen { noHdr with payload := [0] }).wf = false := by decide
theorem test_module_range : (ModId.fab 3).wf = true ∧ (Instr.trainingRetry (.hl 2)).wf = false := by decide
theorem test_link_range : LinkId.host.wf = true ∧ (Instr.replayTimeout (.fab 4) 0).wf = false := by decide

def frame0 : Wrx := { port := 0, src := 16, dst := 16, param := 0, aux := 0, data := [], rx := { seq := 0, good := true }, stomp := false }

theorem test_stack_range : stackOk 31 = true ∧ (Instr.enum { frame0 with dst := 17 }).wf = false := by decide
theorem test_frame_port : (Instr.enum frame0).wf = true ∧ (Instr.heartbeat { frame0 with port := 4 }).wf = false := by decide
def codes0 : SubCodes := { data := List.replicate 256 0, chk := List.replicate 32 0, r0 := 0, r1 := 0 }

set_option maxRecDepth 4000 in
theorem test_codes_length : codes0.wf = true ∧ ({ codes0 with data := [] } : SubCodes).wf = false := by decide
def work0 : Work := { owner := 3, frame := 7, part := 1 }
def part0 : StrikePart := { work := work0, loop := 0, layer := 0, replica := 0, seq := 0, pair := 9, src := [], dst := 0, segs := [] }
def cand0 : StrikeCand := { ctx := 3, parts := [part0], left := [] }
def keys0 : KeyBlock := { head := 0, key0 := 0, keys := 64, total := 64, k := 0, v := 0 }
def tile0 : TileCand := { ctx := 3, work := work0, layer := 0, share := false, loop := 0, present := true, retouch := false, subst := false, cost := 0, pair := 9, since := 0, loads := [], stateLoads := [], outs := [], block := keys0, queries := [], out := 5, vecs := 0, stepDone := false, layerDone := false }

theorem test_segment_subs : ({ seg := 0, subs := [{ data := [], chk := [], r0 := 0, r1 := 0 }] } : SegStrike).wf = false ∧
    ({ seg := 0, subs := List.replicate 9 { data := [], chk := [], r0 := 0, r1 := 0 } } : SegStrike).wf = false := by decide
theorem test_part_ranges : part0.wf = true ∧ ({ part0 with layer := 1024 } : StrikePart).wf = false ∧
    ({ part0 with replica := 16 } : StrikePart).wf = false ∧
    ({ part0 with dst := 2 ^ 27 } : StrikePart).wf = false ∧ ({ part0 with src := [2 ^ 28] } : StrikePart).wf = false := by decide
theorem test_work_ranges : work0.wf = true ∧ ({ work0 with part := 256 } : Work).wf = false ∧ ({ work0 with frame := 2 ^ 32 } : Work).wf = false := by decide
theorem test_candidate_context : cand0.wf = true ∧ ({ cand0 with ctx := 1024 } : StrikeCand).wf = false := by decide
theorem test_tile_ranges : tile0.wf = true ∧ ({ tile0 with loads := [(0, 32768)] } : TileCand).wf = false ∧
    ({ tile0 with stateLoads := [(0, 32768)] } : TileCand).wf = false ∧ ({ tile0 with out := 16 } : TileCand).wf = false ∧
    ({ tile0 with block := { keys0 with keys := 65 } } : TileCand).wf = false ∧
    ({ tile0 with queries := List.replicate 65 { id := 0, pos := 0, q := 0, dst := 0, save := none } } : TileCand).wf = false ∧
    (Instr.loadPhaseComplete 0 0 (some (32768, 0))).wf = false := by decide
theorem test_output_range : (Instr.pack 3 7 1 0 1 0 0 16 [] 0).wf = false ∧ (Instr.payloadUnpack 3 7 1 1 1 [2 ^ 27] 0).wf = false ∧
    (Instr.warpJob 3 work0 { job := 0, plane := 3, w := 1, h := 1, row0 := 0, rows := 1, grid := 0, gridRows := 0, dst := 0, pair := 0 }).wf = false := by decide
theorem test_references : refsOk [List.replicate 72 (0, 0), List.replicate 68 (0, 0), List.replicate 66 (0, 0), List.replicate 65 (0, 0)] = true ∧
    (Instr.programComplete 0 true 0 0 []).wf = false := by decide
theorem test_lane_range : (Instr.compressBlock 7).wf = true ∧ (Instr.compressBlock 8).wf = false ∧ (Instr.expandBlock 8).wf = false := by decide
theorem test_chest_range : chestOk false (2 ^ 34 - 64) 64 = true ∧ chestOk false (2 ^ 34 - 64) 65 = false ∧ chestOk true (2 ^ 28 - 1) 1 = true ∧
    (Instr.chestWrite (2 ^ 28) true [0] 0).wf = false ∧ (Instr.chestRead (2 ^ 34) false { bits := [], retries := 0 }).wf = false := by decide
theorem test_retry_range : ({ bits := [60, 0, 0, 0], retries := 7 } : ReadFinding).wf 1 = true ∧
    ({ bits := [], retries := 8 } : ReadFinding).wf 1 = false ∧ ({ bits := [0, 0, 0, 0, 0], retries := 0 } : ReadFinding).wf 1 = false := by decide
theorem test_window_word : (Instr.crd { seq := 0, good := true } 0 4 [{ word := 262144, wr := none, dps := 0, before := false }]).wf = false := by decide
theorem test_link_number : (Instr.wake 1 0 0 false).wf = true ∧ (Instr.tick 2 0).wf = false := by decide
theorem test_unit_number : (Instr.helperWatchdog 9 0).wf = true ∧ (Instr.helperWatchdog 10 0).wf = false := by decide
theorem test_aligned_offset : (Instr.registerWrite .host 0x400001 0).wf = false := by decide
theorem test_quad_and_page : (Instr.chestWriteDone 7 0 63 [3]).wf = true ∧ (Instr.chestWriteDone 8 0 0 []).wf = false ∧
    (Instr.chestWriteDone 7 0 63 [4]).wf = false := by decide
theorem test_plane_range : (Instr.suspendedResume 32).wf = false := by decide
theorem test_no_row_has_bits : decodeTableWord 8 0 = none := by decide

-- States that meet the premises of the statements. A command's premise is that its row takes it: `meets` evaluates what is asked of it then.

/-- The part runs: power good, out of reset, Easel's firmware in charge, every unit ready, a manager with HL0 active. -/
def live : State := { State.reset with
  tick := { loaded := true }, easel := { running := true }, boot := { phase := 8, held := false, secReady := true }, glaze := { ready := true }
  sw := { swReady := true, migReady := true }, chest := { ready := true }, mover := { ready := true }
  wp := { wReady := true, pReady := true }, primer := { running := true }, pmu := { ready := true }
  link := { hl0 := { st := .active } }, fab := { ready := true, strap := 8 }, pins := { pwrGood := true, resetN := true } }

/-- A header: opcode, context and fields, each a place and a value. -/
def hdr (op ctx : Nat) (fs : List (Nat × Nat)) : Line := BitVec.ofNat 512 (fs.foldl (fun a f => a + f.2 * 2 ^ f.1) (op + ctx * 2 ^ 48))

/-- The command at the head of ring 5. -/
def pkt (h : Line) : Packet := { ring := 5, hdr := h, payload := [] }

/-- A state with the header read ahead at the head of ring 5, whose completion ring 0 has 256 slots. -/
def front (h : Line) (s : State) : State :=
  s.onEasel (fun e => { e with held := [{ ring := 5, idx := 0, hdr := h }], rings := [(0, { log2 := 8 }), (5, { log2 := 4, tail := 3 })] })

/-- The row takes the command, and what is asked of it then holds. -/
def meets (s : State) (h : Line) (ok : Line → Bool) (c : Machine.Taken → State → Bool) : Bool :=
  match (front h s).take (pkt h) ok with
  | (some t, u) => c t u
  | (none, _) => false

/-- A change of context 3. -/
def ctx3 (s : State) (x : Ctx) : State := s.onCtx 3 (fun _ => x)

theorem wit_step : live.pending = [] ∧ ({ live with pending := [.winCommit] } : State).pending = .winCommit :: [] := by decide
theorem wit_invariant : Safety.MemInv State.reset ∧ Safety.PortInv State.reset ∧ step State.reset = .next State.reset := by
  refine ⟨?_, ?_, rfl⟩
  · exact ⟨rfl, rfl, rfl, rfl, rfl⟩
  · exact ⟨rfl, fun _ => rfl⟩
theorem wit_live_invariant : Safety.MemInv live := ⟨rfl, rfl, rfl, rfl, rfl⟩
theorem wit_live : live.serving = true ∧ live.up = true ∧ live.ticking = true ∧ live.hostReach = true ∧ live.dead = false ∧ live.ready = true ∧
    live.manager = true ∧ live.power = 0 ∧ live.carries .host = true := by decide

-- Ticks.

def src (n : BitVec 2) (s : State) : State := s.onTick (fun k => { k with eff := { k.eff with src := n } })

theorem wit_tick_sources : (src 0 live).ticking = true ∧ (src 0 live).tick.src = 0 ∧ (src 1 live).tick.src = 1 ∧ (src 2 live).tick.src = 2 ∧
    live.tick.sync = [] := by decide
theorem wit_registered : (live.onTick (fun k => { k with sync := [{ real := true, at_ := 0 }] })).tick.sync =
    { real := true, at_ := 0 } :: [] := by decide
theorem wit_slice : (live.onTick (fun k => { k with begun := true, eff := { k.eff with slices := 3 } })).tick.slices = 4 ∧
    live.ctxIds = [] ∧ (1 : Nat) ≤ live.tick.sliceNow.toNat + 1 := by decide

def bound : Ctx := { st := .bound, bindLive := true, bind := { realtime := true, w := 16 } }

theorem wit_credit_wait : ((ctx3 live bound).ctx 3).st = .bound ∧ ((ctx3 live bound).ctx 3).bind.w ≤ 16 ∧
    ((ctx3 live bound).ctx 3).dNow ≤ live.tick.sliceNow.toNat ∧ (15 : Nat) < ((ctx3 live bound).ctx 3).bind.w ∧
    ((ctx3 live { bound with dNow := 1 }).ctx 3).dNow = 1 ∧ ((ctx3 live { bound with bind := { realtime := false } }).ctx 3).bind.realtime = false := by decide

-- Strikes, probes, tiles, Warp and Pixel.

def cmd0 : Cmd := { src := .ring 5, hdr := 0, head := 0, seq := 0 }

def task0 : Machine.Task := { cmd := cmd0, ctx := 3, frameCmd := false, frame := 7, part := 1, ifmt := 0, ofmt := 0, tick := 0, taken := 0, blocks := 2 }

def map0 : CMap := { players := [{}], segs := [{ layer := 0, ord := 0, twin := false, img := { obj := 0, off := 0 }, grp := 2, slot := 0, replica := 0, rowseg := 0, row0 := 0, rows := 1, col0 := 0, cols := 1 }], warp := [{}], llayers := [{ eset := 1 }], buffers := [(4, 0, 2)], loops := [(4, 0, 0)] }

/-- Context 3 is bound and holds a task of the current tick. -/
def work : State := (ctx3 live { bound with maps := { a := some map0, live := true } }).onEasel (fun e => { e with tasks := [task0] }) |>.onEng 0 (fun e => { e with ready := true })

/-- A vector of layer 0 is in flight in group 2, whose panel 34 serves. -/
def striking : State := (work.onPanel 34 (fun p => { p with st := .serving })).onGroup 2 (fun g => { g with
  vecs := [{ ctx := 3, layer := 0, replica := 0, work := work0, acts := [1] }] })
def part1 : StrikePart := { part0 with segs := [{ seg := 0, subs := [{ data := List.replicate 256 0x80, chk := [], r0 := 0, r1 := 0 }] }] }
def cand1 : StrikeCand := { cand0 with parts := [part1] }

theorem wit_strike : striking.serving = true ∧ striking.allCands 2 [cand1] = [cand1] ∧ cand1.parts.filterMap (striking.partFallback 2 3) = [] ∧
    0 < striking.candSubs 2 cand1 ∧ (work.group 2).vecs = [] ∧ ∃ v, v ∈ (striking.group 2).vecs ∧
    (striking.ctx 3).bind.realtime = true ∧ (striking.ctx 3).strikeTok 2 < striking.candSubs 2 cand1 ∧
    striking.candSubs 2 cand1 ≤ ((striking.onCtx 3 (fun x => { x with tok := { x.tok with strike := [(2, 9)] } })).ctx 3).strikeTok 2 := by decide +kernel
/-- The replica has only its fallback left. -/
def routed : State := work.onCtx 3 (fun x => { x with routes := [(0, 0, .fallback 4)] })
theorem wit_route_out : (cand0.parts.filterMap (routed.partFallback 2 3)).min? = some 4 ∧ routed.servable 3 = true ∧
    routed.workOpen 3 work0 = true ∧ (routed.ctx 3).handed = 0 := by decide +kernel
theorem wit_strike_hit : ∃ h, h ∈ striking.strikeOf 2 cand1 := by
  refine ⟨(striking.strikeOf 2 cand1).headD { map := {}, vec := { ctx := 0, layer := 0, replica := 0 }, seg := { layer := 0, ord := 0, twin := false, img := { obj := 0, off := 0 }, grp := 0, slot := 0, replica := 0, rowseg := 0, row0 := 0, rows := 0, col0 := 0, cols := 0 }, panel := 0, slice := 0, rows := [], subs := [] }, ?_⟩
  decide +kernel
theorem wit_credit_return : (work.workMap 3).entries 4 = some 2 ∧ (work.ctx 3).credits 4 + work.heldEntries 3 4 < 2 ∧
    ((work.onCtx 3 (fun x => { x with credit := [(4, 2)] })).ctx 3).credits 4 = 2 ∧
    ((work.onCtx 3 (fun x => { x with credit := [(4, 1)] })).ctx 3).credits 4 = 1 ∧ (work.workMap 3).entries 5 = none := by decide +kernel
/-- Panel 543 serves and its probe is due. -/
def probing : State := live.onPanel 543 (fun p => { p with st := .serving })
theorem wit_probe : probing.serving = true ∧ (probing.group 31).fenced = false ∧ probing.primer.running = true ∧ probing.primer.fenced = false ∧
    probing.primer.eff.mode ≠ 2 ∧ (probing.group 31).probes < probing.primer.eff.probeMax.toNat ∧ probing.claims 31 [] = [] ∧
    probing.probed 31 = [543] ∧ probing.probeFits { panel := 543, codes := codes0 } = true := by decide +kernel
theorem wit_probe_limit : live.primer.eff.probeMax.toNat ≤ ((live.onGroup 31 (fun g => { g with probes := 256 })).group 31).probes ∧
    ((live.onGroup 31 (fun g => { g with probes := 255 })).group 31).probes < live.primer.eff.probeMax.toNat ∧
    (live.onPrimer (fun p => { p with eff := { p.eff with mode := 2 } })).primer.eff.mode = 2 := by decide +kernel

def tile1 : Tile := { tile0 with charge := 0 }
/-- Engine 0 runs a tile. -/
def tiling (t : Tile) : State := work.onEng 0 (fun e => { e with tile := some t })

theorem wit_tile : (work.eng 0).fenced = false ∧ (work.eng 0).ready = true ∧ (work.eng 0).tile = none ∧ work.tileReady 0 tile0 = true ∧
    work.engTiles 0 [tile0] = [work.fitTile 0 tile0] ∧ work.tileReal tile0 = true ∧ work.tileAbsent 0 (work.fitTile 0 tile0) = false ∧
    work.tileAbsent 0 { tile0 with present := false } = true := by decide +kernel
theorem wit_tile_load : ((tiling tile1).eng 0).tile = some tile1 ∧ (tile1.share && !tile1.subst && !tile1.retouch) = false ∧
    ((tiling tile1).readEach 0x50 3 (tile1.loads.map (·.1))).2.1 = false ∧
    ((tiling { tile1 with dead := true }).eng 0).tile = some { tile1 with dead := true } := by decide +kernel
theorem wit_tile_end : ((tiling { tile1 with computing := true }).eng 0).tile = some { tile1 with computing := true } ∧
    (((tiling { tile1 with computing := true }).eng 0).upset none).2 = none ∧
    (tiling { tile1 with computing := true }).partsHere tile1 map0 = true := by decide +kernel
/-- A substitute's tile waits for its swatches. -/
def late : State := work.onEng 0 (fun e => { e with waits := [{ tile0 with subst := true, present := false }] })
theorem wit_swwait : (late.eng 0).waits.any (fun w => w.ctx == 3 && late.tileLate 0 w) = true ∧ late.holds 3 = true ∧
    (work.ctx 3).fence = false ∧ (work.ctx 3).handed = 0 := by decide +kernel
/-- A Retouch command of two steps on layer 0. -/
def retouching : RetouchRun := { cmd := cmd0, layers := [0], steps := 2 }
theorem wit_retouch : (work.retouchReads {} retouching { samp := [], tgt := [], canvas := [], ascales := [] } 0 []).2.1 = false ∧
    ((work.onCtx 3 (fun x => { x with retouch := some retouching })).ctx 3).retouch = some retouching ∧ retouching.spoiled = false ∧
    retouching.done + retouching.ready < retouching.steps ∧ (work.ctx 3).retouch = none := by decide +kernel

/-- The picture of frame 7 of context 3, one plane of 2 × 2. -/
def pictured : State := work.onCtx 3 (fun x => { x with pics := [(7, task0.picKey, [{ addr := 0, w := 2, h := 2 }])] })
def warp0 : WarpIn := { job := 0, plane := 0, w := 2, h := 2, row0 := 0, rows := 2, grid := 0, gridRows := 2, dst := 0, pair := 0 }
theorem wit_warp : pictured.serving = true ∧ pictured.wp.wReady = true ∧ pictured.servable 3 = true ∧ pictured.workOpen 3 work0 = true ∧
    pictured.ownWaits 3 work0 = false ∧ pictured.task 3 7 1 = some task0 ∧ (pictured.mapFor 3 work0).warp[0]? = some ({} : WarpRec) ∧
    (((pictured.ctx 3).pictures task0).getD 0 [])[0]? = some { addr := 0, w := 2, h := 2 } ∧ warp0.row0 + warp0.rows ≤ warp0.h := by decide +kernel
/-- The bank of the grid is on and Warp's. -/
def gridded : State := pictured.onPal (fun p => { p with banks := [(0, { ctl := { state := 2, mode := 3 }, owner := 4 })] })
theorem wit_warp_grid : (gridded.readSpan 4 3 0 128).2.1 = false ∧ (({} : WarpRec).cell 0 (lumaAt false (fmtMid 0).2 1)).k + 1 < 3 ∧
    (2 : Nat) ≤ (({} : WarpRec).cell 0 (lumaAt false (fmtMid 0).2 1)).k + 1 := by decide +kernel
theorem wit_cache : work.wp.cache.any (fun x => x.1 == 9) = false ∧ work.wp.cache.length ≤ 4096 ∧ work.wp.wants 9 = none ∧
    (work.onWp (fun w => { w with jobs := [{ ctx := 3, work := work0, inp := warp0, need := [9] }] })).wp.wants 9 = some 3 ∧
    (work.onWp (fun w => { w with cache := [(9, 0)] })).wp.cache.any (fun x => x.1 == 9) = true := by decide +kernel

def tensors : State := work.onCtx 3 (fun x => { x with maps := { x.maps with a := some { map0 with pixel := [] } } })

theorem wit_unpack : work.task 3 7 1 = some task0 ∧ work.easel.tasks.filter (fun u => u.partOf task0) = [] ∧ work.wp.pReady = true ∧
    task0.last = true ∧ task0.ready = true ∧ task0.unpacked = false ∧ ((tensors.endParts task0).taskMap 3 task0).tensors = true := by decide +kernel
def unpacked0 : State := work.onEasel (fun e => { e with tasks := [{ task0 with unpacked := true }] })
theorem wit_pack : unpacked0.task 3 7 1 = some { task0 with unpacked := true } ∧ ({ task0 with unpacked := true } : Machine.Task).by_ = none ∧
    unpacked0.due { task0 with unpacked := true } = true ∧ task0.workOf 3 = true ∧ task0.packed < task0.blocks ∧ task0.line ≤ 0 ∧
    unpacked0.servable 3 = true ∧ unpacked0.ownWaits 3 { owner := 3, frame := 7, part := 1 } = false := by decide +kernel

def job0 : ClassJob := { ctx := 3, frame := 7, part := 1, path := .blend, tick := 0 }

theorem wit_classical : (work.onWp (fun w => { w with lane := [job0] })).wp.lane = job0 :: [] ∧
    work.task job0.ctx job0.frame.toNat job0.part = some task0 ∧ live.task job0.ctx job0.frame.toNat job0.part = none ∧ live.wp.lane = [] ∧
    task0.line ≤ 0 ∧ ratiosOk (((pictured.ctx 3).pictures task0).getD 0 []) [(2, 2)] = true := by decide +kernel

-- Posts.

/-- Ring 8 is an enabled completion ring with room. -/
def cq8 : State := live.onEasel (fun e => { e with rings := [(8, { enabled := true, dir := true, log2 := 4 })], waiting := [{ ring := 8, slot := 0 }], records := [{ ring := 8, slot := 0 }] })

theorem wit_post : cq8.easel.waiting.find? (fun w => w.ring == 8) = some { ring := 8, slot := 0 } ∧
    cq8.canPost 8 (1 + (pieces 64 ([] : List Byte)).length) = true ∧ cq8.easel.wholeFence = false ∧
    cq8.easel.records = { ring := 8, slot := 0 } :: [] ∧ cq8.canPost 8 1 = true ∧ live.easel.records = [] := by decide +kernel
theorem wit_no_post : ∀ n, live.canPost 8 n = false := by intro n; rfl

-- Glaze.

/-- An entry of one byte of tensor 1 is in compressor lane 5. -/
def job1 : GlzJob := { lane := 5, port := 0, dst := 3, aux := 4, ctx := 3, tensor := 1, elem := 2, gradient := false, data := [7] }
def coding : State := work.onGlaze (fun g => { g with jobs := [job1] })
/-- Records of 512 KiB wait for their acknowledgement. -/
def fullLane : State := coding.onGlaze (fun g => { g with sent := List.replicate 16 { id := 0, port := 0, dst := 3, param := 0, aux := 4, bytes := List.replicate 32768 0 } })
theorem wit_compress : coding.glaze.jobs.find? (fun j => j.lane == 5) = some job1 ∧ coding.glaze.jobs.find? (fun j => j.lane == 4) = none ∧
    coding.serving = true ∧ coding.glaze.ready = true ∧ coding.glaze.fenced = false ∧ coding.fab.fenced = false ∧
    coding.glaze.sentBytes 0 + (blockRecord coding.glaze.eff.rawcut.toNat 1 (coding.glaze.entryFor 1 2 [[7]]).gen.toNat 2
      (coding.glaze.entryFor 1 2 [[7]]).lens [7]).1.length ≤ 512 * 1024 ∧ fullLane.glaze.sentBytes 0 = 512 * 1024 := by decide +kernel

/-- A record with a table of tensor 1, a block record of it in generation 0, and one in generation 1. -/
def rec1 (b : List Byte) : GlzIn := { lane := 5, src := 0, port := 0, pair := 4, param := 0, bytes := b }
def table1 : GlzIn := rec1 (tableRecord 1 0 0 (List.replicate 256 8))
def block1 (gen : Nat) : GlzIn := rec1 (blockRecord 255 1 gen 0 (List.replicate 256 8) [7]).1
def dec0 : DecEntry := { src := 0, tensor := 1, gen := 0, used := 0, lens := List.replicate 256 8 }
/-- Context 3 holds pair 4, and the record waits for its lane; the table of generation 0 is held. -/
def decoding (r : GlzIn) : State := (work.onCtx 3 (fun x => { x with sems := [4] })).onGlaze (fun g => { g with dec := [dec0], inq := [r] })

theorem wit_expand : (decoding table1).expandNext 5 = some table1 ∧ (decoding table1).expandNext 4 = none ∧ table1.isTable = true ∧
    (decoding (block1 0)).expandNext 5 = some (block1 0) ∧ (block1 0).isTable = false ∧ (decoding (block1 0)).outOfUse (block1 0) = false ∧
    ((decoding (block1 0)).onCtx 3 (fun x => { x with fence := true })).outOfUse (block1 0) = true ∧
    (decoding (block1 0)).glaze.decode 0 (block1 0).bytes = some [7] ∧ (decoding (block1 1)).glaze.decode 0 (block1 1).bytes = none ∧
    (decoding { block1 0 with asked := true }).expandNext 5 = none := by decide +kernel

-- Palette and Window.

def bank0 (k : Bank) : State := live.onPal (fun p => { p with banks := [(255, k)] })
def onBank0 : Bank := { ctl := { state := 2, mode := 3 } }
def req0 : PalReq := { unit := 2, agent := 0, line := 8191, op := .read, upset := 0, noise := 0, declines := false, ctx := 0 }

theorem wit_pal_access : (bank0 {}).up = true ∧ ((bank0 {}).bank 255).on = false ∧ ((bank0 { onBank0 with owner := 2 }).bank 255).on = true ∧
    ((bank0 { onBank0 with owner := 2 }).bank 255).ownedBy 6 = false ∧ ((bank0 { onBank0 with owner := 2 }).bank 255).ownedBy 2 = true ∧
    ((bank0 { onBank0 with owner := 2, busy := true }).bank 255).busy = true ∧ ((bank0 { onBank0 with owner := 2 }).bank 255).clear = false ∧
    ({ req0 with agent := 6 } : PalReq).agent = 6 ∧ reqRank req0 < reqRank { req0 with agent := 2 } ∧
    reqRank { req0 with agent := 2 } < reqRank { req0 with agent := 6 } := by
  decide +kernel
theorem wit_bank_changes : ((bank0 { onBank0 with busy := true }).bank 255).conv = none ∧ ((bank0 { onBank0 with busy := true }).bank 255).convWait = none ∧
    ((bank0 { onBank0 with clear := true }).bank 255).clear = true ∧ ((bank0 { onBank0 with conv := some 2 }).bank 255).conv = some 2 ∧
    (bank0 onBank0).pal.tester.hold = none := by decide +kernel
theorem wit_raw : (live.onPal (fun p => { p with banks := [(0, onBank0)] })).rawOk = true ∧ live.rawOk = false ∧ live.pal.tester.hold = none := by decide +kernel

/-- The tester runs and bank 0, the only one on, may be borrowed. -/
def tester0 : State := live.onPal (fun p => { p with banks := [(0, { ctl := { state := 2 } })], tester := { p.tester with run := true } })

theorem wit_tester : tester0.pal.tester.run = true ∧ tester0.pal.tester.hold = none ∧ ((List.range 256).map (fun i => (tester0.pal.tester.turn + i) % 256)).find? (tester0.mayBorrow []) = some 0 ∧ live.pal.tester.run = false ∧
    (tester0.onPal (fun p => { p with tester := { p.tester with hold := some (0, 0, []) } })).pal.tester.hold = some (0, 0, []) := by decide +kernel
theorem wit_bank_waits : ((bank0 { onBank0 with owner := 2, busy := true }).bank 255).holdsUp = true ∧
    ((bank0 { onBank0 with owner := 2 }).bank 255).holdsUp = false ∧ ((bank0 { onBank0 with owner := 2, clear := true }).bank 255).holdsUp = true ∧
    ((bank0 { onBank0 with waiting := [req0] }).bank 255).waiting ≠ [] ∧ ((bank0 { onBank0 with waiting := [req0] }).bank 255).holdsUp = false ∧
    req0.op = .read ∧ ({ req0 with op := .write 0 0 } : PalReq).op ≠ .read ∧ req0.upset = 0 := by decide +kernel
theorem wit_credit_wait_unit : work.mayWait 0x50 3 = true ∧ work.retouchOn 0x50 3 = false ∧ work.retouchOn 4 3 = false ∧
    (tiling { tile1 with retouch := true }).retouchOn 0x50 3 = true ∧ (tiling { tile1 with retouch := true }).mayWait 0x50 3 = false ∧
    late.mayWait 0x50 3 = false := by decide +kernel

-- Swatches and moves.

def obj0 : Obj := { home := 3, allow := 0, dclass := 0, pin := false, ro := false, size := 2, base := 0, master := 0 }
def ent0 (st : SwState) : Entry := { obj := 9, idx := 1, st := st }

/-- Object 9 with its home in T3 and a copy of its swatch 1 in the state given. -/
def swatches (o : Obj) (t : List (Nat × Entry)) (s : State) : State := s.onSw (fun w => { w with objs := [(9, o)], table := t })

theorem wit_swatch_access : live.sw.swReady = true ∧ live.sw.swFenced = false ∧ live.obj 9 = none ∧ (swatches obj0 [] live).obj 9 = some obj0 ∧
    obj0.size ≤ 32768 / 16384 ∧ 32767 / 16384 < obj0.size ∧ obj0.ro = false ∧
    (swatches obj0 [(4, ent0 .resident)] live).sw.copy 9 1 = some (4, ent0 .resident) ∧
    (swatches obj0 [(4, ent0 .evicting)] live).sw.copy 9 1 = some (4, ent0 .evicting) ∧
    (swatches obj0 [(4, ent0 .promoting)] live).sw.copy 9 1 = some (4, ent0 .promoting) ∧
    (swatches obj0 [(4, ent0 .poisoned)] live).sw.copy 9 1 = some (4, ent0 .poisoned) := by decide +kernel
theorem wit_swatch_read_only : (swatches { obj0 with ro := true } [] live).obj 9 = some { obj0 with ro := true } ∧ SwOp.write 0 0 ≠ .read := by
  decide +kernel

def flight (m : Move) : State := (swatches obj0 [] live).onSw (fun w => { w with flight := [m] })

theorem wit_moves : (live.onSw (fun w => { w with queue := [{ kind := .demand, obj := 9, idx := 1 }] })).sw.queue.filter
      (live.onSw (fun w => { w with queue := [{ kind := .demand, obj := 9, idx := 1 }] })).startable ≠ [] ∧
    live.sw.mayFly = true ∧ live.sw.queue.filter live.startable = [] ∧
    (flight { kind := .demand, obj := 9, idx := 1 }).sw.inFlight 9 1 [.homeMove] = none ∧
    (flight { kind := .demand, obj := 9, idx := 1 }).sw.inFlight 9 1 fillKinds = some { kind := .demand, obj := 9, idx := 1 } ∧
    ((flight { kind := .refetch, obj := 9, idx := 1 }).onSw (fun w => { w with table := [(4, ent0 .resident)] })).sw.inFlight 9 1 [.refetch] =
      some { kind := .refetch, obj := 9, idx := 1 } := by decide +kernel
theorem wit_late_read : (flight { kind := .demand, obj := 9, idx := 1 }).sw.inFlight 9 1 (.refetch :: .homeMove :: fillKinds) =
      some { kind := .demand, obj := 9, idx := 1 } ∧ ((flight { kind := .demand, obj := 9, idx := 1 }).homeOf 9 1).1 = 3 ∧
    (flight { kind := .demand, obj := 9, idx := 1 }).sw.copy 9 1 = none ∧
    (flight { kind := .demand, obj := 9, idx := 1 }).homeReads 9 1 = [{ kind := .demand, obj := 9, idx := 1 }] ∧
    (flight { kind := .demand, obj := 9, idx := 1 }).sw.inFlight 9 1 [.refetch] = none ∧ live.homeReads 9 1 = [] ∧
    ((swatches { obj0 with home := 4 } [] live).homeOf 9 1).1 = 4 ∧
    (live.readerOf 2 3) = 3 ∧ live.realReader 3 = false ∧ (ctx3 live bound).realReader 3 = true := by decide +kernel

-- The Mover.

/-- Queue 8 has a good descriptor buffer in bank 255, which the Mover owns. -/
def queue8 (q : Queue) : State := (bank0 { onBank0 with owner := 2 }).onMover (fun m => { m with queues := [(8, q)] })
def goodQ : Queue := { good := some (255, 0, 1), bank := 255 }
def run0 : Machine.Run := { desc := 0, idx := 0, gen := 0, ctx := 3, blocks := [] }

theorem wit_arm : (queue8 goodQ).serving = true ∧ ((queue8 goodQ).queue 8).fenced = false ∧ ((queue8 goodQ).fetchDesc 8 1).1.isSome = true ∧
    ((queue8 { goodQ with run := some run0 }).fetchDesc 8 1).1.isSome = true := by decide +kernel
theorem wit_cancel : ((queue8 { goodQ with run := some run0 }).queue 8).run = some run0 ∧ ((queue8 goodQ).queue 8).run = none ∧
    ((queue8 { goodQ with cancelling := true }).queue 8).cancelling = true ∧ ((queue8 { goodQ with cancelling := true }).queue 8).out = [] ∧
    ((queue8 { goodQ with cancelling := true }).queue 8).surplus = [] ∧ ((queue8 { goodQ with cancelling := true }).queue 8).slot = none ∧
    ((queue8 { goodQ with out := [{ id := 1, kind := .pref 9 1, len := 64, ctx := 3, tick := 0, gen := 0 }] }).queue 8).out ≠ [] := by
  decide +kernel
theorem wit_semaphore : (0x200 : Word).getLsbD 9 = true ∧ (0x1FF : Word).getLsbD 9 = false ∧
    look 0 (live.onMover (fun m => { m with sems := [(511, 65535)] })).mover.sems (bits (0x3FF : Word).toNat 8 0) = 65535#16 ∧
    look 0 live.mover.sems (bits (0x3FF : Word).toNat 8 0) ≠ 65535#16 := by decide +kernel

/-- Queue 8 has a payload fetch of context 3 to do. -/
def offer8 : State := (work.onMover (fun m => { m with queues := [(8, { goodQ with jobs := [{ kind := .fetch 3 7 1 0, len := 64, ctx := 3, tick := 0 }] })] }))
def xfer0 : Xfer := { id := 1, kind := .fetch 3 7 1 0, len := 64, ctx := 3, tick := 0, gen := 0 }

theorem wit_issue : offer8.moverTurn = some 3 ∧ (((offer8.offers 8).filter offer8.offerStands).find? (fun o => o.ctx == 3)).isSome = true ∧
    live.moverTurn = none ∧ sumN (offer8.mover.queues.map (fun q => q.2.out.length)) < 512 := by decide +kernel
theorem wit_issue_full : 512 ≤ sumN ((work.onMover (fun m => { m with queues := [(8, { goodQ with out := List.replicate 512 xfer0 })] })).mover.queues.map
    (fun q => q.2.out.length)) := by decide +kernel
theorem wit_retire : (live.queue 8).out.find? (fun x => x.id == 1) = none ∧
    ((work.onMover (fun m => { m with queues := [(8, { goodQ with out := [{ xfer0 with got := [(0, List.replicate 64 0)] }] })] })).queue 8).out.find?
      (fun x => x.id == 1) = some { xfer0 with got := [(0, List.replicate 64 0)] } ∧
    (work.onMover (fun m => { m with queues := [(8, { goodQ with out := [{ xfer0 with got := [(0, List.replicate 64 0)] }] })] })).retires
      { xfer0 with got := [(0, List.replicate 64 0)] } = true := by decide +kernel

-- The Plan chest.

def good0 : ReadFinding := { bits := [24], retries := 0 }

theorem wit_chest : live.chest.readonly_ = false ∧ live.chest.fenced = false ∧ live.chest.ready = true ∧ protectedAddr true 0x04000000 = true ∧
    protectedAddr true 0x0413FFFF = true ∧ protectedAddr true 0x04140000 = false ∧ protectedAddr false 0x04000000 = false ∧
    live.chest.reloc.find? (fun r => r.1 == 3) = none ∧ live.chest.flash.wearDue 3 = false ∧ maxBits good0 ≤ live.chest.refreshT := by
  decide +kernel
theorem wit_chest_buffer : (live.onChest (fun c => { c with buffer := [{ sys := false, unit := unitKey false 0, data := [], ctx := 3, whole := true }] })).chest.buffer.any
    (fun w => w.unit == unitKey false 0) = true ∧ live.chest.buffer.any (fun w => w.unit == unitKey false 0) = false := by decide +kernel

/-- One unit lies in page 0 of block set 200. -/
def placed : State := live.onFlash (fun f => { f with places := [(0, 0, 200, 0)], blocks := [(200, { pages := [0] })] })

theorem wit_scan : placed.dead = false ∧ placed.ready = true ∧ placed.power ≤ 1 ∧
    (nextAfter placed.chest.scan placed.chest.flash.programmed).isSome = true := by
  decide +kernel
theorem wit_relocation : (live.onChest (fun c => { c with reloc := [(300, 1)] })).chest.reloc.find? (fun r => r.1 == 300) = some (300, 1) ∧
    (live.onChest (fun c => { c with reloc := [(300, 1)] })).chest.flash.unitsIn 300 = [] := by decide +kernel

def erasing (p : Nat) : State := live.onChest (fun c => { c with busy := [p] })

theorem wit_erase : (erasing 0).chest.busy.any (fun p => p / 4 == 200 / 2560) = true ∧ (erasing 0).chest.suspended.any (fun p => p / 4 == 200 / 2560) = false ∧
    (erasing 0).chest.flash.unitsIn 200 = [] ∧ (setBlocks (200 / 2560) (200 % 2560)).all (fun b => !slotBlock b) = true ∧
    (erasing 28).chest.busy.any (fun p => p / 4 == 20479 / 2560) = true ∧
    (setBlocks (20479 / 2560) (20479 % 2560)).all (fun b => !slotBlock b) = true ∧
    (live.onChest (fun c => { c with suspended := [31] })).chest.suspended.contains 31 = true := by decide +kernel
theorem wit_xip : (live.onChest (fun c => { c with eff := { c.eff with xipEn := true } })).chest.eff.xipEn = true ∧
    (live.onChest (fun c => { c with eff := { c.eff with xipEn := false } })).chest.eff.xipEn = false ∧ live.chest.eff.service = false := by decide +kernel

/-- Service mode; the raw registers name block 300 of plane 1. -/
def service0 : State := live.onChest (fun c => { c with eff := { c.eff with service := true }, rawPlane := 1, rawBlock := 300 })

theorem wit_raw_chest : service0.rawChest = true ∧ live.rawChest = false ∧ service0.rawProtected = false ∧
    ((service0.onChest (fun c => { c with rawBlock := 127 })).onPins (fun p => { p with flWp := true })).rawProtected = true ∧
    (service0.onFlash (fun f => f.onBlocks [service0.chest.rawBlk] (fun b => { b with pages := [0] }))).chest.rawWritten = true := by decide +kernel

-- The host link.

def hl0 (m : Module) : State := live.onLink (fun l => { l with hl0 := m })

theorem wit_training : modExists (.hl 1) = true ∧ (hl0 { st := .training }).mayTrain (.hl 0) = true ∧
    ((hl0 { st := .training }).modOf (.hl 0)).st = .training ∧ ((hl0 { st := .retrain }).modOf (.hl 0)).st = .retrain ∧
    ((hl0 { st := .training }).modOf (.hl 0)).again = false ∧ ((hl0 { st := .down }).modOf (.hl 0)).st = .down ∧
    (hl0 { st := .down }).mayTrain (.hl 0) = true ∧ (live.modOf (.hl 0)).st = .active ∧ (live.modOf (.hl 1)).st = .reset ∧
    ((hl0 { vddq := false }).modOf (.hl 0)).vddq = false ∧ modExists (.fab 3) = true ∧
    (live.onPort 0 (fun p => { p with mod := { st := .training } })).mayTrain (.fab 0) = true := by decide +kernel
theorem wit_reset_release : State.reset.boot.held = true ∧ (State.reset.onPins (fun p => { p with pwrGood := true })).pins.pwrGood = true ∧
    live.boot.held = false := by decide +kernel
theorem wit_doorbells : (32767 : Nat) < 32768 ∧ live.power < 2 ∧ live.ready = true ∧ (live.onEasel (fun e => { e with running := false })).ready = false ∧
    (0x5C30 : Half) ≠ 0x5C31 ∧ (3 : Byte) < 4 := by decide +kernel
theorem wit_frames : live.carries .host = true ∧ (live.onPort 2 (fun p => { p with mod := { st := .active } })).carries (.fab 2) = true ∧
    State.reset.link.hl0.st ≠ .active ∧ (hl0 { st := .down }).link.hl1.st ≠ .active ∧ (hl0 { st := .down }).manager = true ∧
    (hl0 { st := .down }).dead = false ∧ (hl0 { st := .down }).up = true := by decide +kernel
theorem wit_host_frames : (live.layer .host).rxNext = 0 ∧ (0 - (65535 : Half)).toNat ≤ 32768 ∧ (65535 : Half) ≠ 0 ∧
    (live.onLink (fun l => { l with reads := [{ id := 7, by_ := .ringHdr 5 }] })).link.reads.find? (fun y => y.id == 7) =
      some { id := 7, by_ := .ringHdr 5 } := by decide +kernel

/-- The blocks listed are bad. -/
def worn (ks : List Nat) : State := live.onChest (fun c => { c with reloc := [(300, 1)], flash := { c.flash with factory := ks, blocks := [] } })
theorem worn_no_fresh_set (ks : List Nat) (h : ∀ b, b < 81920 → ks.contains b = true) : (worn ks).chest.flash.freshSet = none := by
  have none_free : (List.range 20480).find? (fun k => (worn ks).chest.flash.erasedSet k && (worn ks).chest.flash.setErases k == 0) = none := by
    rw [List.find?_eq_none]
    intro k hk
    have : k < 20480 := List.mem_range.mp hk
    have bad : (worn ks).chest.flash.usable ((4 * (k / 2560)) * 2560 + k % 2560) = false := by
      have := h ((4 * (k / 2560)) * 2560 + k % 2560) (by omega)
      simp only [Flash.usable]; rw [show (worn ks).chest.flash.factory = ks from rfl, this]; simp
    simp [Flash.erasedSet, setBlocks, List.range, List.range.loop, bad]
  unfold Flash.freshSet
  simp only [none_free]; rfl
theorem wit_no_fresh_set : (worn (List.range 81920)).chest.flash.freshSet = none :=
  worn_no_fresh_set _ (fun _ h => List.contains_iff_mem.mpr (List.mem_range.mpr h))
theorem wit_relocation_listed (ks : List Nat) : (worn ks).chest.reloc.find? (fun r => r.1 == 300) = some (300, 1) := rfl

-- Commands: opcode, context and fields of the header, as the rows of the command set lay them out.

theorem wit_taken : Safety.Taken (front (hdr 1 3 []) live) (pkt (hdr 1 3 [])) (isOp 0x01) := by
  refine ⟨⟨{ ring := 5, idx := 0, hdr := hdr 1 3 [] }, ?_, rfl, rfl⟩, ?_, rfl, ?_⟩ <;> decide +kernel
theorem wit_other_header : ∀ h, live.nextHeader = some h → h.ring ≠ (pkt 0).ring ∨ h.hdr ≠ (pkt 0).hdr := by
  intro h e; rw [show live.nextHeader = none from by decide +kernel] at e; exact nomatch e
theorem wit_unsupported : meets live (hdr 0xFF 3 []) (fun h => !knownOp (hdrOp h) || (!live.manager && (hdrOp h == 0x60 || hdrOp h == 0x61)))
    (fun _ _ => true) = true := by decide +kernel
theorem wit_open_close : meets live (hdr 1 3 []) (isOp 0x01) (fun t u => (u.ctx t.ctx).st == .closed) = true ∧
    meets (ctx3 live bound) (hdr 1 3 []) (isOp 0x01) (fun t u => (u.ctx t.ctx).st != .closed) = true ∧
    meets (ctx3 live bound) (hdr 3 3 []) (isOp 0x03) (fun t u => ((u.clamps t (t.lengthClamp 0)).ctx t.ctx).st == .bound) = true ∧
    meets live (hdr 3 3 []) (isOp 0x03) (fun t u => ((u.clamps t (t.lengthClamp 0)).ctx t.ctx).st == .closed) = true := by decide +kernel
theorem wit_bind : meets live (hdr 2 3 []) (isOp 0x02) (fun t u => (u.ctx t.ctx).st == .closed) = true ∧
    meets (ctx3 live { st := .open_ }) (hdr 2 3 []) (isOp 0x02) (fun t u => (u.ctx t.ctx).st == .open_ && (u.ctx t.ctx).maps.a.isNone) = true ∧
    meets (ctx3 live bound) (hdr 2 3 [(128, 1)]) (isOp 0x02) (fun t u => (u.ctx t.ctx).st == .bound && t.f 129 128 == 1) = true := by decide +kernel
theorem wit_abort : meets work (hdr 0x32 3 []) (isOp 0x32) (fun t u => (u.ctx t.ctx).st == .bound && (u.ctx t.ctx).abortCmds.isEmpty) = true ∧
    ((work.onCtx 3 (fun x => { x with abortCmds := [cmd0] })).ctx 3).abortCmds ≠ [] ∧ work.atBoundary 3 = true ∧ (live.ctx 3).abortCmds = [] := by
  decide +kernel

-- Objects. The record bank of the range is there, so that no bank has to be taken.

def room (s : State) : State := s.onSw (fun w => { w with pool := [200], records := [(0, 201)] })
def defObj : List (Nat × Nat) := [(128, 9), (148, 2), (178, 3)]

theorem wit_define : meets (room live) (hdr 0x10 3 defObj) (fun h => isOp 0x10 h && hdrBits h 9 9 == 0) (fun t u => (u.obj (t.f 147 128)).isNone &&
      homeField (t.f 180 178) == 3 && decide (0 < t.f 177 148) && !u.serviceBars 3 && !u.serviceBars 0 &&
      ((u.dropObj (t.f 147 128)).recordBank (t.f 147 128)).1 && (u.dropObj (t.f 147 128)).homeSize 3 (t.f 255 192) (t.f 177 148) != 0) = true ∧
    meets (swatches { obj0 with ref := 1 } [] live) (hdr 0x10 3 defObj) (fun h => isOp 0x10 h && hdrBits h 9 9 == 0) (fun t u =>
      u.obj (t.f 147 128) == some { obj0 with ref := 1 }) = true := by decide +kernel
theorem wit_undefine : meets (swatches obj0 [] live) (hdr 0x10 3 ((9, 1) :: defObj)) (fun h => isOp 0x10 h && hdrBits h 9 9 == 1) (fun t u =>
      (u.clamps t (t.lengthClamp 0)).obj (t.f 147 128) == some obj0 && obj0.ref == 0 && !(u.clamps t (t.lengthClamp 0)).serviceBars obj0.home.toNat) = true ∧
    meets live (hdr 0x10 3 ((9, 1) :: defObj)) (fun h => isOp 0x10 h && hdrBits h 9 9 == 1) (fun t u =>
      ((u.clamps t (t.lengthClamp 0)).obj (t.f 147 128)).isNone) = true ∧
    meets (swatches { obj0 with ref := 1 } [] live) (hdr 0x10 3 ((9, 1) :: defObj)) (fun h => isOp 0x10 h && hdrBits h 9 9 == 1) (fun t u =>
      (u.clamps t (t.lengthClamp 0)).obj (t.f 147 128) == some { obj0 with ref := 1 }) = true := by decide +kernel
theorem wit_place : meets (swatches { obj0 with home := 1 } [] live) (hdr 0x13 3 [(128, 9), (178, 1)]) (isOp 0x13) (fun t u =>
      u.obj (t.f 147 128) == some { obj0 with home := 1 } && homeField (t.f 180 178) == 1 && !u.serviceBars 1) = true ∧
    meets live (hdr 0x13 3 [(128, 9)]) (isOp 0x13) (fun t u => (u.obj (t.f 147 128)).isNone) = true := by decide +kernel
theorem wit_write : meets (swatches obj0 [] live) (hdr 0x11 3 [(128, 9)]) (isOp 0x11) (fun t u =>
      let v := u.clamps t (bad (t.f 191 148 != t.f 191 148 / 64 * 64) 148)
      t.f 9 9 == 0 && v.obj (t.f 147 128) == some obj0 && !v.serviceBars 3 &&
        decide (t.payload.length ≤ sumN ((v.writeItems (t.f 147 128) obj0.size (t.f 191 148 / 64 * 64) t.payload []).map (fun x => x.2.2.2.2)))) = true ∧
    meets ((swatches { obj0 with home := 4 } [] live).onChest (fun c => { c with fenced := true })) (hdr 0x11 3 [(128, 9)]) (isOp 0x11) (fun t u =>
      let v := u.clamps t (bad (t.f 191 148 != t.f 191 148 / 64 * 64) 148)
      v.obj (t.f 147 128) == some { obj0 with home := 4 } && !v.serviceBars 4 && !v.chestWritable) = true ∧
    meets live (hdr 0x11 3 [(128, 9)]) (isOp 0x11) (fun t u => (u.obj (t.f 147 128)).isNone && t.f 9 9 == 0) = true := by decide +kernel
theorem wit_read : meets (swatches obj0 [] live) (hdr 0x12 3 [(128, 9), (192, 64)]) (isOp 0x12) (fun t u =>
      let off := t.f 191 148 / 64 * 64
      let len := clampN 64 4194304 ((t.f 214 192 + 63) / 64 * 64)
      let v := u.clamps t (bad (t.f 191 148 != off) 148 ++ bad (t.f 214 192 != len) 192 ++ t.lengthClamp 0)
      v.obj (t.f 147 128) == some obj0 && !v.serviceBars 3 && decide (off + len ≤ obj0.size * 16384) && decide (len ≤ v.dataLimit t.cmd)) = true := by decide +kernel
/-- Context 3 has a trained copy of its layer 0: an object no other defines may be that copy (R230). -/
theorem wit_trained : (ctx3 live { bound with low := [(0, {})] }).trained (Config.retouchObj 3 0).toNat = some ({} : LowRank).bytes ∧
    (live.trained 9) = none ∧ meets live (hdr 0x12 3 [(128, 9), (192, 64)]) (isOp 0x12) (fun t u => (u.obj (t.f 147 128)).isNone &&
      decide (clampN 64 4194304 ((t.f 214 192 + 63) / 64 * 64) ≤ u.dataLimit t.cmd)) = true := by
  refine ⟨?_, by decide +kernel, by decide +kernel⟩
  rw [State.trained]
  show List.findSome? _ [(3, { bound with low := [(0, {})] })] = _
  simp
-- Models, panels, runs, settings.

theorem wit_switch : meets (work.onCtx 3 (fun x => { x with maps := { x.maps with b := some map0 } })) (hdr 0x21 3 []) (isOp 0x21) (fun t u =>
      let v := u.clamps t (t.lengthClamp 0)
      (v.ctx t.ctx).st == .bound && (v.ctx t.ctx).maps.live && (v.ctx t.ctx).maps.staged.isSome) = true ∧
    meets work (hdr 0x21 3 []) (isOp 0x21) (fun t u => (u.clamps t (t.lengthClamp 0)).ctx t.ctx |>.maps.staged.isNone) = true := by decide +kernel
theorem wit_stage_refused : meets live (hdr 0x20 3 [(128, 9)]) (isOp 0x20) (fun t u => (u.obj (t.f 147 128)).isNone) = true ∧
    meets (swatches obj0 [] live) (hdr 0x20 3 [(128, 9)]) (isOp 0x20) (fun t u => u.obj (t.f 147 128) == some obj0 && (u.ctx t.ctx).st == .closed) = true := by
  decide +kernel
/-- A manifest of one header and no sections, with its CRC. -/
def man0 : List Byte :=
  let m (crc : Nat) : List Byte := bytesOf 4 0x5C4E7CA5 ++ [2, 0, 0, 0] ++ bytesOf 4 crc ++ bytesOf 4 64 ++ List.replicate 48 0
  m (manifestCrc (m 0))

theorem wit_stage : meets ((swatches obj0 [] work).onEasel (fun e => { e with dispatch := [7] })) (hdr 0x20 3 [(128, 9)]) (isOp 0x20) (fun t u =>
    let v := u.clamps t (bad false 148 ++ t.lengthClamp 0)
    let h := State.readSwatches 9 0 man0 [0] v
    let m := State.readSwatches 9 0 man0 ((List.range (ceilDiv (fieldB (h.1.take 64) 12 4) 16384)).map (0 + ·)) h.2.2.2
    let man := m.1.take (fieldB (h.1.take 64) 12 4)
    v.obj (t.f 147 128) == some obj0 && (v.ctx t.ctx).st == .bound && t.f 191 148 == 0 && !h.2.1 && manifestOk (h.1.take 64) 32768 && !m.2.1 &&
      manifestCrc man == fieldB (h.1.take 64) 8 4 && (recsOf man (sectionsOf man).1 8).isEmpty &&
      (m.2.2.2.takePieces (ceilDiv (fieldB (h.1.take 64) 12 4) 65536)).1.isSome) = true := by decide +kernel
theorem wit_panel_program : meets (swatches obj0 [] live) (hdr 0x22 3 [(128, 9)]) (isOp 0x22) (fun t u => u.targetPanel t |>.1 |>.isSome) = true := by
  decide +kernel

/-- Panel 0 serves an image of object 9 and may be re-primed. -/
def image0 (s : State) : State := s.onPanel 0 (fun p => { p with st := .serving, src := some { obj := 9, off := 0 }, allow := 4 })

theorem wit_panel_reprime : meets (swatches obj0 [] (image0 live)) (hdr 0x23 3 []) (isOp 0x23) (fun t u => (u.targetPanel t).1 == some 0 &&
      (u.panel 0).st == .serving && (u.panel 0).src == some { obj := 9, off := 0 } && (u.panel 0).allow != 0 && (u.group 0).queue.isEmpty) = true ∧
    meets live (hdr 0x23 3 []) (isOp 0x23) (fun t u => (u.targetPanel t).1 == some 0 && (u.panel 0).src.isNone) = true := by decide +kernel
theorem wit_panel_fenced : meets (swatches obj0 [] (live.onPanel 0 (fun p => { p with st := .fenced }))) (hdr 0x22 3 [(128, 9)]) (isOp 0x22) (fun t u =>
      (u.targetPanel t).1 == some 0 && (u.panel 0).st == .fenced) = true ∧
    meets (swatches obj0 [] live) (hdr 0x22 3 [(128, 9)]) (isOp 0x22) (fun t u => (u.targetPanel t).1 == some 0 && (u.panel 0).st != .fenced &&
      u.obj (t.f 147 128) == some obj0) = true := by decide +kernel
theorem wit_runs : meets work (hdr 0x30 3 []) (isOp 0x30) (fun t u => decide (t.f 133 128 ≤ u.tick.slices - 1) && (u.ctx t.ctx).st == .bound &&
      (u.ctx t.ctx).runs.isEmpty) = true ∧
    meets (work.onCtx 3 (fun x => { x with runs := [(1, 0)] })) (hdr 0x30 3 []) (isOp 0x30) (fun t u => (u.ctx t.ctx).runs.contains (u.tick.count + 1, t.f 133 128)) = true ∧
    meets live (hdr 0x30 3 []) (isOp 0x30) (fun t u => (u.ctx t.ctx).st == .closed) = true ∧
    meets work (hdr 0x31 3 []) (isOp 0x31) (fun t u => (u.ctx t.ctx).st == .bound && t.f 136 136 == 0 && t.f 135 128 == (u.partsTaken t.ctx (t.f 191 160)).length) = true := by
  decide +kernel
theorem wit_retouch_cmd : meets (swatches obj0 [] work) (hdr 0x50 3 [(152, 9), (172, 9)]) (isOp 0x50) (fun t u => (u.ctx t.ctx).st == .bound &&
      (u.obj (t.f 171 152)).isSome && (u.obj (t.f 191 172)).isSome && !(u.ctx t.ctx).fence) = true ∧
    meets (swatches obj0 [] (work.onCtx 3 (fun x => { x with fence := true }))) (hdr 0x50 3 [(152, 9), (172, 9)]) (isOp 0x50) (fun t u =>
      (u.ctx t.ctx).fence) = true := by decide +kernel
theorem wit_settings : meets live (hdr 0x40 3 []) (isOp 0x40) (fun _ _ => true) = true ∧
    meets live (hdr 0x41 3 []) (isCal 0) (fun t _ => t.f 143 140 == 0) = true ∧
    meets live (hdr 0x41 3 [(140, 8)]) (isCal 0) (fun t _ => t.f 143 140 == 8) = true ∧
    meets live (hdr 0x41 3 [(128, 1)]) (isCal 1) (fun _ _ => true) = true ∧ meets live (hdr 0x41 3 [(128, 2)]) (isCal 2) (fun _ _ => true) = true := by
  decide +kernel

/-- A program of panel 34, the first of group 2, is granted. -/
def programming0 (begun again : Bool) : State := live.onPanel 34 (fun p => { p with
  req := some ({ kind := 2, panel := 34, src := { obj := 9, off := 0 }, cmd := none, begun := begun }, again) })

theorem wit_program : (programming0 true false).running 2 = some 34 ∧ live.running 2 = none ∧ live.nextReq 2 = none ∧
    ((programming0 true true).panel 34).req = some ({ kind := 2, panel := 34, src := { obj := 9, off := 0 }, cmd := none, begun := true }, true) := by decide +kernel
theorem wit_program_image : (((swatches obj0 [] (programming0 false false)).onGroup 2 (fun g => { g with buf := [(34, { obj := 9, off := 0 }, [])] })).bufferedImage 2 { kind := 2, panel := 34, src := { obj := 9, off := 0 }, cmd := none } []).1.2 = true ∧
    (swatches obj0 [] (programming0 false false)).running 2 = some 34 := by decide +kernel

-- Power, reset, firmware, diagnostics.

theorem wit_power : meets live (hdr 0x70 0 []) (isPower 0) (fun _ _ => true) = true ∧
    meets live (hdr 0x70 0 [(128, 1)]) (isPower 1) (fun t u => powerState t.cmd.hdr == 1 && !u.boot.trial) = true ∧
    meets live (hdr 0x70 0 [(128, 4)]) (isPower 4) (fun t _ => powerState t.cmd.hdr == 4) = true ∧
    meets (live.onBoot (fun b => { b with trial := true })) (hdr 0x70 0 [(128, 2)]) (isPower 2) (fun _ u => u.boot.trial) = true ∧
    live.pmu.entering = none ∧ (programming0 true false).programming = true := by decide +kernel

/-- Asleep in a state, with the sources enabled and at level. -/
def asleep (st en lvl : Nat) : State := live.onPmu (fun p => { p with asleep := true, mode := BitVec.ofNat 3 st, en := BitVec.ofNat 3 en, lvl := BitVec.ofNat 3 lvl, timer := 50 })

theorem wit_wake : ((asleep 1 1 1).onPins (fun p => { p with wake := true && !false })).fires 0 true (true && !(asleep 1 1 1).pins.wake) 0 = true ∧
    ((asleep 1 1 0).onPins (fun p => { p with wake := true && !false })).fires 0 true (true && !(asleep 1 1 0).pins.wake) 4 = false ∧
    ((asleep 1 1 0).onPins (fun p => { p with wake := true && !false })).fires 0 true (true && !(asleep 1 1 0).pins.wake) 5 = true ∧
    ((asleep 1 2 2).onPmu (fun m => { m with sideLevel := true })).fires 1 true true 0 = true ∧
    ((asleep 1 0 0).onPmu (fun m => { m with sideLevel := true })).fires 1 true true 9 = false ∧
    (asleep 1 4 0).fires 2 true true 5 = true ∧ (asleep 1 4 0).pmu.timer.toNat = 50 ∧ 2 ≤ (asleep 2 1 1).power ∧ (asleep 1 1 1).power = 1 := by decide +kernel
theorem wit_resume : ((asleep 1 1 1).onPmu (fun p => { p with leaving := some 1 })).pmu.leaving = some 1 ∧ (asleep 1 1 1).pmu.asleep = true ∧
    (asleep 1 1 1).pmu.leaving = none := by decide +kernel
theorem wit_hours : (live.onTick (fun k => { k with begun := true, count := 65536 })).tick.count.toNat % 65536 = 0 ∧
    (live.onTick (fun k => { k with count := 65535 })).tick.count.toNat % 65536 ≠ 0 ∧ live.pins.pwrGood = true ∧
    (live.onPins (fun p => { p with hoursLoaded := true, aonHours := 2190 })).pins.gains < 2190 / 2190 ∧ 2189 / 2190 ≤ live.pins.gains ∧
    live.boot.secReady = true ∧ live.boot.secFenced = false ∧ live.boot.keyReady = false ∧
    (live.onBoot (fun b => { b with newDigest := true })).boot.newDigest = true := by decide +kernel
theorem wit_reset : (true || !true) = true ∧ (false || !false) = true ∧ (live.onBoot (fun b => { b with wdogRun := true })).boot.wdogRun = true ∧
    (live.onBoot (fun b => { b with wdogRun := true })).dead = false := by decide +kernel

/-- Released from reset, before the start; the record says that both slots failed. -/
def starting : State := { State.reset with boot := { held := false, nv := { rec_ := some { stA := 3, stB := 3 } } } }

theorem wit_start : starting.dead = false ∧ starting.boot.phase = 0 ∧ starting.easel.running = false := by decide +kernel
theorem wit_no_slot : (State.chooseSlot true true ((starting.onBoot (fun b => { b with error := if b.cause = 1 then 7 else 0 })).loadFuses.seedChest.onWin
    (fun w => { w with power := 2 }))).1 = none := rfl
theorem wit_recovery : (live.onBoot (fun b => { b with phase := 9, recGo := true })).boot.recGo = true ∧
    ((live.onBoot (fun b => { b with phase := 9, recGo := true })).onPins (fun p => { p with flWp := true })).pins.flWp = true := by decide +kernel

def slotA : State := (live.onBoot (fun b => { b with stageOpen := true })).onPins (fun p => { p with flWp := false })

theorem wit_firmware : meets slotA (hdr 0x80 0 []) (isOp 0x80) (fun t u => decide (t.f 140 128 ≤ 6143) && decide (t.f 191 160 ≤ 25165824) &&
      !(u.boot.trial || u.chest.eff.service || (t.f 9 9 != 1 && !u.boot.stageOpen)) && u.chestWritable && !u.pins.flWp && t.f 9 9 == 0 && t.f 10 10 == 0) = true ∧
    meets live (hdr 0x80 0 []) (isOp 0x80) (fun t u => t.f 9 9 != 1 && !u.boot.stageOpen) = true ∧
    meets (slotA.onPins (fun p => { p with flWp := true })) (hdr 0x80 0 [(128, 6143)]) (isOp 0x80) (fun t u => u.pins.flWp && decide (t.f 140 128 ≤ 6143)) = true ∧
    meets live (hdr 0x81 0 []) (isOp 0x81) (fun _ _ => true) = true := by decide +kernel

def swapping : State := live.onBoot (fun b => { b with settle := 3, phase := 11 })
def trial (n : Nat) : State := live.onBoot (fun b => { b with trial := true, left := BitVec.ofNat 7 n })

theorem wit_swap : swapping.serving = true ∧ swapping.boot.settle = 3 ∧ swapping.boot.phase = 11 ∧ swapping.link.urgPending = 0 ∧
    swapping.urgentTaken = [] ∧ (swapping.onLink (fun l => { l with urgPending := 1 })).link.urgPending ≠ 0 ∧ (trial 0).up = true ∧
    (trial 0).boot.trial = true ∧ (trial 0).boot.switch = false ∧ (trial 0).boot.left = 0 ∧ (trial 1).boot.left ≠ 0 ∧ (trial 0).dead = false := by decide +kernel

def diag (f : Nat) (fs : List (Nat × Nat)) : Line := hdr 0x90 3 ((128, f) :: fs)

theorem wit_diag : meets work (diag 1 [(136, 1)]) (isDiag 1) (fun t _ => t.f 136 136 == 1) = true ∧
    meets live (diag 6 []) (isDiag 6) (fun _ u => !u.sw.swFenced) = true ∧
    meets (live.onSw (fun w => { w with swFenced := true })) (diag 6 []) (isDiag 6) (fun _ u => u.sw.swFenced) = true ∧
    meets live (diag 7 []) (isDiag 7) (fun _ _ => true) = true ∧ meets live (diag 8 []) (isDiag 8) (fun _ _ => true) = true ∧
    meets live (diag 9 []) (fun h => hdrOp h == 0x90 && !(decide (1 ≤ hdrBits h 135 128 ∧ hdrBits h 135 128 ≤ 8))) (fun _ _ => true) = true ∧
    meets live (diag 0 []) (fun h => hdrOp h == 0x90 && !(decide (1 ≤ hdrBits h 135 128 ∧ hdrBits h 135 128 ≤ 8))) (fun _ _ => true) = true ∧
    meets live (diag 3 [(136, 262143)]) (isDiag 3) (fun t _ => decide (t.f 156 136 ≤ 262143)) = true ∧
    meets live (hdr 0x91 3 []) (isOp 0x91) (fun _ _ => true) = true := by decide +kernel
theorem wit_pal_check : meets (bank0 onBank0) (diag 2 [(136, 255)]) (isDiag 2) (fun t u => !(u.bank (t.f 143 136)).fenced && (u.bank (t.f 143 136)).owner == 0 &&
      (u.bank (t.f 143 136)).on) = true ∧
    meets (bank0 { onBank0 with fenced := true }) (diag 2 [(136, 255)]) (isDiag 2) (fun t u => (u.bank (t.f 143 136)).fenced) = true ∧
    meets (bank0 { onBank0 with owner := 2 }) (diag 2 [(136, 255)]) (isDiag 2) (fun t u => (u.bank (t.f 143 136)).owner != 0) = true ∧
    meets live (diag 2 [(136, 255)]) (isDiag 2) (fun t u => !(u.bank (t.f 143 136)).fenced && (u.bank (t.f 143 136)).owner == 0 && !(u.bank (t.f 143 136)).on) = true := by
  decide +kernel
theorem wit_service : meets live (diag 4 [(136, 1)]) (isDiag 4) (fun t u => !u.chest.fenced && t.f 136 136 == 1 && u.serviceAllowed) = true ∧
    meets (live.onChest (fun c => { c with fenced := true })) (diag 4 []) (isDiag 4) (fun _ u => u.chest.fenced) = true ∧
    meets service0 (diag 5 [(136, 4), (144, 2559)]) (isDiag 5) (fun t u => decide (t.f 155 144 ≤ 2559) && !u.chest.fenced && u.chest.eff.service && t.f 138 136 == 4) = true ∧
    meets live (diag 5 []) (isDiag 5) (fun _ u => !u.chest.eff.service && !u.chest.fenced) = true ∧
    meets (live.onChest (fun c => { c with fenced := true })) (diag 5 []) (isDiag 5) (fun _ u => u.chest.fenced) = true := by decide +kernel

-- The fabric. A frame arrives on port 0.

/-- The manager with port 0 active, or a member whose uplink it is. -/
def fab0 (s : State) : State := s.onPort 0 (fun p => { p with mod := { st := .active } })
def worker : State := fab0 (live.onFab (fun f => { f with strap := 0, selfAddr := 0, joinedSelf := true }))

/-- The state that has acknowledged frame 0 of port 0. -/
def acked (s : State) : State := s.onLayer (.fab 0) (fun y => { y with rxNext := y.rxNext + 1, acks := y.acks + 1 })

/-- The kinds of frame and their virtual channels. -/
def kinds : List (Nat × Nat) := [(0x03, 0), (0x11, 1), (0x12, 1), (0x13, 1), (0x14, 1), (0x15, 1), (0x20, 2), (0x21, 2), (0x22, 2), (0x23, 2),
  (0x24, 2), (0x25, 2), (0x30, 3), (0x31, 3), (0x32, 3), (0x33, 3), (0x40, 4), (0x41, 4), (0x42, 4), (0x43, 4)]
/-- Every frame kind reaches the manager and a member: the premises of Safety.arrives but the equation that names the state after. -/
theorem wit_arrives : kinds.all (fun k => [(fab0 live, frame0), (worker, { frame0 with dst := 0 })].all (fun p =>
    p.1.carries (.fab 0) && !p.1.fab.fenced && (p.1.checkFrame (.fab 0) p.2.rx).1 &&
      (((p.1.checkFrame (.fab 0) p.2.rx).2.linesBack k.1 k.2 p.2).hopOut p.2).isNone &&
      p.2.dst == ((p.1.checkFrame (.fab 0) p.2.rx).2.linesBack k.1 k.2 p.2).addr)) = true := by decide +kernel
theorem wit_arrives_manager : Safety.arrives 0x11 1 (fab0 live) frame0 ((acked (fab0 live)).linesBack 0x11 1 frame0) := by
  refine ⟨?_, ?_, rfl, ⟨acked (fab0 live), ?_, rfl⟩, ?_, .inl ?_⟩ <;> decide +kernel
theorem wit_arrives_worker : Safety.arrives 0x12 1 worker { frame0 with dst := 0 } ((acked worker).linesBack 0x12 1 { frame0 with dst := 0 }) := by
  refine ⟨?_, ?_, rfl, ⟨acked worker, ?_, rfl⟩, ?_, .inl ?_⟩ <;> decide +kernel
theorem wit_roles : (fab0 live).manager = true ∧ worker.isMember = true ∧ worker.manager = false ∧ worker.power ≤ 1 ∧ worker.serving = true ∧
    (fab0 live).gone 3 = false ∧ ((fab0 live).onFab (fun f => { f with joined := 8 })).gone 3 = false := by decide +kernel
theorem wit_join : meets live (hdr 0x60 0 [(128, 1)]) (fun h => isOp 0x60 h && live.manager) (fun _ _ => true) = true := by decide +kernel

def joining0 (q : Nat) : State := (fab0 live).onFab (fun f => { f with joining := some { cmd := cmd0, left := [(0, q)] } })

theorem wit_enum_reply : ((joining0 3).fab.joining.map (·.left)).getD [] = [(0, 3)] ∧ (3 ≤ (3 : Byte).toNat) ∧
    (bit (0x80020000 : Word).toNat 3 || bits (0x80020000 : Word).toNat 23 16 != 2 || !bit (0x80020000 : Word).toNat 31) = false ∧
    (bit (0x80020008 : Word).toNat 3 || bits (0x80020008 : Word).toNat 23 16 != 2 || !bit (0x80020008 : Word).toNat 31) = true ∧
    ((fab0 live).onFab (fun f => { f with rmt := { f.rmt with outstanding := true, stack := 3 } })).fab.rmt.stack.toNat = 3 ∧
    hdrBits (lineOf ([] : List Byte)) 223 192 ≠ 8 ∧ kindOk 0x16 1 = false ∧ kindOk 0x26 2 = false := by decide +kernel
theorem wit_remote : live.fab.joined.getLsbD live.fab.rmt.stack.toNat = false ∧
    16 ≤ (live.onFab (fun f => { f with rmt := { f.rmt with stack := 16 } })).fab.rmt.stack.toNat ∧
    (live.onFab (fun f => { f with joined := 0x8000, rmt := { f.rmt with stack := 15 } })).fab.joined.getLsbD 15 = true ∧
    (live.onFab (fun f => { f with joined := 0x8000, rmt := { f.rmt with stack := 15 } })).gone 15 = false ∧ (0x7FFFFFFF : Word).getLsbD 31 = false ∧
    live.fab.lend.shBanks = 0 ∧ live.fab.lend.lent = [] := by decide +kernel
theorem wit_lend : (live.onFab (fun f => { f with lend := { f.lend with lent := [200] } })).fab.lend.lent.contains 200 = true ∧
    (live.onFab (fun f => { f with lend := { f.lend with lent := [200] } })).fab.lend.offered.contains 200 = false := by decide +kernel
theorem wit_hop : (live.onFab (fun f => { f with joined := 0x8000 })).fab.joined.getLsbD (4 * 3 + 3) = true ∧
    ((live.onPort 3 (fun p => { p with mod := { st := .active } })).port 3).mod.st = .active ∧
    (live.onEasel (fun e => { e with reinstall := [200] })).easel.reinstall.contains 200 = true ∧
    ((live.onEasel (fun e => { e with reinstall := [200] })).takeBanks 1 1 true false).1.length = 1 := by decide +kernel

/-- Worker 0 has joined. -/
def one : State := (room (swatches obj0 [] live)).onFab (fun f => { f with joined := 1 })

theorem wit_broadcast : meets one (hdr 0x61 0 [(128, 9), (192, 2), (224, 1)]) (fun h => isOp 0x61 h && one.manager) (fun t u =>
      below 16 (fun d => bit (t.f 239 224) d && u.fab.joined.getLsbD d && !u.gone d) == [0] && u.obj (t.f 147 128) == some obj0 && !u.glaze.fenced &&
      decide (t.f 191 148 / 16384 * 16384 / 16384 + max 1 (t.f 221 192) ≤ obj0.size)) = true ∧
    meets one (hdr 0x61 0 [(128, 8), (224, 1)]) (fun h => isOp 0x61 h && one.manager) (fun t u => (u.obj (t.f 147 128)).isNone && bit (t.f 239 224) 0) = true ∧
    meets live (hdr 0x61 0 [(224, 65535)]) (fun h => isOp 0x61 h && live.manager) (fun t u =>
      (below 16 (fun d => bit (t.f 239 224) d && u.fab.joined.getLsbD d && !u.gone d)).isEmpty) = true := by decide +kernel

def in0 : BcastIn := { obj := 9, off := 0, count := 2, onlyPoisoned := false }
def out0 : Bcast := { cmd := cmd0, obj := 9, off := 0, count := 2, named := [0], waiting := [0], serial := 0, remote := [] }
def member (b : BcastIn) : State := worker.onFab (fun f => { f with bcastIn := some b })

theorem wit_shards : (member in0).fab.bcastIn = some in0 ∧ in0.wants 0 = true ∧ in0.wants 1 = true ∧ in0.wants 2 = false ∧ look 0 in0.tries 0 < 3 ∧
    4 ≤ look 0 ({ in0 with tries := [(1, 4)] } : BcastIn).tries 1 ∧ (member in0).up = true ∧ (member in0).isMember = true ∧ in0.ended = false ∧
    (live.onFab (fun f => { f with bcast := some out0 })).fab.bcast = some out0 ∧
    (((live.onFab (fun f => { f with bcast := some out0 })).fab.bcast.map (·.waiting)).getD []).contains 0 = true := by decide +kernel
theorem wit_shard_nack : ({ out0 with waiting := [], accepted := [0], shards := [(1, [])] } : Bcast).shards.find? (fun x => x.1 == 1) = some (1, []) ∧
    ({ out0 with waiting := [], accepted := [0], shards := [(1, [])] } : Bcast).live.contains 0 = true := by decide +kernel
theorem wit_shard : (acked (member in0)).shardGap 0 = acked (member in0) := rfl

/-- Object 9 on the worker that the start names. -/
def startData : List Byte := bytesOf 4 9 ++ bytesOf 8 0 ++ bytesOf 4 2 ++ bytesOf 48 1

theorem wit_bcast_start : bit (fieldB startData 16 2) worker.addr = true ∧ (swatches obj0 [] worker).obj (fieldB startData 0 4) = some obj0 ∧ obj0.ref = 0 ∧
    fieldB startData 4 8 / 16384 + fieldB startData 12 4 ≤ obj0.size ∧ worker.obj (fieldB startData 0 4) = none := by decide +kernel

-- Streams, tiers, pins.

def rec0 : SentRec := { id := 1, port := 0, dst := 16, param := entryParam true true false true 1, aux := 4, bytes := [7] }

theorem wit_sent : (live.onGlaze (fun g => { g with sent := [rec0] })).sentFor { frame0 with param := 1 } = some rec0 ∧
    live.sentFor frame0 = none ∧ bit (0x40000000 : Word).toNat 30 = true ∧ bit (0x80000000 : Word).toNat 30 = false := by decide +kernel
theorem wit_tier : live.fab.lend.lent.contains (t2Place 0).1 = false ∧ (0 : Byte).getLsbD 0 = false ∧ (2 : Byte).getLsbD 1 = true ∧ (2 : Byte).getLsbD 0 = false ∧
    (live.onFab (fun f => { f with lend := { f.lend with lent := [(t2Place 0).1] } })).fab.lend.lent.contains (t2Place 0).1 = true ∧
    ([] : List Byte).length ≠ 16448 ∧ live.sw.migFenced = false := by decide +kernel
theorem wit_sensor : ([114, -40] : List Int) ≠ [] ∧ ([114, -40] : List Int).foldl max 114 < 115 ∧ (115 : Int) ≤ ([115] : List Int).foldl max 115 ∧
    live.pins.refLost = false ∧ live.pins.thermTrip = false ∧ live.boot.held = false := by decide +kernel
theorem wit_pages : placeOfOff 0x410018 = .page 1 0x18 ∧ placeOfOff 0x54FFFC = .page 20 0xFFFC ∧ 0x410018 % 4 = 0 ∧ 0x410019 % 4 ≠ 0 ∧
    live.easel.running = true ∧ live.power = 0 ∧ live.pageDark 1 = false := by decide +kernel
theorem wit_tck_page : (65532 : Nat) < 65536 ∧ 65532 % 4 = 0 ∧ (0x34 : Nat) ≠ 0x18 ∧ (0x34 : Nat) ≠ 0x30 ∧ (0x3C : Nat) ∈ [0x00, 0x3C] := by decide

-- The remaining clauses: refetches, the chest's places, the start, programs.

theorem wit_refetch : ((flight { kind := .refetch, obj := 9, idx := 1 }).onSw (fun w => { w with table := [(4, ent0 .resident)] })).refetchHost 9 (ent0 .resident) = false ∧
    (ent0 .resident).restore = false ∧ (flight { kind := .demand, obj := 9, idx := 1 }).sw.table = [] ∧ ({ kind := .demand, obj := 9, idx := 1 } : Move).again = false := by decide +kernel

def bad0 : ReadFinding := { bits := [61], retries := 7 }
/-- Block set 200 is full of pages of units that have moved on; unit 0 lies in block set 300. -/
def staleSet : State := live.onFlash (fun f => { f with places := [(0, 0, 300, 0)], blocks := (setBlocks 0 200).map (fun b => (b, { pages := [0] })) })
theorem wit_chest_sets : failPages good0 = [] ∧ failPages bad0 ≠ [] ∧ staleSet.chest.flash.stale 200 = true ∧ live.chest.flash.stale 200 = false ∧
    staleSet.chest.planeRoom 0 = true ∧ staleSet.chest.flash.freshSet.isSome = true ∧ staleSet.chest.flash.wearDue 200 = false := by decide +kernel
theorem wit_raw_page : service0.chest.flash.unitAt service0.chest.rawBlk service0.chest.rawPage.toNat = none ∧
    ((service0.onFlash (fun f => { f with places := [(7, 0, 300, 0)] })).chest.flash.unitAt service0.chest.rawBlk service0.chest.rawPage.toNat).isSome = true := by decide +kernel

/-- Reference codes at their ideal: each SPAN strike reads nothing beyond the starting trims. -/
def refs0 : List (List (Byte × Byte)) := [8, 4, 2, 1].map (fun n => List.replicate n (100, -100) ++ List.replicate 64 (0, 0))
theorem wit_trims : (trimsOf refs0).isSome = true ∧ trimsOf [] = none := by decide +kernel
theorem wit_tag_write : meets (swatches { obj0 with home := 1 } [] live) (hdr 0x11 3 [(128, 9), (9, 1)]) (isOp 0x11) (fun t u =>
    t.f 9 9 == 1 && t.payload.length % 16448 == 0 && u.obj (t.f 147 128) == some { obj0 with home := 1 } && !u.serviceBars 1) = true := by decide +kernel
/-- The first page of a slot is written, with zeros: a directory without sections. -/
def zeroSlot (second : Bool) : Flash := { erasedA := if second then [] else [0], blocks := [(if second then 2560 else 0, { pages := [0] })] }
theorem zeroSlot_byte (second : Bool) (a : Nat) (h : a < 4096) : (zeroSlot second).slotByte second a = 0 := by
  have e : (zeroSlot second).slotBlk second a = if second then 2560 else 0 := by
    have : (zeroSlot second).slotBlk second 0 = if second then 2560 else 0 := by cases second <;> decide +kernel
    rw [← this]; unfold Flash.slotBlk; rw [show a / 262144 = 0 / 262144 by omega]
  unfold Flash.slotByte
  dsimp only
  rw [e, show a % 262144 / 4096 = 0 by omega]
  cases second <;> simp [zeroSlot, Flash.block, look]
theorem wit_loads (second : Bool) : (zeroSlot second).loads second [1, 2, 3] = true := by
  have z : (zeroSlot second).slotBytes second 0 64 = (List.range 64).map (fun _ => 0) :=
    List.map_congr_left (fun i hi => zeroSlot_byte second (0 + i) (by have := List.mem_range.mp hi; omega))
  have n : (zeroSlot second).imgBits second 185 180 = 0 := by unfold Flash.imgBits; rw [z]; decide +kernel
  unfold Flash.loads
  rw [n]; rfl
def unrecorded : State := { State.reset with boot := { held := false, nv := { rec_ := none } } }
theorem wit_slot (s : State) (h : s.boot.nv.rec_ = none) : (State.chooseSlot true true s).1 = some false := by
  unfold State.chooseSlot; simp only [h]
theorem wit_no_record : ((unrecorded.onBoot (fun b => { b with error := if b.cause = 1 then 7 else 0 })).loadFuses.seedChest.onWin
    (fun w => { w with power := 2 })).boot.nv.rec_ = none := by simp [State.loadFuses, State.seedChest, State.fusePanels, unrecorded]; rfl
theorem wit_recovery_bits : bit live.recControl.1 30 = false ∧
    bit ((live.winPut (0x1FF000 / 8) (BitVec.ofNat 64 (2 ^ 30))).recControl.1) 30 = true := by decide +kernel
theorem wit_enum : (fab0 (live.onFab (fun f => { f with strap := 0 })) |>.onBoot (fun b => { b with ifmaj := 2 })).manager = false ∧
    (fab0 (live.onFab (fun f => { f with strap := 0 })) |>.onBoot (fun b => { b with ifmaj := 2 })).isMember = false ∧
    (fab0 (live.onFab (fun f => { f with strap := 0 })) |>.onBoot (fun b => { b with ifmaj := 2 })).ready = true := by decide +kernel
theorem wit_wear_loaded : (live.onBoot (fun b => { b with wearLoaded := true })).boot.wearLoaded = true ∧ live.chest.fenced = false := by decide +kernel

-- The filters' taps close each axis to 1,024, and a position on a sample takes that sample.

theorem test_catmull_sum (p : Nat) : catmull p 0 + catmull p 1 + catmull p 2 + catmull p 3 = 1024 := by simp only [catmull]; ring
theorem test_catmull_on_a_sample : (catmull 0 0, catmull 0 1, catmull 0 2, catmull 0 3) = (0, 1024, 0, 0) := by decide
theorem test_lanczos_sum (p : Nat) : sumZ ((List.range 6).map (lanczosTap p)) = 1024 := by
  show sumZ [lanczosTap p 0, lanczosTap p 1, lanczosTap p 2, lanczosTap p 3, lanczosTap p 4, lanczosTap p 5] = 1024
  simp [sumZ, lanczosTap]; omega

end Sys2Proof.Tests
end

section
/-! SUPPORT. The rows of the Tick unit and of the settings are their meanings, for the proofs that rewrite a row's answer. -/

namespace Sys2Proof.Machine

@[simp] theorem exec_internalTimer (s : State) : exec .internalTimer s = execInternalTimer s := rfl
@[simp] theorem exec_synthesisedEdge (s : State) : exec .synthesisedEdge s = execSynthesisedEdge s := rfl
@[simp] theorem exec_registeredEdge (draw : Half) (same : List Nat) (s : State) :
    exec (.registeredEdge draw same) s = execRegisteredEdge draw same s := rfl
@[simp] theorem exec_sliceBoundary (s : State) : exec .sliceBoundary s = execSliceBoundary s := rfl
@[simp] theorem exec_calControlSet (p : Packet) (s : State) : exec (.calControlSet p) s = execCalControlSet p s := rfl
@[simp] theorem exec_calControlMark (p : Packet) (s : State) : exec (.calControlMark p) s = execCalControlMark p s := rfl
@[simp] theorem exec_calControlClear (p : Packet) (s : State) : exec (.calControlClear p) s = execCalControlClear p s := rfl
@[simp] theorem exec_registerWrite (a : Agent) (off : Nat) (v : Word) (s : State) :
    exec (.registerWrite a off v) s = execRegisterWrite a off v s := rfl

end Sys2Proof.Machine
end

section
/-! SUPPORT. The tick sources (R23 to R25, R32, R456). -/

namespace Sys2Proof.Machine

/-- An event that enters an empty synchroniser stands there alone. -/
theorem syncEvent_of_empty {s : State} (h : s.tick.sync = []) (real : Bool) (t : Nat) :
    s.syncEvent real t = s.onTick (fun k => { k with sync := [{ real := real, at_ := t }] }) := by
  simp [State.syncEvent, State.onTick, h]

/-- A rising edge on the selected bump: a full pulse registers, a short one where the free bit says so (R25). -/
theorem execTickBumpEdge_of_selected {s : State} (ht : s.ticking = true) (hs : s.tick.src = 0) (t : Nat) (wide : Bool) :
    execTickBumpEdge t wide s = .next (
      if wide then s.syncEvent true t
      else let r := s.freeBit; onlyIf r.1 (State.syncEvent true t) r.2) := by
  simp [execTickBumpEdge, ht, hs]

/-- A rising edge on a bump that is not the source gives no event. -/
theorem execTickBumpEdge_of_other {s : State} (hs : s.tick.src ≠ 0) (t : Nat) (wide : Bool) : execTickBumpEdge t wide s = .next s := by
  simp [execTickBumpEdge, beq_false_of_ne hs]

/-- A sideband tick message on HL0, the selected source, registers. -/
theorem execTick_of_selected {s : State} (ht : s.ticking = true) (hs : s.tick.src = 1) (t : Nat) :
    execTick 0 t s = .next (s.syncEvent true t) := by
  simp [execTick, ht, hs]

/-- A sideband tick message on another link, or where the sideband is not the source, gives no event. -/
theorem execTick_of_other {hl : Nat} {s : State} (h : hl ≠ 0 ∨ s.tick.src ≠ 1) (t : Nat) : execTick hl t s = .next s := by
  rcases h with h | h
  · simp [execTick, h]
  · simp [execTick, beq_false_of_ne h]

/-- The internal timer, the selected source, gives an event NOM cycles after the last accepted edge. -/
theorem execInternalTimer_of_selected {s : State} (ht : s.ticking = true) (hs : s.tick.src = 2) (he : s.tick.sync.isEmpty = true) :
    execInternalTimer s = .next (s.syncEvent true (s.tick.lastAcc + s.tick.eff.nomIn)) := by
  simp [execInternalTimer, ht, hs, he]

/-- A timer that is not the source gives no event. -/
theorem execInternalTimer_of_other {s : State} (hs : s.tick.src ≠ 2) : execInternalTimer s = .next s := by
  simp [execInternalTimer, beq_false_of_ne hs]

/-- The holdover deadline of an external source gives a synthesised event (R32). -/
theorem execSynthesisedEdge_of_external {s : State} (ht : s.ticking = true) (hs : s.tick.src ≠ 2) (he : s.tick.sync.isEmpty = true) :
    execSynthesisedEdge s = .next (s.syncEvent false (s.tick.lastAcc + s.tick.deadline)) := by
  simp [execSynthesisedEdge, ht, bne_iff_ne.2 hs, he]

/-- Settles O5: each source in effect is one event into the synchroniser, which for the timer and the deadline is empty. -/
theorem tickSourcesGiveEdges : Obligations.TickSourcesGiveEdges := by
  refine ⟨fun t w s ht hs => execTickBumpEdge_of_selected ht hs t w, ?_,
    fun s ht hs he => execInternalTimer_of_selected ht hs he, fun s ht hs he => execSynthesisedEdge_of_external ht hs he,
    fun t s ht hs => execTickBumpEdge_of_selected ht hs t true, fun t w s hs => execTickBumpEdge_of_other hs t w,
    fun t s ht hs => execTick_of_selected ht hs t, fun t s => execTick_of_other (.inl one_ne_zero) t,
    fun hl t s hs => execTick_of_other (.inr hs) t, ?_, fun s hs => execInternalTimer_of_other hs, ?_⟩
  · rintro _ t s rfl ht hs
    exact execTick_of_selected ht hs t
  · intro s ht hs he
    rw [exec_internalTimer, execInternalTimer_of_selected ht hs (by simp [he]), syncEvent_of_empty he]
  · intro s ht hs he
    rw [exec_synthesisedEdge, execSynthesisedEdge_of_external ht hs (by simp [he]), syncEvent_of_empty he]

/-- Settles O6: the free bit decides whether a short pulse registers, and a full pulse does not ask for it. -/
theorem shortPulseIsLostOrRegistersOnce : Obligations.ShortPulseIsLostOrRegistersOnce := by
  refine ⟨fun t s ht hs => ⟨_, execTickBumpEdge_of_selected ht hs t false, ?_⟩,
    fun t s ht hs => ⟨_, execTickBumpEdge_of_selected ht hs t true, rfl⟩⟩
  cases h : Config.freeBit s.freeCtr with
  | false => simp [State.freeBit, h, State.onFreeCtr]
  | true => simp [State.freeBit, h, State.onFreeCtr, State.syncEvent, State.onTick]

end Sys2Proof.Machine
end

section
/-! SUPPORT. The registered edge and the slice boundary (R24, R27, R30, R31, R33). -/

namespace Sys2Proof.Machine

/-- With nothing in the synchroniser there is no edge. -/
theorem execRegisteredEdge_of_empty {s : State} (h : s.tick.sync = []) (draw : Half) (same : List Nat) :
    execRegisteredEdge draw same s = .next s := by
  cases ht : s.ticking <;> simp [execRegisteredEdge, ht, h]

section
variable {s : State} {e : SyncEvent} {rest : List SyncEvent} (ht : s.ticking = true) (h : s.tick.sync = e :: rest)
include ht h

/-- The oldest event is taken and gives the phase of the source. -/
theorem execRegisteredEdge_of_realigns (hj : TickUnit.judge { s.tick with sync := rest } e = .realigns) (draw : Half) (same : List Nat) :
    execRegisteredEdge draw same s = .next ((s.onTick (fun k => { k with sync := rest })).onTick (TickUnit.realignTo e)) := by
  simp only [execRegisteredEdge, ht, h, onlyIf_true, State.onTick_tick, hj]

/-- The oldest event is taken and lies below the floor. -/
theorem execRegisteredEdge_of_ignored (hj : TickUnit.judge { s.tick with sync := rest } e = .ignored) (draw : Half) (same : List Nat) :
    execRegisteredEdge draw same s = .next ((s.onTick (fun k => { k with sync := rest })).onTick TickUnit.ignore) := by
  simp only [execRegisteredEdge, ht, h, onlyIf_true, State.onTick_tick, hj]

/-- The oldest event is taken and is an edge that begins a tick. -/
theorem execRegisteredEdge_of_begins (hj : TickUnit.judge { s.tick with sync := rest } e = .begins) (draw : Half) (same : List Nat) :
    execRegisteredEdge draw same s = .next ((s.onTick (fun k => { k with sync := rest })).edge e draw same) := by
  simp only [execRegisteredEdge, ht, h, onlyIf_true, State.onTick_tick, hj]

end

namespace TickUnit

/-- A real event in the window of a synthesised edge realigns (R33). -/
theorem judge_of_near {k : TickUnit} {e : SyncEvent} {t : Nat} (hk : k.lastSynth = some t) (he : e.real = true)
    (hn : e.at_ ≤ t + k.meas.toNat / 8) : k.judge e = .realigns := by
  simp [judge, hk, he, hn]

/-- A real event outside the window of every synthesised edge is held to the floor (R27). -/
theorem judge_of_far {k : TickUnit} {e : SyncEvent} (he : e.real = true) (hf : ∀ t, k.lastSynth = some t → t + k.meas.toNat / 8 < e.at_) :
    k.judge e = if k.begun = true ∧ e.at_ < k.lastAcc + k.eff.minIn then .ignored else .begins := by
  cases h : k.lastSynth with
  | none => simp [judge, h, he]
  | some t => simp [judge, h, he, Nat.not_le.2 (hf t h)]

/-- A synthesised event begins a tick. -/
theorem judge_of_synthesised {k : TickUnit} {e : SyncEvent} (he : e.real = false) : k.judge e = .begins := by
  cases h : k.lastSynth <;> simp [judge, h, he]

/-- A realigning edge measures its period from the real edge before it (R29). -/
theorem realignTo_periods (e : SyncEvent) (k : TickUnit) :
    (k.realignTo e).periods = match k.lastReal with | some t => keep4 (k.periods ++ [e.at_ - t]) | none => keep4 k.periods := by
  cases h : k.lastReal <;> simp [realignTo, h]

/-- Measuring an edge leaves the count of ticks. -/
@[simp] theorem measure_count (e : SyncEvent) (k : TickUnit) : (k.measure e).count = k.count := by
  unfold measure; repeat' split
  all_goals rfl

/-- Settings that take effect leave the count of ticks. -/
@[simp] theorem takeCfg_count (k : TickUnit) : k.takeCfg.count = k.count := by
  simp only [takeCfg]; repeat' split
  all_goals rfl

/-- An accepted edge counts the tick. -/
theorem accept_count (e : SyncEvent) (k : TickUnit) : (k.accept e).count = k.count + 1 := by
  simp [accept]

end TickUnit

/-- Settles O7: the judgement of the oldest event says what the edge does, and each kind of event has its judgement. -/
theorem registeredEdgeBeginsATick : Obligations.RegisteredEdgeBeginsATick := by
  refine ⟨fun d c _ h => execRegisteredEdge_of_empty h d c, ?_, fun _ _ _ => TickUnit.judge_of_near, fun _ _ => TickUnit.judge_of_far,
    fun _ _ => TickUnit.judge_of_synthesised, fun e k => ⟨rfl, rfl, rfl, rfl, k.realignTo_periods e⟩,
    fun e k => ⟨k.accept_count e, rfl, rfl, rfl⟩⟩
  intro d c e rest s ht h
  simp only [exec_registeredEdge, State.onTick_tick]
  cases hj : TickUnit.judge { s.tick with sync := rest } e with
  | realigns => exact execRegisteredEdge_of_realigns ht h hj d c
  | ignored => exact execRegisteredEdge_of_ignored ht h hj d c
  | begins => exact execRegisteredEdge_of_begins ht h hj d c

/-- Inside a tick, before its last slice, a boundary begins the next slice (R30). -/
theorem execSliceBoundary_of_within {s : State} (ht : s.ticking = true) (hb : s.tick.begun = true)
    (hl : s.tick.sliceNow.toNat + 1 < s.tick.slices) :
    execSliceBoundary s = .next (
      let s := s.onTick (fun k => { k with sliceNow := k.sliceNow + 1 })
      onlyIf s.serving (fun s =>
        let moving := s.ctxIds.filter (fun c => s.switchDue c && s.sliceSwitch c)
        let s := each moving (fun c s => s.movePointer s.sliceBegun c) s
        each moving (fun c s => each (s.ctx c).queues (fun q s => s.armQueue q 0) s) s) s) := by
  simp only [execSliceBoundary, ht, hb, hl, decide_true, Bool.and_self, onlyIf_true]

/-- After the last slice of the tick there is no boundary. -/
theorem execSliceBoundary_of_last {s : State} (hl : s.tick.slices ≤ s.tick.sliceNow.toNat + 1) : execSliceBoundary s = .next s := by
  simp [execSliceBoundary, Nat.not_lt.2 hl]

/-- A change of the Tick unit leaves the contexts that the state lists. -/
theorem onTick_ctxIds (f : TickUnit → TickUnit) (s : State) : (s.onTick f).ctxIds = s.ctxIds := rfl

/-- An operation for each of no elements changes nothing. -/
@[simp] theorem each_nil {α : Type} (f : α → State → State) (s : State) : each [] f s = s := rfl

/-- Settles O8: where no context switches by slice the boundary's two passes over the contexts are over none. -/
theorem sliceBoundaryAdvances : Obligations.SliceBoundaryAdvances := by
  refine ⟨fun s ht hb hl => execSliceBoundary_of_within ht hb hl, ?_, fun s hl => execSliceBoundary_of_last hl⟩
  intro s ht hb hl hnone
  rw [exec_sliceBoundary, execSliceBoundary_of_within ht hb hl]
  rw [← onTick_ctxIds (fun k => { k with sliceNow := k.sliceNow + 1 })] at hnone
  generalize s.onTick (fun k => { k with sliceNow := k.sliceNow + 1 }) = u at hnone ⊢
  have hmoving : u.ctxIds.filter (fun c => u.switchDue c && u.sliceSwitch c) = [] :=
    List.filter_eq_nil_iff.2 fun c hc => Bool.eq_false_iff.1 (hnone c hc)
  cases hs : u.serving with
  | false => simp only [hs, onlyIf_false]
  | true => simp only [hs, onlyIf_true, hmoving, each_nil]

end Sys2Proof.Machine
end

section
/-! SUPPORT. Credits between units and credit waits (R49, R60, R207, R219, R228). -/

namespace Sys2Proof.Machine

/-- A returned credit counts while the credits held and the entries still in a receive buffer leave an entry of the buffer free. -/
theorem execCreditReturn_of_room {c p n : Nat} {s : State} (hs : s.serving = true) (hn : (s.workMap c).entries p = some n)
    (hroom : (s.ctx c).credits p + s.heldEntries c p < n) :
    execCreditReturn c p s = .next (s.onCtx c (fun x => { x with credit := modify 0 p (· + 1) x.credit })) := by
  simp [execCreditReturn, hs, hn, hroom]

/-- A credit beyond the entries of the buffer is not counted. -/
theorem execCreditReturn_of_full {c p n : Nat} {s : State} (hn : (s.workMap c).entries p = some n)
    (hfull : n ≤ (s.ctx c).credits p + s.heldEntries c p) : execCreditReturn c p s = .next s := by
  simp [execCreditReturn, hn, Nat.not_lt.2 hfull]

/-- A pair without a buffer has no credits. -/
theorem execCreditReturn_of_no_buffer {c p : Nat} {s : State} (hn : (s.workMap c).entries p = none) : execCreditReturn c p s = .next s := by
  simp [execCreditReturn, hn]

/-- The credit counted is one more of its pair. -/
theorem credits_modify_succ (x : Ctx) (p : Nat) : ({ x with credit := modify 0 p (· + 1) x.credit } : Ctx).credits p = x.credits p + 1 :=
  look_modify_self 0 p (· + 1) x.credit

/-- A wait of W cycles of a REALTIME context from boundary D on ends the loop that it holds up, or hands the work over. -/
theorem execCreditWaitExpiry_of_due {u c w : Nat} {s : State} (hs : s.serving = true) (hb : (s.ctx c).st = .bound)
    (hl : (s.ctx c).bindLive = true) (hr : (s.ctx c).bind.realtime = true) (hw : (s.ctx c).bind.w ≤ w)
    (hd : (s.ctx c).dNow ≤ s.tick.sliceNow.toNat) (hm : s.mayWait u c = true) :
    execCreditWaitExpiry u c w s = .next (match s.waitLoop u c with | some l => s.endLoop c l | none => s.handover c 2) := by
  have hdue : (s.serving && (s.ctx c).st == .bound && (s.ctx c).bindLive && (s.ctx c).bind.realtime && decide ((s.ctx c).bind.w ≤ w) &&
      decide ((s.ctx c).dNow ≤ s.tick.sliceNow.toNat) && s.mayWait u c) = true := by simp [hs, hb, hl, hr, hw, hd, hm]
  exact congrArg _ (onlyIf_of hdue)

/-- A unit that works for Retouch, or waits for it alone, is in no credit wait (R228). -/
theorem mayWait_of_retouchOn {u c : Nat} {s : State} (h : s.retouchOn u c = true) : s.mayWait u c = false := by
  simp [State.mayWait, h]

/-- Before boundary D, for a wait shorter than W, for a BESTEFFORT context and for a unit in no credit wait nothing changes. -/
theorem execCreditWaitExpiry_of_not_due {u c w : Nat} {s : State}
    (h : s.tick.sliceNow.toNat < (s.ctx c).dNow ∨ w < (s.ctx c).bind.w ∨ (s.ctx c).bind.realtime = false ∨ s.mayWait u c = false) :
    execCreditWaitExpiry u c w s = .next s := by
  rcases h with h | h | h | h
  · simp [execCreditWaitExpiry, Nat.not_le.2 h]
  · simp [execCreditWaitExpiry, Nat.not_le.2 h]
  · simp [execCreditWaitExpiry, h]
  · simp [execCreditWaitExpiry, h]

/-- Settles O9: one case for each guard of the two rows. -/
theorem creditsReturnAndCreditWaitsHandOver : Obligations.CreditsReturnAndCreditWaitsHandOver :=
  ⟨⟨fun _ _ _ _ => execCreditReturn_of_room, credits_modify_succ, fun _ _ _ _ => execCreditReturn_of_full,
      fun _ _ _ => execCreditReturn_of_no_buffer⟩,
    fun _ _ _ _ => execCreditWaitExpiry_of_due,
    fun _ _ _ _ h => execCreditWaitExpiry_of_not_due (.inl h),
    fun _ _ _ _ h => execCreditWaitExpiry_of_not_due (.inr (.inl h)),
    fun _ _ _ _ h => execCreditWaitExpiry_of_not_due (.inr (.inr (.inl h))),
    fun _ _ _ _ h => execCreditWaitExpiry_of_not_due (.inr (.inr (.inr (mayWait_of_retouchOn h))))⟩

end Sys2Proof.Machine
end

section
/-! SUPPORT. Settings that take effect at an edge (R26 to R28, R133, R134, R519). -/

namespace Sys2Proof.Machine

/-- TICK_CONFIG's settings: every field in its range (R26, R27). -/
def Taken.tickCfg (t : Taken) : TickCfg :=
  let nom := clampN 200000 12500000 (t.f 183 160)
  { slices := BitVec.ofNat 6 (t.f 136 131), holdover := BitVec.ofNat 1 (t.f 130 130)
    src := BitVec.ofNat 2 (if t.f 129 128 = 3 then 2 else t.f 129 128)
    nom := BitVec.ofNat 24 nom, min := BitVec.ofNat 24 (clampN 200000 nom (t.f 215 192)) }

/-- TICK_CONFIG counts its clamps, writes its settings, latches them and completes with the tick. -/
theorem tickConfig_eq (t : Taken) (u : State) :
    ∃ ws, u.tickConfig t = ((u.clamps t ws).onTick (fun k => { k with shadow := t.tickCfg, latched := some t.tickCfg })).complete t.cmd 0
      (u.clamps t ws).tick.count.toNat 0 [] := ⟨_, rfl⟩

/-- Guarded writes of the Primer's shadow, one after another, are one write. -/
theorem each_onlyIf_shadow (b : Nat → Bool) (g : Nat → PrmCfg → PrmCfg) (l : List Nat) (s : State) :
    each l (fun i => onlyIf (b i) (State.onPrimer (fun p => { p with shadow := g i p.shadow }))) s =
      s.onPrimer (fun p => { p with shadow := l.foldl (fun k i => if b i then g i k else k) p.shadow }) := by
  induction l generalizing s with
  | nil => rfl
  | cons i l ih =>
    refine (ih _).trans ?_
    cases h : b i with
    | false => simp [h]
    | true => simp [h, State.onPrimer]

/-- The Primer's shadow with the registers that MASK of a SET selects (R519). -/
def Taken.calShadow (t : Taken) (k : PrmCfg) : PrmCfg :=
  (List.range 4).foldl (fun k i => if bit (t.f 143 140) i then k.put i (t.f (191 + 32 * i) (160 + 32 * i)) else k) k

/-- SET writes the registers that MASK selects, commits them and completes (R519). -/
theorem calSet_eq (t : Taken) (u : State) :
    u.calSet t = ((u.clamps t t.calClamps).onPrimer (fun p => { p with
      shadow := t.calShadow p.shadow, latched := some (t.calShadow p.shadow) })).complete t.cmd 0 0 0 [] := by
  have hw := each_onlyIf_shadow (bit (t.f 143 140)) (fun i k => k.put i (t.f (191 + 32 * i) (160 + 32 * i))) (List.range 4)
    (u.clamps t t.calClamps)
  simp only [State.calSet, hw]
  rfl

/-- A MASK of 0 selects no register. -/
theorem calShadow_of_none {t : Taken} (h : t.f 143 140 = 0) (k : PrmCfg) : t.calShadow k = k := by
  simp only [Taken.calShadow, h]
  rfl

/-- A MASK of 8 selects PRM_LIMITS2 alone. -/
theorem calShadow_of_last {t : Taken} (h : t.f 143 140 = 8) (k : PrmCfg) : t.calShadow k = k.put 3 (t.f 287 256) := by
  simp only [Taken.calShadow, h]
  rfl

/-- MARK of a SERVING panel is kept for the edge, and of any other is not performed (R134). -/
theorem calMark_eq (t : Taken) (u : State) :
    u.calMark t = (let v := u.clamps t t.calClamps
      if (v.panel t.panel).st = .serving then (v.onPanel t.panel (fun p =>
        { p with pendCause := if p.pendCause = 0 then 4 else p.pendCause })).complete t.cmd 0 t.panel 0 [] else v.notPerformed t.cmd) :=
  ite_not ..

/-- CLEAR of a MARKED panel is kept for the edge, and of any other is not performed (R133). -/
theorem calClear_eq (t : Taken) (u : State) :
    u.calClear t = (let v := u.clamps t t.calClamps
      if (v.panel t.panel).st = .marked then (v.onPanel t.panel (fun p =>
        { p with pendClear := true })).complete t.cmd 0 t.panel 0 [] else v.notPerformed t.cmd) :=
  ite_not ..

section
variable {p : Packet} {t : Taken} {u s : State}

/-- TICK_CONFIG, taken. -/
theorem execTickConfig_of_take (h : s.take p (isOp 0x40) = (some t, u)) : execTickConfig p s = .next (u.tickConfig t) :=
  congrArg _ (command_of_take h _)

/-- CAL_CONTROL SET, taken. -/
theorem execCalControlSet_of_take (h : s.take p (isCal 0) = (some t, u)) : execCalControlSet p s = .next (u.calSet t) :=
  congrArg _ (command_of_take h _)

/-- CAL_CONTROL MARK, taken. -/
theorem execCalControlMark_of_take (h : s.take p (isCal 1) = (some t, u)) : execCalControlMark p s = .next (u.calMark t) :=
  congrArg _ (command_of_take h _)

/-- CAL_CONTROL CLEAR, taken. -/
theorem execCalControlClear_of_take (h : s.take p (isCal 2) = (some t, u)) : execCalControlClear p s = .next (u.calClear t) :=
  congrArg _ (command_of_take h _)

end

/-- Where Easel runs each commit register latches its unit's shadow (R28, R713, R714). -/
theorem commits_of_easelRuns {s : State} (h : s.easelRuns = true) :
    execTckCommit s = .next s.tckCommit ∧ execPrmCommit s = .next s.prmCommit ∧ execGlzCommit s = .next s.glzCommit := by
  simp [execTckCommit, execPrmCommit, execGlzCommit, h]

/-- A doorbell that can reach the part rings it: ENABLE and DISABLE. -/
theorem ringBells_of_canRing {r : Nat} {s : State} (h : s.canRing r = true) :
    execEnable r s = .next (s.doorbell r 2 0) ∧ execDisable r s = .next (s.doorbell r 3 0) := by
  simp [execEnable, execDisable, h]

/-- Settles O47: each row that is taken has its command's effect, and the commands' effects are those above. -/
theorem settingsCommandsCommit : Obligations.SettingsCommandsCommit := by
  refine ⟨fun _ _ h => (ringBells_of_canRing h).1, fun _ _ h => (ringBells_of_canRing h).2,
    fun _ _ _ _ => execTickConfig_of_take, fun _ h => (commits_of_easelRuns h).1,
    fun _ _ _ _ => execCalControlSet_of_take, fun _ _ _ _ => execCalControlMark_of_take, fun _ _ _ _ => execCalControlClear_of_take,
    fun _ h => (commits_of_easelRuns h).2.1, fun _ h => (commits_of_easelRuns h).2.2, fun _ => commits_of_easelRuns, ?_, ?_, ?_, ?_, ?_⟩
  · intro p t u s h
    obtain ⟨ws, hws⟩ := tickConfig_eq t u
    exact ⟨ws, (execTickConfig_of_take h).trans (congrArg _ hws)⟩
  · intro p t u s h hmask
    rw [exec_calControlSet, execCalControlSet_of_take h, calSet_eq]
    simp only [calShadow_of_none hmask]
  · intro p t u s h hmask
    rw [exec_calControlSet, execCalControlSet_of_take h, calSet_eq]
    simp only [calShadow_of_last hmask]
  · intro p t u s h
    rw [exec_calControlMark, execCalControlMark_of_take h, calMark_eq]
  · intro p t u s h
    rw [exec_calControlClear, execCalControlClear_of_take h, calClear_eq]

end Sys2Proof.Machine
end

section
/-! SUPPORT. The TCK_ page (R35, R36) and the registers after reset. -/

namespace Sys2Proof.Machine

/-- The TCK_ page begins at 0x41_0000 (R706, R707). -/
theorem placeOfOff_tck {k : Nat} (hk : k < 65536) : placeOfOff (0x410000 + k) = .page 1 k := by
  simp only [placeOfOff]
  rw [if_neg (by omega), if_neg (by omega), if_neg (by omega), if_pos (by omega)]
  congr 1 <;> omega

/-- The TCK_ page is never dark (R707). -/
theorem pageDark_tck (s : State) : s.pageDark 1 = false := by simp [State.pageDark, darkPage]

/-- A host write to the TCK_ page has the effect of its offset. -/
theorem execRegisterWrite_tck {k : Nat} {s : State} (hr : s.hostReach = true) (hk : k < 65536) (h4 : k % 4 = 0) (v : Word) :
    execRegisterWrite .host (0x410000 + k) v s = .next (s.hostTck k v.toNat) := by
  have hal : (0x410000 + k) % 4 = 0 := by omega
  simp [execRegisterWrite, placeOfOff_tck hk, hal, hr, State.pageWrite, pageDark_tck, State.hostPage]

/-- Every other offset of the page than those of TCK_STAT and TCK_CTX_SEL ignores the host. -/
theorem hostTck_of_other {k : Nat} (h1 : k ≠ 0x18) (h2 : k ≠ 0x30) (v : Nat) (s : State) : s.hostTck k v = s := by
  unfold State.hostTck
  split
  · exact absurd rfl h1
  · exact absurd rfl h2
  · rfl

/-- A write of TCK_STAT clears the flags whose bits are written 1. -/
theorem hostTck_stat (v : Word) (s : State) :
    s.hostTck 0x18 v.toNat = { s with tick := { s.tick with
      realign := s.tick.realign && !v.getLsbD 4, overrun := s.tick.overrun && !v.getLsbD 3
      synth := s.tick.synth && !v.getLsbD 2, ignored := s.tick.ignored && !v.getLsbD 1 } } := rfl

/-- A write of TCK_CTX_SEL sets the selector. -/
theorem hostTck_ctxSel (v : Word) (s : State) : s.hostTck 0x30 v.toNat = { s with tick := { s.tick with ctxSel := v.setWidth 10 } } := by
  simp [State.hostTck, State.onTick]

/-- The offsets of the registers of the TCK_ page (R36). -/
def tckOffsets : List Nat := [0x00, 0x04, 0x08, 0x0C, 0x10, 0x14, 0x18, 0x1C, 0x20, 0x24, 0x28, 0x30, 0x34, 0x38, 0x3C]

/-- Every register of the page reads as a value. -/
theorem readTck_isSome (s : State) : ∀ k ∈ tckOffsets, (s.readTck k).isSome = true := by
  simp [tckOffsets, State.readTck, reg]

/-- Every register of the page is a word of its first 64 bytes. -/
theorem tckOffsets_aligned : ∀ k ∈ tckOffsets, k < 64 ∧ k % 4 = 0 := by decide

/-- A register of the page that reads as a value is answered with it, status OK. -/
theorem readSpace_tck {k v : Nat} {s : State} (hk : k < 65536) (h4 : k % 4 = 0) (hv : s.readTck k = some v) (b : List PortB) :
    (s.readSpace (0x410000 + k) 4 b).1 = { data := bytesOf 4 v } := by
  have hal : (0x410000 + k) % 4 = 0 := by omega
  simp [State.readSpace, accessOk, placeOfOff_tck hk, hal, pageDark_tck, State.readPage, hv]

/-- Settles O59: the page's two writable places, and a value for each of its registers. -/
theorem tickPageTakesOnlyItsWritableFields : Obligations.TickPageTakesOnlyItsWritableFields := by
  refine ⟨?_, ?_, ?_⟩
  · intro k v s hr hk h4 h1 h2
    rw [exec_registerWrite, execRegisterWrite_tck hr hk h4, hostTck_of_other h1 h2]
  · intro v s hr
    exact ⟨(execRegisterWrite_tck hr (k := 0x18) (by decide) rfl v).trans (congrArg _ (hostTck_stat v s)),
      (execRegisterWrite_tck hr (k := 0x30) (by decide) rfl v).trans (congrArg _ (hostTck_ctxSel v s))⟩
  · intro k b s hmem
    obtain ⟨hk, h4⟩ := tckOffsets_aligned k hmem
    obtain ⟨v, hv⟩ := Option.isSome_iff_exists.1 (readTck_isSome s k hmem)
    rw [readSpace_tck (by omega) h4 hv]
    exact ⟨rfl, rfl⟩

/-- Settles O60: the reset state is closed, and each register evaluates to its Reset column. -/
theorem resetRegistersReadTheirResetColumn : Obligations.ResetRegistersReadTheirResetColumn := by
  unfold Obligations.ResetRegistersReadTheirResetColumn
  decide

end Sys2Proof.Machine
end

section
/-! SUPPORT. A group's strike slot: its candidates, the fallback route, empty strikes and the arbiter's choice (R40, R44, R87, R92, R137). -/

namespace Sys2Proof.Machine

@[simp] theorem exec_strikeIssue (g : Nat) (ks : List StrikeCand) (bad : Bool) (cut : Option Nat) (s : State) :
    exec (.strikeIssue g ks bad cut) s = execStrikeIssue g ks bad cut s := rfl

/-- An operation for each of one element is the operation for it. -/
@[simp] theorem each_singleton {α : Type} (x : α) (f : α → State → State) (s : State) : each [x] f s = f x s := rfl

/-- With an empty row and no vector in flight in the group no context is on offer. -/
theorem allCands_nil_of_no_vecs {g : Nat} {s : State} (h : (s.group g).vecs = []) : s.allCands g [] = [] := by
  simp [State.allCands, h]

/-- Every context with a vector in flight in the group is on offer: by the row, or else for that vector. -/
theorem exists_allCands_of_mem_vecs {g : Nat} {s : State} {v : Vec} (ks : List StrikeCand) (hv : v ∈ (s.group g).vecs) :
    ∃ k ∈ s.allCands g ks, k.ctx = v.ctx := by
  unfold State.allCands
  generalize ks.foldl (fun a k => if a.any (fun q => q.ctx == k.ctx) then a else a ++ [k]) [] = own
  by_cases hown : ∃ k ∈ own, k.ctx = v.ctx
  · obtain ⟨k, hk, hctx⟩ := hown
    exact ⟨k, List.mem_append_left _ hk, hctx⟩
  · have hctx : v.ctx ∈ ((s.group g).vecs.map (·.ctx)).eraseDups := List.mem_eraseDups.2 (List.mem_map_of_mem hv)
    have hnot : (!own.any (fun k => k.ctx == v.ctx)) = true := by simpa using hown
    exact ⟨_, List.mem_append_right _ (List.mem_map_of_mem (List.mem_filter.2 ⟨hctx, hnot⟩)), rfl⟩

/-- A candidate none of whose replicas has the fallback route is not handed over. -/
theorem routeOut_of_no_fallback {g : Nat} {k : StrikeCand} {s : State} (h : k.parts.filterMap (s.partFallback g k.ctx) = []) :
    s.routeOut g k = s := by
  simp [State.routeOut, h]

/-- A replica on the fallback route hands its context over, once in the tick, and the vectors left count (R137, R140). -/
theorem routeOut_of_fallback {g cause : Nat} {k : StrikeCand} {s : State}
    (hcause : (k.parts.filterMap (s.partFallback g k.ctx)).min? = some cause) (hserv : s.servable k.ctx = true)
    (hfirst : (s.ctx k.ctx).handed = 0) :
    s.routeOut g k = (s.onCtx k.ctx (fun x => { x with cnt := { x.cnt with fb := satAdd x.cnt.fb (s.leftRouted k) } })).handRoute k.ctx cause := by
  simp [State.routeOut, hcause, hserv, hfirst]

/-- A strike that has sub-strikes to make is not skipped. -/
theorem skipEmpty_of_candSubs_pos {g : Nat} {k : StrikeCand} {s : State} (h : 0 < s.candSubs g k) : s.skipEmpty g k = s := by
  have hskip : (s.candSubs g k == 0) = false := beq_false_of_ne (Nat.ne_of_gt h)
  simp [State.skipEmpty, hskip]

/-- With no context on offer the arbiter has none to choose from. -/
@[simp] theorem claims_nil (g : Nat) (s : State) : s.claims g [] = [] := rfl

/-- A candidate with sub-strikes to make may be chosen where it is REALTIME or its tokens cover them (R44, R67). -/
theorem claims_singleton {g : Nat} {k : StrikeCand} {s : State} (hsubs : 0 < s.candSubs g k)
    (htok : (s.ctx k.ctx).bind.realtime = true ∨ s.candSubs g k ≤ (s.ctx k.ctx).strikeTok g) : s.claims g [k] = [k] := by
  simp [State.claims, hsubs, htok]

/-- The one context is chosen, of whichever mode it is. -/
theorem chooseCtx_singleton (k : StrikeCand) (real : StrikeCand → Bool) (a b : Nat) :
    chooseCtx (([k].filter real).map (·.ctx)) (([k].filter (fun k => !real k)).map (·.ctx)) a b = some k.ctx := by
  cases h : real k <;> simp [chooseCtx, h, nextAfter_one]

/-- Where the stack does not serve, a strike slot changes nothing. -/
theorem execStrikeIssue_of_not_serving {s : State} (hs : s.serving = false) (g : Nat) (ks : List StrikeCand) (bad : Bool)
    (cut : Option Nat) : execStrikeIssue g ks bad cut s = .next s := by
  simp [execStrikeIssue, hs]

/-- With no context on offer a strike slot changes nothing. -/
theorem execStrikeIssue_of_no_cands {g : Nat} {ks : List StrikeCand} {s : State} (hnone : s.allCands g ks = []) (bad : Bool)
    (cut : Option Nat) : execStrikeIssue g ks bad cut s = .next s := by
  cases hs : s.serving with
  | false => exact execStrikeIssue_of_not_serving hs g ks bad cut
  | true => simp [execStrikeIssue, hs, hnone, handTogether_of_id, chooseCtx_nil]

/-- The one context on offer is served, where it is not routed to its fallback and may be chosen. -/
theorem execStrikeIssue_of_one_cand {g : Nat} {ks : List StrikeCand} {k : StrikeCand} {s : State} (hs : s.serving = true)
    (hone : s.allCands g ks = [k]) (hroute : k.parts.filterMap (s.partFallback g k.ctx) = []) (hsubs : 0 < s.candSubs g k)
    (htok : (s.ctx k.ctx).bind.realtime = true ∨ s.candSubs g k ≤ (s.ctx k.ctx).strikeTok g) (bad : Bool) (cut : Option Nat) :
    execStrikeIssue g ks bad cut s = .next (s.strikeChosen g k bad cut) := by
  have hkept : each [k] (State.skipEmpty g) (handTogether (fun s => each [k] (State.routeOut g) s) s) = s := by
    rw [handTogether_of_id (f := fun s => each [k] (State.routeOut g) s) (routeOut_of_no_fallback hroute), each_singleton,
      skipEmpty_of_candSubs_pos hsubs]
  simp only [execStrikeIssue, hs, onlyIf_true, hone, hkept, claims_singleton hsubs htok]
  rw [chooseCtx_singleton k (fun k => (s.ctx k.ctx).bind.realtime)]
  simp

/-- Settles O10: the strike of the one candidate is the service of the context that the arbiter chose. -/
theorem strikeGoesToTheChosenContext : Obligations.StrikeGoesToTheChosenContext :=
  ⟨fun _ _ _ _ _ hs => congrArg _ (onlyIf_of hs),
    fun _ bad cut _ h => execStrikeIssue_of_no_cands (allCands_nil_of_no_vecs h) bad cut,
    fun _ _ _ bad cut _ hs hone hroute hsubs htok => execStrikeIssue_of_one_cand hs hone hroute hsubs htok bad cut,
    fun _ _ _ _ => routeOut_of_fallback,
    fun _ ks _ _ => exists_allCands_of_mem_vecs ks⟩

end Sys2Proof.Machine
end

section
/-! SUPPORT. A group's probe slot: where it strikes, where it does not, and the count that a tick begins with (R125, R126, R128). -/

namespace Sys2Proof.Machine

/-- A change of every entry of a memory that gives an unlisted key its default is read at every key. -/
theorem look_map {α β : Type} (d : α) (f : α → β) (m : SMap α) (k : Nat) :
    look (f d) (m.map (fun p => (p.1, f p.2))) k = f (look d m k) := by
  induction m with
  | nil => rfl
  | cons p m ih => simp only [List.map_cons, look, ih, apply_ite f]

/-- An edge zeroes each group's residue strikes and probe slots, and leaves the rest of the group (R128). -/
theorem tickResets_group (s : State) (g : Nat) : s.tickResets.group g = { s.group g with residue := 0, probes := 0 } :=
  (look_map {} (fun x : Group => { x with residue := 0, probes := 0 }) s.panels.groups g :)

section
variable {g : Nat} {s : State}

/-- A probe slot of a serving group in which no context is ready counts, and strikes every panel that is to be probed (R125, R126). -/
theorem execProbeStrike_of_slot {ks : List StrikeCand} {rs : List ProbeRead} (hs : s.serving = true)
    (hg : (s.group g).fenced = false) (hrun : s.primer.running = true) (hfence : s.primer.fenced = false)
    (hmode : s.primer.eff.mode ≠ 2) (hmax : (s.group g).probes < s.primer.eff.probeMax.toNat)
    (hnone : (s.claims g (s.allCands g ks)).isEmpty = true)
    (hread : (s.probed g).all (fun p => rs.any (fun r => r.panel == p)) = true)
    (hfits : rs.all (fun r => !(s.probed g).contains r.panel || s.probeFits r) = true) :
    execProbeStrike g ks rs s = .next (
      each ((s.probed g).filterMap (fun p => rs.find? (fun r => r.panel == p))) State.probePanel
        (s.onGroup g (fun x => { x with probes := x.probes + 1 }))) := by
  have hnotQuiet : (s.primer.eff.mode != 2) = true := bne_iff_ne.2 hmode
  simp only [execProbeStrike, hs, hg, hrun, hfence, hnotQuiet, hmax, hnone, hread, hfits, decide_true, Bool.not_false, Bool.and_self,
    onlyIf_true]

/-- A group that has had its PROBE_MAX slots gets no other in the tick (R128). -/
theorem execProbeStrike_of_max (hmax : s.primer.eff.probeMax.toNat ≤ (s.group g).probes) (ks : List StrikeCand) (rs : List ProbeRead) :
    execProbeStrike g ks rs s = .next s := by
  simp [execProbeStrike, Nat.not_lt.2 hmax]

/-- In QUIET mode no panel is probed (R128). -/
theorem execProbeStrike_of_quiet (hmode : s.primer.eff.mode = 2) (g : Nat) (ks : List StrikeCand) (rs : List ProbeRead) :
    execProbeStrike g ks rs s = .next s := by
  simp [execProbeStrike, hmode]

end

/-- Settles O11: a slot under its guards, the two guards that close it, and the count at an edge. -/
theorem probesStayWithinTheirMaximum : Obligations.ProbesStayWithinTheirMaximum := by
  refine ⟨fun _ _ _ _ => execProbeStrike_of_slot, ?_, fun _ ks rs _ hmax => execProbeStrike_of_max hmax ks rs,
    fun g ks rs _ hmode => execProbeStrike_of_quiet hmode g ks rs, fun s g => by rw [tickResets_group]⟩
  intro g ks rs s hs hg hrun hfence hmode hmax hnone hread hfits
  have hreads : (s.probed g).all (fun p => rs.any (fun r => r.panel == p)) = true := by simpa using hread
  have hcodes : rs.all (fun r => !(s.probed g).contains r.panel || s.probeFits r) = true := by
    simpa [imp_iff_not_or] using hfits
  exact execProbeStrike_of_slot hs hg hrun hfence hmode hmax (List.isEmpty_iff.2 hnone) hreads hcodes

end Sys2Proof.Machine
end

section
/-! SUPPORT. What Easel keeps over time: trims, powered hours, allowances, the private key and the slot's digest (R145, R165, R187, R674,
R678). -/

namespace Sys2Proof.Machine

section
variable {s : State}

/-- Where the chest's controller serves, the trims are written as a record and kept per panel, beside an allowance that stays (R145, R165). -/
theorem saveTrims_of_unfenced (h : s.chest.fenced = false) :
    s.saveTrims = { s.recTrims with boot := { s.boot with nv := { s.boot.nv with
      panels := s.panels.panels.foldl (fun t p => modify { allow := 4 } p.1 (fun r => { r with
        w0 := p.2.w0.trims, w1 := p.2.w1.trims, w2 := p.2.w2.trims, w3 := p.2.w3.trims }) t) s.boot.nv.panels } } } := by
  rw [State.saveTrims, h]
  rfl

/-- A tick whose count is a multiple of 65,536 saves the trims (R145). -/
theorem execTrimSave_of_due (hs : s.serving = true) (hb : s.tick.begun = true) (hn : s.tick.count.toNat % 65536 = 0) :
    execTrimSave s = .next s.saveTrims := by
  simp [execTrimSave, hs, hb, hn]

/-- No other tick saves them. -/
theorem execTrimSave_of_not_due (hn : s.tick.count.toNat % 65536 ≠ 0) : execTrimSave s = .next s := by
  simp [execTrimSave, beq_false_of_ne hn]

/-- Under power an hour counts, and in PNL_HOURS once that has been loaded (R165, R187). -/
theorem execPoweredHour_of_power (hp : s.pins.pwrGood = true) :
    execPoweredHour s = .next { s with
      pins := { s.pins with aonHours := s.pins.aonHours + 1 }
      panels := { s.panels with hours := if s.boot.wearLoaded then satInc s.panels.hours else s.panels.hours } } :=
  congrArg _ (onlyIf_of hp)

/-- A gain that is due gives every panel one more of its allowance, to 4 at most, and saves the records (R165). -/
theorem execAllowanceGain_of_due (hr : s.ready = true) (hd : s.dead = false) (hw : s.boot.wearLoaded = true)
    (hg : s.pins.gains < s.pins.aonHours / 2190) :
    execAllowanceGain s = .next (State.savePanels { s with
      pins := { s.pins with gains := s.pins.gains + 1 }
      panels := { s.panels with panels := s.panels.panels.map (fun p => (p.1, { p.2 with
        allow := if p.2.allow.toNat < 4 then p.2.allow + 1 else 4 })) } }) :=
  congrArg _ (onlyIf_of (by simp [hr, hd, hw, hg]))

/-- With every 2,190 hours' gain given, none is due (R165). -/
theorem execAllowanceGain_of_not_due (hg : s.pins.aonHours / 2190 ≤ s.pins.gains) : execAllowanceGain s = .next s := by
  simp [execAllowanceGain, Nat.not_lt.2 hg]

/-- The private key is expanded once, and the ATTESTs that waited for it follow (R674). -/
theorem execKeyExpansionDone_of_due (hu : s.up = true) (hs : s.boot.secReady = true) (hf : s.boot.secFenced = false)
    (hk : s.boot.keyReady = false) :
    execKeyExpansionDone s = .next (s.onBoot (fun b => { b with keyReady := true })).attestWaiting := by
  simp [execKeyExpansionDone, hu, hs, hf, hk]

/-- The digest of the inactive slot is taken, and the ATTESTs that waited for it follow (R678). -/
theorem execSlotDigestDone_of_due (hu : s.up = true) (hn : s.boot.newDigest = true) :
    execSlotDigestDone s = .next (s.onBoot (fun b => { b with
      newDigest := false
      digestA := if b.slotB then s.chest.flash.imageDigest false else b.digestA
      digestB := if b.slotB then b.digestB else s.chest.flash.imageDigest true })).attestWaiting :=
  congrArg _ (onlyIf_of (and_of hu hn))

end

/-- Settles O50: each row that is due has its effect, and one that is not changes nothing. -/
theorem hoursTrimsAndDigests : Obligations.HoursTrimsAndDigests :=
  ⟨fun _ => execKeyExpansionDone_of_due, fun _ => execSlotDigestDone_of_due, fun _ => execAllowanceGain_of_due,
    fun _ => execTrimSave_of_due, fun _ => execPoweredHour_of_power,
    fun _ hs hb hn hf => (execTrimSave_of_due hs hb hn).trans (congrArg _ (saveTrims_of_unfenced hf)),
    fun _ => execTrimSave_of_not_due, fun _ => execPoweredHour_of_power, fun _ => execAllowanceGain_of_due,
    fun _ => execAllowanceGain_of_not_due, fun _ => execKeyExpansionDone_of_due, fun _ => execSlotDigestDone_of_due⟩

end Sys2Proof.Machine
end

section
/-! SUPPORT. Requests for a panel's programming: a place in the group's queue, or a refusal (R152, R159, R165, R166, R185, R498,
R512). -/

namespace Sys2Proof.Machine

/-- The request of a PANEL_PROGRAM of panel `n`. -/
def Taken.programReq (t : Taken) (n : Nat) : Req :=
  { kind := 0, panel := n, src := { obj := t.f 147 128, off := t.f 191 148 / 16384 * 16384 }, cmd := some t.cmd }

/-- The request of a PANEL_REPRIME of panel `n` from its source record. -/
def Taken.reprimeReq (t : Taken) (n : Nat) (src : Src) : Req := { kind := 1, panel := n, src := src, cmd := some t.cmd }

/-- The clamps that PANEL_PROGRAM counts before it looks at its object and its panel: SRCOFF and SLOT. -/
abbrev State.programClamps (t : Taken) (u : State) : State :=
  u.clamps t (bad (t.f 191 148 != t.f 191 148 / 16384 * 16384) 148 ++ (u.targetPanel t).2)

/-- The clamps of PANEL_REPRIME: SLOT and the payload's length. -/
abbrev State.reprimeClamps (t : Taken) (u : State) : State := u.clamps t ((u.targetPanel t).2 ++ t.lengthClamp 0)

/-- A queue of fewer than 64 requests takes one more (R159). -/
theorem queueReq_of_room {r : Req} {s : State} (h : (s.group (r.panel / 17)).queue.length < 64) :
    s.queueReq r = s.onGroup (r.panel / 17) (fun g => { g with queue := g.queue ++ [r] }) :=
  if_neg (Nat.not_le.2 h)

/-- A change of one panel that is then saved leaves every group. -/
theorem savePanel_onPanel_group (s : State) (n : Nat) (f : Panel → Panel) (g : Nat) :
    ((s.onPanel n f).savePanel n).group g = s.group g := rfl

section
variable {t : Taken} {u : State} {n : Nat}

/-- PANEL_PROGRAM of a FENCED panel is refused (R185). -/
theorem panelProgram_of_fenced {b : Obj} (hn : (u.targetPanel t).1 = some n)
    (hb : (u.programClamps t).obj (t.f 147 128) = some b) (hf : ((u.programClamps t).panel n).st = .fenced) :
    u.panelProgram t =
      (each (t.lengthClamp 0) (fun w s => s.clampAt t.ctx 0x22 w) (u.programClamps t)).refuseReq (some t.cmd) n := by
  simp only [State.panelProgram, hn, hb, if_pos hf]

/-- PANEL_PROGRAM from an object that is not defined is refused (R498). -/
theorem panelProgram_of_no_object (hn : (u.targetPanel t).1 = some n)
    (hb : (u.programClamps t).obj (t.f 147 128) = none) :
    u.panelProgram t =
      (each (t.lengthClamp 0) (fun w s => s.clampAt t.ctx 0x22 w) (u.programClamps t)).refuseReq (some t.cmd) n := by
  simp only [State.panelProgram, hn, hb, Option.getD_some]

/-- PANEL_PROGRAM of a panel that is not FENCED, from a defined object, asks for a place in the group's queue (R159, R512). -/
theorem panelProgram_of_defined {b : Obj} (hn : (u.targetPanel t).1 = some n)
    (hb : (u.programClamps t).obj (t.f 147 128) = some b) (hf : ((u.programClamps t).panel n).st ≠ .fenced) :
    u.panelProgram t =
      (each (bad ((u.programClamps t).inCurrentMap n != (t.f 202 202 == 1)) 202 ++ t.lengthClamp 0)
        (fun w s => s.clampAt t.ctx 0x22 w) (u.programClamps t)).queueReq (t.programReq n) := by
  simp only [State.panelProgram, hn, hb, if_neg hf, Taken.programReq]

/-- PANEL_REPRIME where GROUP and SLOT name no panel is refused. -/
theorem panelReprime_of_no_panel (hn : (u.targetPanel t).1 = none) :
    u.panelReprime t = (u.reprimeClamps t).refuseReq (some t.cmd) 0 := by
  simp only [State.panelReprime, hn]

/-- PANEL_REPRIME of a panel without a source record is refused (R152). -/
theorem panelReprime_of_no_source (hn : (u.targetPanel t).1 = some n) (hs : ((u.reprimeClamps t).panel n).src = none) :
    u.panelReprime t = (u.reprimeClamps t).refuseReq (some t.cmd) n := by
  simp only [State.panelReprime, hn, hs]

/-- The guards of PANEL_REPRIME on a panel with a source record: one that holds refuses it (R152, R159, R166, R185). -/
abbrev State.reprimeBarred (n : Nat) (src : Src) (s : State) : Prop :=
  (s.panel n).st = .empty ∨ (s.panel n).st = .spare ∨ (s.panel n).st = .fenced ∨ (s.obj src.obj).isNone ∨
    (s.panel n).allow = 0 ∨ 64 ≤ (s.group (n / 17)).queue.length

variable {src : Src}

/-- PANEL_REPRIME that a guard bars is refused. -/
theorem panelReprime_of_barred (hn : (u.targetPanel t).1 = some n) (hs : ((u.reprimeClamps t).panel n).src = some src)
    (hb : (u.reprimeClamps t).reprimeBarred n src) :
    u.panelReprime t = (u.reprimeClamps t).refuseReq (some t.cmd) n := by
  simp only [State.panelReprime, hn, hs, if_pos hb]

/-- PANEL_REPRIME that no guard bars takes one of the panel's allowance and joins the queue, whose room the guard has seen (R165). -/
theorem panelReprime_of_free (hn : (u.targetPanel t).1 = some n) (hs : ((u.reprimeClamps t).panel n).src = some src)
    (hb : ¬ (u.reprimeClamps t).reprimeBarred n src) :
    u.panelReprime t =
      (((u.reprimeClamps t).onPanel n (fun x => { x with allow := x.allow - 1 })).savePanel n).onGroup (n / 17)
        (fun g => { g with queue := g.queue ++ [t.reprimeReq n src] }) := by
  have hroom : ¬ 64 ≤ ((u.reprimeClamps t).group (n / 17)).queue.length := fun h => hb (.inr (.inr (.inr (.inr (.inr h)))))
  simp only [State.panelReprime, hn, hs, if_neg hb]
  refine queueReq_of_room (r := t.reprimeReq n src) ?_
  rw [savePanel_onPanel_group]
  exact Nat.not_le.1 hroom

/-- A SERVING or MARKED panel with an allowance, whose source is defined and whose group's queue has room, is not barred. -/
theorem not_reprimeBarred {s : State} (hst : (s.panel n).st = .serving ∨ (s.panel n).st = .marked)
    (ho : (s.obj src.obj).isSome = true) (ha : (s.panel n).allow ≠ 0) (hq : (s.group (n / 17)).queue.length < 64) :
    ¬ s.reprimeBarred n src := by
  rintro (h | h | h | h | h | h)
  · simp [h] at hst
  · simp [h] at hst
  · simp [h] at hst
  · simp [Option.isNone_iff_eq_none.1 h] at ho
  · exact ha h
  · exact Nat.not_le.2 hq h

end

section
variable {p : Packet} {t : Taken} {u s : State}

/-- PANEL_PROGRAM, taken. -/
theorem execPanelProgram_of_take (h : s.take p (isOp 0x22) = (some t, u)) : exec (.panelProgram p) s = .next (u.panelProgram t) :=
  congrArg _ (command_of_take h _)

/-- PANEL_REPRIME, taken. -/
theorem execPanelReprime_of_take (h : s.take p (isOp 0x23) = (some t, u)) : exec (.panelReprime p) s = .next (u.panelReprime t) :=
  congrArg _ (command_of_take h _)

end

/-- Settles O44: each command, taken, has the effect that its panel, its source, the allowance and the queue give. -/
theorem panelRequestsAreQueuedOrRefused : Obligations.PanelRequestsAreQueuedOrRefused := by
  refine ⟨fun _ _ _ _ => execPanelProgram_of_take, fun _ _ _ _ => execPanelReprime_of_take, ?_, ?_⟩
  · intro p t u s n h hn
    have hexec := execPanelProgram_of_take h
    exact ⟨fun b hb hf => hexec.trans (congrArg _ (panelProgram_of_fenced hn hb hf)),
      fun hb => hexec.trans (congrArg _ (panelProgram_of_no_object hn hb)),
      fun b hb hf => hexec.trans (congrArg _ (panelProgram_of_defined hn hb hf))⟩
  · intro p t u s h
    have hexec := execPanelReprime_of_take h
    refine ⟨fun hn => hexec.trans (congrArg _ (panelReprime_of_no_panel hn)), fun n hn =>
      ⟨fun hs => hexec.trans (congrArg _ (panelReprime_of_no_source hn hs)), fun src hs => ⟨?_, ?_⟩⟩⟩
    · rintro (ha | hf)
      · exact hexec.trans (congrArg _ (panelReprime_of_barred hn hs (.inr (.inr (.inr (.inr (.inl ha)))))))
      · exact hexec.trans (congrArg _ (panelReprime_of_barred hn hs (.inr (.inr (.inl hf)))))
    · intro hst ho ha hq
      exact hexec.trans (congrArg _ (panelReprime_of_free hn hs (not_reprimeBarred hst ho ha hq)))

end Sys2Proof.Machine
end

section
/-! SUPPORT. A Liner engine's tile: its start, its load phase and its end (R42, R44, R70, R194 to R198, R223). -/

namespace Sys2Proof.Machine

/-- The engine's arbiter takes the one tile, whether it is REALTIME work or not (R44). -/
theorem pickTile_singleton (e : Nat) (k : TileCand) (s : State) : s.pickTile e [k] = some k := by
  cases h : s.tileReal k with
  | true => simp [State.pickTile, chooseCtx, nextAfter_one, h]
  | false => simp [State.pickTile, chooseCtx, nextAfter_one, h]

section
variable {e : Nat} {s : State}

/-- On a free engine the tiles whose inputs are absent wait, and of the others the arbiter's choice is served; of the others a BESTEFFORT one counts
only with tokens for its cost (R44, R67, R194). -/
theorem execTileStart_of_free (hs : s.serving = true) (hf : (s.eng e).fenced = false) (hr : (s.eng e).ready = true)
    (ht : (s.eng e).tile.isNone = true) (ks : List TileCand) :
    execTileStart e ks s = .next (
      let ks := s.engTiles e ks
      let now := ks.filter (fun k => !s.tileAbsent e k && (s.tileReal k || decide (s.tileCost k ≤ (s.ctx k.ctx).cycleTok e)))
      let t := s.waitTiles e (ks.filter (s.tileAbsent e))
      match s.pickTile e now with
      | some k => t.serveTile e k
      | none => t) :=
  congrArg _ (onlyIf_of (by rw [hs, hf, hr, ht]; rfl))

/-- The one tile on offer, REALTIME work whose inputs are there, is served and none waits. -/
theorem execTileStart_of_one_real {ks : List TileCand} {k : TileCand} (hs : s.serving = true) (hf : (s.eng e).fenced = false)
    (hr : (s.eng e).ready = true) (ht : (s.eng e).tile.isNone = true) (hone : s.engTiles e ks = [k])
    (hhere : s.tileAbsent e k = false) (hreal : s.tileReal k = true) :
    execTileStart e ks s = .next ((s.waitTiles e []).serveTile e k) := by
  have hwait : [k].filter (s.tileAbsent e) = [] := by simp [hhere]
  have hnow : [k].filter (fun k => !s.tileAbsent e k && (s.tileReal k || decide (s.tileCost k ≤ (s.ctx k.ctx).cycleTok e))) = [k] := by
    simp [hhere, hreal]
  rw [execTileStart_of_free hs hf hr ht]
  simp only [hone, hwait, hnow, pickTile_singleton]

section
variable {t : Tile} (ht : (s.eng e).tile = some t) (hu : s.up = true)
include ht hu

/-- A tile at the end of its compute phase: a failed line check, parts of an output that are not there yet, or the charge of the excess and the
results (R198, R200, R207). -/
theorem execTileEnd_of_computing (hc : t.computing = true) (wait : Nat) (upset : Option (Nat × Line)) :
    execTileEnd e wait upset s = .next (
      let m := s.mapFor t.ctx t.work
      let ran := m.tileCycles t.toTileCand + wait
      let u := (s.eng e).upset upset
      let count (x : Engine) : Engine := { x with compCyc := x.compCyc + BitVec.ofNat 32 ran }
      match u.2 with
      | some l => (s.onEng e (fun _ => count u.1)).lineCheck e l t
      | none =>
        if !t.dead && !t.retouch && !s.partsHere t m then s.onEng e (fun _ => { u.1 with phase := 3 })
        else
          let s := ((s.onEng e (fun _ => count u.1)).chargeExcess e t ran).idleEng e
          onlyIf (!t.dead && !t.retouch) (State.tileResults e t) s) := by
  unfold execTileEnd
  rw [ht]
  exact congrArg _ (onlyIf_of (and_of hu hc))

/-- A dead tile leaves the engine at its end with its cycles counted, the excess charged and no results (R70, R198). -/
theorem execTileEnd_of_dead (hc : t.computing = true) (hd : t.dead = true) (wait : Nat) :
    execTileEnd e wait none s = .next (
      let ran := (s.mapFor t.ctx t.work).tileCycles t.toTileCand + wait
      ((s.onEng e (fun _ => { s.eng e with compCyc := (s.eng e).compCyc + BitVec.ofNat 32 ran })).chargeExcess e t ran).idleEng e) := by
  rw [execTileEnd_of_computing ht hu hc]
  simp only [Engine.upset, hd, Bool.not_true, Bool.false_and, Bool.false_eq_true, if_false, onlyIf_false]

/-- A tile at the end of its load phase: a dead one leaves; a line that is not there is waited for; else the lines stand in scratch, and unless one
fails its check the compute phase begins (R195, R196, R200, R317). -/
theorem execLoadPhaseComplete_of_loading (hc : t.computing = false) (wait : Nat) (upset : Option (Nat × Line)) :
    execLoadPhaseComplete e wait upset s = .next (
      if t.dead then (s.countLoad e (t.loadCycles wait)).idleEng e
      else
        let d := s.readEach (0x50 + e) t.ctx (t.loads.map (·.1))
        if d.2.1 then d.2.2.onEng e (fun x => { x with phase := 3 })
        else
          let s := (d.2.2.loadLines e t d.1).countLoad e (t.loadCycles wait)
          let u := (s.eng e).upset upset
          let s := s.onEng e (fun _ => u.1)
          match u.2 with
          | some l => s.lineCheck e l t
          | none => s.beginCompute e (t.loadCycles wait) t) := by
  unfold execLoadPhaseComplete
  rw [ht]
  exact congrArg _ (onlyIf_of (and_of hu (by rw [hc]; rfl)))

/-- A dead tile leaves the engine at the end of its load phase with its cycles counted (R70). -/
theorem execLoadPhaseComplete_of_dead (hc : t.computing = false) (hd : t.dead = true) (wait : Nat) (upset : Option (Nat × Line)) :
    execLoadPhaseComplete e wait upset s = .next ((s.countLoad e (t.loadCycles wait)).idleEng e) :=
  (execLoadPhaseComplete_of_loading ht hu hc wait upset).trans (congrArg _ (if_pos hd))

end
end

/-- Settles O12: a free engine's choice, which of one tile is that tile, and the two ends of a phase, with and without a dead tile. -/
theorem tilesStartLoadAndCompute : Obligations.TilesStartLoadAndCompute :=
  ⟨fun _ ks _ hs hf hr ht => execTileStart_of_free hs hf hr ht ks,
    fun _ wait upset _ _ ht hu hc => execTileEnd_of_computing ht hu hc wait upset,
    fun _ wait upset _ _ ht hu hc => execLoadPhaseComplete_of_loading ht hu hc wait upset,
    fun _ _ _ _ hs hf hr ht => execTileStart_of_one_real hs hf hr (Option.isNone_iff_eq_none.2 ht),
    fun _ wait _ _ hu ht hc hd => execLoadPhaseComplete_of_dead ht hu hc hd wait none,
    fun _ wait _ _ hu ht hc hd => execTileEnd_of_dead ht hu hc hd wait⟩

end Sys2Proof.Machine
end

section
/-! SUPPORT. Waits for streamed swatches, and Retouch steps (R68, R223, R227, R229, R231). -/

namespace Sys2Proof.Machine

section
variable {e c : Nat} {s : State}

/-- A wait for swatches that has expired ends where they have arrived, and hands a REALTIME context's work over where they have not (R223, R231). -/
theorem execSwwaitExpiry_of_late (hs : s.serving = true) (hw : (s.eng e).waits.any (fun w => w.ctx == c && s.tileLate e w) = true)
    (arrived : Bool) :
    execSwwaitExpiry e c arrived s = .next (
      if arrived then s.endWait e c
      else if (s.ctx c).bind.realtime && !(s.ctx c).fence && (s.ctx c).handed == 0 && s.holds c then
        ((s.endWait e c).onCtx c (fun x => { x with cnt := { x.cnt with linLate := satInc x.cnt.linLate } })).handover c 6
      else s) :=
  congrArg _ (onlyIf_of (and_of hs hw))

/-- A REALTIME context that holds work and has not handed over in the tick hands over with cause SWATCH_LATE, and LIN_CTX_LATE counts (R68, R223). -/
theorem execSwwaitExpiry_of_realtime (hs : s.serving = true) (hw : (s.eng e).waits.any (fun w => w.ctx == c && s.tileLate e w) = true)
    (hr : (s.ctx c).bind.realtime = true) (hf : (s.ctx c).fence = false) (hfirst : (s.ctx c).handed = 0) (hh : s.holds c = true) :
    execSwwaitExpiry e c false s = .next (
      ((s.endWait e c).onCtx c (fun x => { x with cnt := { x.cnt with linLate := satInc x.cnt.linLate } })).handover c 6) := by
  have hgoes : ((s.ctx c).bind.realtime && !(s.ctx c).fence && (s.ctx c).handed == 0 && s.holds c) = true := by
    simp [hr, hf, hfirst, hh]
  rw [execSwwaitExpiry_of_late hs hw, if_neg Bool.false_ne_true, if_pos hgoes]

/-- A BESTEFFORT tile waits on (R223). -/
theorem execSwwaitExpiry_of_besteffort (hr : (s.ctx c).bind.realtime = false) (e : Nat) : execSwwaitExpiry e c false s = .next s := by
  simp [execSwwaitExpiry, onlyIf, hr]

end

section
variable {c : Nat} {r : RetouchRun} {s : State}

/-- A context without Retouch is not changed. -/
theorem execRetouchStepDone_of_no_retouch (hx : (s.ctx c).retouch = none) (inp : RetouchIn) : execRetouchStepDone c inp s = .next s := by
  simp only [execRetouchStepDone, hx]

section
variable (hx : (s.ctx c).retouch = some r) (hs : s.serving = true) (hn : r.done + r.ready < r.steps)
include hx hs hn

/-- A step that is done counts alone where a swatch spoiled it, and else is taken (R227, R229). -/
theorem execRetouchStepDone_of_step (inp : RetouchIn) :
    execRetouchStepDone c inp s = .next (
      if r.spoiled then s.onCtx c (fun x => { x with retouch := some { r with done := r.done + 1, spoiled := false } })
      else s.retouchStep c r inp) := by
  simp only [execRetouchStepDone, hx, hs, hn, decide_true, Bool.and_self, onlyIf_true]

/-- A spoiled step counts and writes nothing (R229). -/
theorem execRetouchStepDone_of_spoiled (hb : r.spoiled = true) (inp : RetouchIn) :
    execRetouchStepDone c inp s =
      .next (s.onCtx c (fun x => { x with retouch := some { r with done := r.done + 1, spoiled := false } })) :=
  (execRetouchStepDone_of_step hx hs hn inp).trans (congrArg _ (if_pos hb))

/-- A step that is not spoiled is taken. -/
theorem execRetouchStepDone_of_good (hb : r.spoiled = false) (inp : RetouchIn) :
    execRetouchStepDone c inp s = .next (s.retouchStep c r inp) :=
  (execRetouchStepDone_of_step hx hs hn inp).trans (congrArg _ (if_neg (Bool.eq_false_iff.1 hb)))

end

/-- A step that could read all its data has one more step ready for the edge, with new copies of A and B of each of its layers (R227, R229). -/
theorem retouchStep_of_read {inp : RetouchIn}
    (hd : (s.retouchReads (s.curMap c) r inp 0 (retouchPlaces (s.curMap c) r.nsamp r.layers 0 0)).2.1 = false) :
    s.retouchStep c r inp = (
      let d := s.retouchReads (s.curMap c) r inp 0 (retouchPlaces (s.curMap c) r.nsamp r.layers 0 0)
      d.2.2.onCtx c (fun x => { x with
        retouch := some { r with ready := r.ready + 1 }
        low := d.1.foldl (fun t i => modify {} i.layer (fun w => w.step ((s.curMap c).ll i.layer) r i) t) x.low })) :=
  if_neg (Bool.eq_false_iff.1 hd)

end

/-- Settles O13: each way in which a wait ends or goes on, and each kind of Retouch step. -/
theorem streamedWaitAndRetouchSteps : Obligations.StreamedWaitAndRetouchSteps :=
  ⟨fun _ _ arrived _ hs hw => execSwwaitExpiry_of_late hs hw arrived,
    fun _ inp _ _ hx hs hn => execRetouchStepDone_of_step hx hs hn inp,
    fun _ _ _ hs hw => execSwwaitExpiry_of_late hs hw true,
    fun _ _ _ => execSwwaitExpiry_of_realtime,
    fun e _ _ hr => execSwwaitExpiry_of_besteffort hr e,
    fun _ inp _ _ hs hx hb hn => execRetouchStepDone_of_spoiled hx hs hn hb inp,
    fun _ inp _ _ hs hx hb hn hd => (execRetouchStepDone_of_good hx hs hn hb inp).trans (congrArg _ (retouchStep_of_read hd)),
    fun _ inp _ hx => execRetouchStepDone_of_no_retouch hx inp⟩

end Sys2Proof.Machine
end

section
/-! SUPPORT. Warp jobs and the cache of source lines (R238 to R241, R244, R245). -/

namespace Sys2Proof.Machine

/-- A job that can run, on planes that its frames have, waits for grid rows that are not produced or do not read, and else makes its rows (R238, R241,
R245). -/
theorem execWarpJob_of_runnable {ctx : Nat} {work : Work} {inp : WarpIn} {t : Machine.Task} {p q luma : PlaneRef} {s : State}
    (ht : s.task work.owner work.frame work.part = some t) :
    let m := s.mapFor ctx work
    let j := m.warp.getD inp.job {}
    let pics := (s.ctx t.ctx).pictures t
    let cur := pics.getD 0 []
    cur[inp.plane]? = some p → (if j.mode then (pics.getD 1 [])[inp.plane]? else cur[inp.plane]?) = some q → cur[0]? = some luma →
    let sub := (decide (p.w < luma.w), decide (p.h < luma.h))
    let outW := if sub.1 then ceilDiv inp.w 2 else inp.w
    let outH := if sub.2 then ceilDiv inp.h 2 else inp.h
    s.serving = true → s.wp.wReady = true → s.servable ctx = true → s.workOpen ctx work = true → s.ownWaits ctx work = false →
    inp.job < m.warp.length → 0 < inp.rows ∧ inp.row0 + inp.rows ≤ outH →
    let k0 := (j.cell 0 (lumaAt sub.2 (fmtMid t.ofmt).2 inp.row0)).k
    let k1 := (j.cell 0 (lumaAt sub.2 (fmtMid t.ofmt).2 (inp.row0 + inp.rows - 1))).k + 1
    let r := s.wp.runOf ctx work inp
    let g := s.readSpan 4 ctx (inp.grid + k0 * gridStride j inp.w) ((k1 + 1 - k0) * gridStride j inp.w)
    execWarpJob ctx work inp s = .next (
      if inp.gridRows ≤ k1 then s.warpWaits r
      else if g.2.1 then g.2.2.warpWaits r else g.2.2.warpRows r m j p q sub (fmtMid t.ofmt) outW k0 g.1) := by
  intro m j pics cur hp hq hl sub outW outH hs hw hv ho hown hj hrows
  simp only [execWarpJob, ht]
  split
  next p' q' luma' hp' hq' hl' =>
    cases hp.symm.trans hp'
    cases hq.symm.trans hq'
    cases hl.symm.trans hl'
    exact congrArg _ (onlyIf_of
      (and_of (and_of (and_of (and_of (and_of (and_of hs hw) hv) ho) (by rw [hown]; rfl)) (decide_eq_true hj)) (decide_eq_true hrows)))
  next hnone => exact (hnone p q luma hp hq hl).elim

/-- A list that gives up its first entry when it is full stays within its size as an entry joins it. -/
theorem length_drop_of_full_append_le {α : Type} {k : List α} {n : Nat} (hn : 0 < n) (hk : k.length ≤ n) (x : α) :
    ((if n ≤ k.length then k.drop 1 else k) ++ [x]).length ≤ n := by
  split
  · simp only [List.length_append, List.length_drop, List.length_singleton]; omega
  · simp only [List.length_append, List.length_singleton]; omega

section
variable {l : Nat} {s : State}

/-- A line that nothing waits for changes nothing (R238). -/
theorem execSourceLineFill_of_unwanted (h : s.wp.wants l = none) (n : Nat) : execSourceLineFill l n s = .next s := by
  simp only [execSourceLineFill, h]

/-- A line that the cache holds changes nothing (R238). -/
theorem execSourceLineFill_of_held (h : s.wp.cache.any (fun x => x.1 == l) = true) (n : Nat) : execSourceLineFill l n s = .next s := by
  cases hw : s.wp.wants l with
  | none => exact execSourceLineFill_of_unwanted hw n
  | some c => simp only [execSourceLineFill, hw, h, Bool.not_true, Bool.and_false, onlyIf_false]

/-- A line that a gather waits for is read, with the cycles lost counted, and joins the cache if it reads well, the oldest line leaving a full one
(R238). -/
theorem execSourceLineFill_of_wanted {c : Nat} (hw : s.wp.wants l = some c) (hs : s.serving = true) (hr : s.wp.wReady = true)
    (hnew : (!s.wp.cache.any (fun x => x.1 == l)) = true) (n : Nat) :
    execSourceLineFill l n s = .next (
      let r := s.readEach 4 c [l]
      let s := r.2.2.onWp (fun w => { w with missCyc := w.missCyc + BitVec.ofNat 32 n })
      if r.2.1 then s
      else s.onWp (fun w => { w with cache := (if 4096 ≤ w.cache.length then w.cache.drop 1 else w.cache) ++ [(l, lineOf r.1)] })) := by
  simp only [execSourceLineFill, hw]
  exact congrArg _ (onlyIf_of (and_of (and_of hs hr) hnew))

/-- The cache and the cycles lost after a line that a gather waits for and that reads well (R238). -/
theorem execSourceLineFill_of_read {c : Nat} (hw : s.wp.wants l = some c) (hs : s.serving = true) (hr : s.wp.wReady = true)
    (hnew : (!s.wp.cache.any (fun x => x.1 == l)) = true) (hread : (s.readEach 4 c [l]).2.1 = false) (n : Nat) :
    let r := s.readEach 4 c [l]
    ∃ t, execSourceLineFill l n s = .next t ∧
      t.wp.cache = (if 4096 ≤ r.2.2.wp.cache.length then r.2.2.wp.cache.drop 1 else r.2.2.wp.cache) ++ [(l, lineOf r.1)] ∧
      t.wp.missCyc = r.2.2.wp.missCyc + BitVec.ofNat 32 n :=
  ⟨_, (execSourceLineFill_of_wanted hw hs hr hnew n).trans (congrArg _ (if_neg (Bool.eq_false_iff.1 hread))), rfl, rfl⟩

end

/-- Settles O14: a job that can run, and a source line that is read, held already or not waited for; the cache keeps its size and its newest line. -/
theorem warpGathersAndSourceLines : Obligations.WarpGathersAndSourceLines :=
  ⟨fun _ _ _ _ _ _ _ _ ht => execWarpJob_of_runnable ht,
    fun _ n _ _ hw hs hr hnew => execSourceLineFill_of_wanted hw hs hr hnew n,
    fun _ n _ _ hs hr hw hnew =>
      ⟨fun hread => execSourceLineFill_of_read hw hs hr (by rw [hnew]; rfl) hread n,
        fun _ hk => ⟨length_drop_of_full_append_le (by decide) hk _, List.getLast?_concat⟩⟩,
    fun _ n _ hheld => execSourceLineFill_of_held hheld n,
    fun _ n _ hw => execSourceLineFill_of_unwanted hw n⟩

end Sys2Proof.Machine
end

section
/-! SUPPORT. The Pixel unit's unpack, pack and classical lane (R63, R65, R66, R235, R237, R248, R255, R257, R258). -/

namespace Sys2Proof.Machine

section
variable {c f p : Nat} {t0 : Machine.Task} {s : State}

/-- A payload that has arrived whole, its earlier parts ahead of it, is laid out byte by byte for tensors and as planes for a picture (R235, R248). -/
theorem execPayloadUnpack_of_whole (ht : s.task c f p = some t0) (hs : s.serving = true) (hr : s.wp.pReady = true) (hlast : t0.last = true)
    (hready : t0.ready = true) (hparts : (s.easel.tasks.filter (fun u => u.partOf t0)).all (·.ready) = true) (hnew : t0.unpacked = false)
    (w h : Nat) (dst : List Nat) (acts : Nat) :
    execPayloadUnpack c f p w h dst acts s = .next (
      let t := { t0 with payload := (s.easel.tasks.filter (fun u => u.partOf t0)).flatMap (·.payload) ++ t0.payload }
      let s := s.endParts t
      if (s.taskMap t.ctx t).tensors then
        (s.writeSpan 3 c acts t.payload).onTask t.cmd.seq (fun u => { u with unpacked := true, acts := some (acts, t.payload.length) })
      else s.unpackPicture t w h dst acts) := by
  simp only [execPayloadUnpack, ht]
  exact congrArg _ (onlyIf_of (and_of (and_of (and_of (and_of (and_of hs hr) hlast) hready) hparts) (by rw [hnew]; rfl)))

/-- A payload that came in one part is laid out as it is. -/
theorem execPayloadUnpack_of_one_part (ht : s.task c f p = some t0) (hone : s.easel.tasks.filter (fun u => u.partOf t0) = [])
    (hs : s.serving = true) (hr : s.wp.pReady = true) (hlast : t0.last = true) (hready : t0.ready = true) (hnew : t0.unpacked = false)
    (w h : Nat) (dst : List Nat) (acts : Nat) :
    execPayloadUnpack c f p w h dst acts s = .next (
      let s := s.endParts t0
      if (s.taskMap t0.ctx t0).tensors then
        (s.writeSpan 3 c acts t0.payload).onTask t0.cmd.seq (fun u => { u with unpacked := true, acts := some (acts, t0.payload.length) })
      else s.unpackPicture t0 w h dst acts) := by
  rw [execPayloadUnpack_of_whole ht hs hr hlast hready (by rw [hone]; rfl) hnew, hone]
  rfl

/-- The next block of work that a context holds is packed from the activations read, with OK for the owner and OK_FALLBACK and the cause for the
fallback; without its lines it waits (R63, R255). -/
theorem execPack_of_due {line0 : Nat} (ht : s.task c f p = some t0) :
    let d := match t0.by_ with | some (.ctx d) => d | _ => t0.ctx
    let w : Work := { owner := c, frame := f, part := p }
    s.serving = true → s.wp.pReady = true → t0.unpacked = true → s.due t0 = true → t0.workOf d = true → s.servable d = true →
    t0.packed < t0.blocks ∧ t0.line ≤ line0 → (!s.ownWaits d w) = true → ∀ (lines before after out : Nat) (acts : List Nat) (count : Nat),
    execPack c f p line0 lines before after out acts count s = .next (
      let m := s.mapFor d w
      let r := s.readActs d (linBits out) count acts
      if r.2.1 then r.2.2
      else (r.2.2.onTask t0.cmd.seq (fun u => { u with line := line0 + lines })).queueBlock t0 d {
        idx := t0.packed, line0 := line0, lines := lines, status := if t0.by_.isNone then 0 else 1,
        cause := if t0.by_.isNone then 0 else t0.cause, payload := m.packPayload t0.ofmt out before lines after r.1 }) := by
  intro d w hs hr hu hd hw hv hl hown lines before after out acts count
  simp only [execPack, ht]
  exact congrArg _ (onlyIf_of
    (and_of (and_of (and_of (and_of (and_of (and_of (and_of hs hr) hu) hd) hw) hv) (decide_eq_true hl)) hown))

end

section
variable {j : ClassJob} {rest : List ClassJob} {line0 : Nat} {sizes : List (Nat × Nat)} {s : State}

/-- An empty lane makes no block (R258). -/
theorem execClassicalBlock_of_empty (h : s.wp.lane = []) (line0 lines : Nat) (sizes : List (Nat × Nat)) :
    execClassicalBlock line0 lines sizes s = .next s := by
  simp only [execClassicalBlock, h]

section
variable (hlane : s.wp.lane = j :: rest) (hs : s.serving = true) (hr : s.wp.pReady = true)
include hlane hs hr

/-- The lane's oldest work leaves it where its task is gone, and else makes a block of lines not yet passed in sizes that the scaler can make (R257,
R258). -/
theorem execClassicalBlock_of_lane (line0 lines : Nat) (sizes : List (Nat × Nat)) :
    execClassicalBlock line0 lines sizes s = .next (
      match s.task j.ctx j.frame.toNat j.part with
      | none => s.onWp (fun w => { w with lane := rest })
      | some t => onlyIf (decide (t.line ≤ line0) && ratiosOk (((s.ctx t.ctx).pictures t).getD 0 []) sizes)
          (State.classBlock j rest t line0 lines sizes) s) := by
  simp only [execClassicalBlock, hlane]
  exact congrArg _ (onlyIf_of (and_of hs hr))

/-- Work whose task is gone leaves the lane without a block. -/
theorem execClassicalBlock_of_no_task (ht : s.task j.ctx j.frame.toNat j.part = none) (line0 lines : Nat) (sizes : List (Nat × Nat)) :
    execClassicalBlock line0 lines sizes s = .next (s.onWp (fun w => { w with lane := rest })) := by
  rw [execClassicalBlock_of_lane hlane hs hr, ht]

/-- Work whose task is known makes its next block, for lines not yet passed and sizes within the ratios (R257, R258). -/
theorem execClassicalBlock_of_task {t : Machine.Task} (ht : s.task j.ctx j.frame.toNat j.part = some t) (hl : t.line ≤ line0)
    (hz : ratiosOk (((s.ctx t.ctx).pictures t).getD 0 []) sizes = true) (lines : Nat) :
    execClassicalBlock line0 lines sizes s = .next (State.classBlock j rest t line0 lines sizes s) := by
  rw [execClassicalBlock_of_lane hlane hs hr, ht]
  exact congrArg _ (onlyIf_of (and_of (decide_eq_true hl) hz))

end
end

/-- Settles O15: a payload in any number of parts and in one, the next block of a task, and each state of the classical lane; the block of known work
is `State.classBlock` written out. -/
theorem pixelPacksAndCarriesOkFallback : Obligations.PixelPacksAndCarriesOkFallback :=
  ⟨fun _ _ _ w h dst acts _ _ ht hs hr hlast hready hparts hnew =>
      execPayloadUnpack_of_whole ht hs hr hlast hready hparts hnew w h dst acts,
    fun _ _ _ _ lines before after out acts count _ _ ht hs hr hu hd hw hv hl hown =>
      execPack_of_due ht hs hr hu hd hw hv hl hown lines before after out acts count,
    fun line0 lines sizes _ _ _ hlane hs hr => execClassicalBlock_of_lane hlane hs hr line0 lines sizes,
    fun _ _ _ w h dst acts _ _ ht hone hs hr hlast hready hnew =>
      execPayloadUnpack_of_one_part ht hone hs hr hlast hready hnew w h dst acts,
    fun line0 lines sizes _ hlane => execClassicalBlock_of_empty hlane line0 lines sizes,
    fun line0 lines sizes _ _ _ hs hr hlane ht => execClassicalBlock_of_no_task hlane hs hr ht line0 lines sizes,
    fun _ lines _ _ _ _ _ hs hr hlane ht hl hz => execClassicalBlock_of_task hlane hs hr ht hl hz lines⟩

end Sys2Proof.Machine
end

section
/-! SUPPORT. An expander lane: the record that it takes, and what becomes of each kind of record (R284, R285, R287, R289 to R292, R294). -/

namespace Sys2Proof.Machine

section
variable {lane : Nat} {r : GlzIn} {s : State}

/-- The record that a lane takes next is its own, waits for no re-send, is the oldest of its tensor, and its consumer has granted credit (R285, R287,
R289). -/
theorem expandNext_eq_some (h : s.expandNext lane = some r) :
    r ∈ s.glaze.inq ∧ r.lane = lane ∧ r.asked = false ∧ s.glaze.inq.find? r.sameTensor = some r ∧ s.recGranted r = true := by
  have hmem : r ∈ s.glaze.inq := List.mem_of_find?_eq_some h
  have htake := List.find?_some h
  simp only [Bool.and_eq_true, beq_iff_eq, Bool.not_eq_true'] at htake
  obtain ⟨⟨⟨hlane, hasked⟩, hfirst⟩, hcredit⟩ := htake
  exact ⟨hmem, hlane, hasked, hfirst, hcredit⟩

/-- A lane without a record that it can take does nothing. -/
theorem execExpandBlock_of_none (h : s.expandNext lane = none) : execExpandBlock lane s = .next s := by
  simp only [execExpandBlock, h]

/-- A lane in service expands the record that it takes next (R289). -/
theorem execExpandBlock_of_some (h : s.expandNext lane = some r) (hs : s.serving = true) (hr : s.glaze.ready = true)
    (hf : s.glaze.fenced = false) : execExpandBlock lane s = .next (s.expand r) := by
  simp only [execExpandBlock, h]
  exact congrArg _ (onlyIf_of (and_of (and_of hs hr) (by rw [hf]; rfl)))

end

namespace State

/-- The state once the Weave credit of a record's lines is returned (R289, R572). -/
def credited (s : State) (r : GlzIn) : State := s.returnLines r.port 3 (ceilDiv r.bytes.length 64)

/-- The state once a record has left the receive buffer. -/
def dropRecord (s : State) (r : GlzIn) : State := s.onGlaze (fun g => { g with inq := g.inq.erase r })

/-- The state once the decoded block of a record has marked its table as used, is acknowledged, and has joined its consumer's entry (R284, R289,
R293). -/
def acceptBlock (s : State) (r : GlzIn) (b : List Byte) : State :=
  ((s.onGlaze (fun g => { g with
    dec := g.dec.map (fun d => if d.src = r.src ∧ d.tensor = recField r.bytes 63 48 then { d with used := g.clock } else d)
    clock := g.clock + 1 })).glzReply 0x32 r).storeBytes r.pair b (bit r.param 28) (bit r.param 31)

section
variable {r : GlzIn} {s : State}

/-- A table joins the tables held for its sender (R284). -/
theorem expand_of_table (ht : r.isTable = true) :
    s.expand r = ((s.credited r).dropRecord r).onGlaze (fun g => g.putDec r.src r.bytes) :=
  if_pos ht

section
variable (ht : r.isTable = false)
include ht

/-- A block of a fenced context or for a fenced consumer is dropped (R294). -/
theorem expand_of_outOfUse (hu : (s.credited r).outOfUse r = true) : s.expand r = (s.credited r).dropRecord r :=
  (if_neg (Bool.eq_false_iff.1 ht)).trans (if_pos hu)

variable (hu : (s.credited r).outOfUse r = false)
include hu

/-- A block that its consumer wants goes by what it decodes to. -/
theorem expand_of_wanted :
    s.expand r = match (s.credited r).glaze.decode r.src r.bytes with
      | none => (s.credited r).corruptBlock (((s.credited r).pairCtx r.pair).getD 0) r
      | some b => ((s.credited r).dropRecord r).acceptBlock r b :=
  (if_neg (Bool.eq_false_iff.1 ht)).trans (if_neg (Bool.eq_false_iff.1 hu))

/-- A block without a table of its generation, or whose code fails, is corrupt (R290, R291). -/
theorem expand_of_corrupt (hd : (s.credited r).glaze.decode r.src r.bytes = none) :
    s.expand r = (s.credited r).corruptBlock (((s.credited r).pairCtx r.pair).getD 0) r := by
  rw [expand_of_wanted ht hu, hd]

/-- A block that decodes leaves the receive buffer and is accepted (R289, R293). -/
theorem expand_of_decoded {b : List Byte} (hd : (s.credited r).glaze.decode r.src r.bytes = some b) :
    s.expand r = ((s.credited r).dropRecord r).acceptBlock r b := by
  rw [expand_of_wanted ht hu, hd]

end

/-- The first copy of a corrupt block counts, is asked for again, and holds its place (R291, R292). -/
theorem corruptBlock_of_first (ha : r.again = false) (c : Nat) :
    s.corruptBlock c r = ((s.onGlaze (fun g => { g with corrupt := satInc g.corrupt, corruptEvent := true })).onGlaze
      (fun g => { g with inq := g.inq.map (fun x => if x = r then { x with asked := true } else x) })).glzReply 0x33 r :=
  if_pos (by rw [ha]; rfl)

end
end State

/-- Settles O18: the record that a lane takes, an idle lane, and what becomes of a table, of a block that is out of use, of the first copy of a
corrupt block and of a block that decodes. -/
theorem glazeExpandsOrAsksAgain : Obligations.GlazeExpandsOrAsksAgain :=
  ⟨fun _ _ _ => execExpandBlock_of_some,
    fun _ _ => execExpandBlock_of_none,
    fun _ _ _ => expandNext_eq_some,
    fun _ _ _ hnext hs hr hf =>
      have hexpand := execExpandBlock_of_some hnext hs hr hf
      ⟨fun ht => hexpand.trans (congrArg _ (State.expand_of_table ht)),
        fun ht hu => hexpand.trans (congrArg _ (State.expand_of_outOfUse ht hu)),
        fun ht hu hd ha => hexpand.trans (congrArg _ ((State.expand_of_corrupt ht hu hd).trans (State.corruptBlock_of_first ha _))),
        fun _ ht hu hd => hexpand.trans (congrArg _ (State.expand_of_decoded ht hu hd))⟩⟩

end Sys2Proof.Machine
end

section
/-! SUPPORT. The accesses of one PAL cycle to a bank: the order in which they are served, and what becomes of each (R199, R302, R304, R308, R310,
R316, R325). -/

namespace Sys2Proof.Machine

/-- Of two requests the one of lower rank is served first, whichever came first (R304). -/
theorem servedOrder_pair {x y : PalReq} (h : reqRank x < reqRank y) : servedOrder [x, y] = [x, y] ∧ servedOrder [y, x] = [x, y] := by
  have hxy : reqRank x ≤ reqRank y := h.le
  have hyx : ¬ reqRank y ≤ reqRank x := h.not_ge
  constructor
  · simp [servedOrder, hxy]
  · simp [servedOrder, hyx]

namespace State

/-- The state at the start of a cycle's requests, before any unit has received an answer. -/
def beginCycle (s : State) : State := s.onPal (fun p => { p with answers := [] })

/-- The line that a request reads is scrubbed in its cycle: the bank serves the read (R316). -/
def scrubs (b : Nat) (r : PalReq) (s : State) : Bool := r.op == .read && (s.bank b).on && (s.bank b).ownedBy r.unit && !(s.bank b).holdsUp

section
variable {b : Nat} {q : PalReq} {s : State}

/-- A bank that is off answers ones with status DARK, and the access counts (R308). -/
theorem access_of_dark (hoff : (s.bank b).on = false) : s.access b q = (s.darkAccess q.unit).respond (BitVec.allOnes 512) 2 := by
  simp [access, hoff]

section
variable (hon : (s.bank b).on = true)
include hon

/-- A bank that another unit owns answers zeros with status NOT_OWNER, and the access counts (R302). -/
theorem access_of_not_owner (hown : (s.bank b).ownedBy q.unit = false) : s.access b q = (s.nonOwner q.unit).respond 0 1 := by
  simp [access, hon, hown]

variable (hown : (s.bank b).ownedBy q.unit = true)
include hown

/-- The owner's access waits while a handover, a ramp or a clear holds the bank up (R302, R306, R309). -/
theorem access_of_held (hheld : (s.bank b).holdsUp = true) :
    s.access b q = (s.onBank b (fun k => { k with waiting := k.waiting ++ [q] })).respond 0 5 := by
  simp [access, hon, hown, hheld]

/-- Else the tester yields the bank and the line is served (R325). -/
theorem access_of_free (hfree : (s.bank b).holdsUp = false) (hupset : q.upset = 0) :
    s.access b q = (s.testerYield b).serveLine b q := by
  simp [access, hon, hown, hfree, hupset]

/-- An access that waits is all that its request does: its unit receives no answer yet (R302). -/
theorem serveReq_of_held (hheld : (s.bank b).holdsUp = true) :
    s.serveReq b q = (s.onBank b (fun k => { k with waiting := k.waiting ++ [q] })).respond 0 5 := by
  rw [serveReq, access_of_held hon hown hheld]
  rfl

end

/-- A cycle with one request serves it, and then scrubs the line where the request read it. -/
theorem serveAll_singleton : s.serveAll b [q] = onlyIf (s.scrubs b q) (scrub b q.line) (s.beginCycle.serveReq b q) := by
  show each ([q].filter fun r => s.scrubs b r) (fun r => scrub b r.line) (s.beginCycle.serveReq b q) = _
  cases h : s.scrubs b q <;> simp [h]

/-- A read that the bank serves is followed by its scrub. -/
theorem serveAll_of_served_read (hon : (s.bank b).on = true) (hown : (s.bank b).ownedBy q.unit = true)
    (hfree : (s.bank b).holdsUp = false) (hread : q.op = .read) :
    s.serveAll b [q] = (s.beginCycle.serveReq b q).scrub b q.line := by
  have hscrubs : s.scrubs b q = true := by simp [scrubs, hread, hon, hown, hfree]
  rw [serveAll_singleton, hscrubs, onlyIf_true]

/-- A write, and a request to a bank that is off or another's, is served without a scrub. -/
theorem serveAll_of_not_read (h : q.op ≠ .read ∨ (s.bank b).on = false ∨ (s.bank b).ownedBy q.unit = false) :
    s.serveAll b [q] = s.beginCycle.serveReq b q := by
  have hscrubs : s.scrubs b q = false := by
    rcases h with h | h | h <;> simp [scrubs, h]
  rw [serveAll_singleton, hscrubs, onlyIf_false]

/-- A request that is held up waits, and nothing is scrubbed. -/
theorem serveAll_of_held (hon : (s.bank b).on = true) (hown : (s.bank b).ownedBy q.unit = true) (hheld : (s.bank b).holdsUp = true) :
    s.serveAll b [q] = (s.beginCycle.onBank b (fun k => { k with waiting := k.waiting ++ [q] })).respond 0 5 := by
  have hscrubs : s.scrubs b q = false := by simp [scrubs, hheld]
  rw [serveAll_singleton, hscrubs, onlyIf_false]
  exact serveReq_of_held (s := s.beginCycle) hon hown hheld

end
end State

section
variable {b : Nat} {s : State} (hu : s.up = true) (hb : b < 256)
include hu hb

/-- The requests of a cycle that name a line and an agent are served (R301, R304). -/
theorem execPalAccess_of_up (reqs : List PalReq) :
    execPalAccess b reqs s = .next (
      s.serveAll b (reqs.filter (fun r => decide (r.line < 8192 ∧ (r.agent = 0 ∨ r.agent = 2 ∨ r.agent = 6))))) :=
  congrArg _ (onlyIf_of (and_of hu (decide_eq_true hb)))

/-- The one request of a cycle is served. -/
theorem execPalAccess_of_one {r : PalReq} (hl : r.line < 8192) (ha : r.agent = 0 ∨ r.agent = 2 ∨ r.agent = 6) :
    execPalAccess b [r] s = .next (s.serveAll b [r]) := by
  rw [execPalAccess_of_up hu hb]
  simp [hl, ha]

end

/-- Settles O19: a cycle of any requests, a cycle of one request by what the bank does with it, an access in the order of R302, and the order of two
requests. -/
theorem paletteAccessNeedsPowerAndOwnership : Obligations.PaletteAccessNeedsPowerAndOwnership :=
  ⟨fun _ reqs _ hu hb => execPalAccess_of_up hu hb reqs,
    fun _ _ _ hu hb hl ha hon hown hfree hread =>
      (execPalAccess_of_one hu hb hl ha).trans (congrArg _ (State.serveAll_of_served_read hon hown hfree hread)),
    fun _ _ _ hu hb hl ha hnot => (execPalAccess_of_one hu hb hl ha).trans (congrArg _ (State.serveAll_of_not_read hnot)),
    fun _ _ _ hu hb hl ha hon hown hheld =>
      (execPalAccess_of_one hu hb hl ha).trans (congrArg _ (State.serveAll_of_held hon hown hheld)),
    fun _ _ _ hupset =>
      ⟨State.access_of_dark, State.access_of_not_owner, State.access_of_held,
        fun hon hown hfree => State.access_of_free hon hown hfree hupset⟩,
    fun _ _ => servedOrder_pair⟩

end Sys2Proof.Machine
end

section
/-! SUPPORT. The background tester's chunks (R323, R324, R326) and the raw accesses (R321). -/

namespace Sys2Proof.Machine

section
variable {s : State}

/-- A tester that is not set to run does nothing. -/
theorem execTesterChunk_of_idle (hr : s.pal.tester.run = false) (recent : List Nat) (fail : Option MarchFail) :
    execTesterChunk recent fail s = .next s := by
  simp [execTesterChunk, hr]

section
variable (hs : s.serving = true) (hr : s.pal.tester.run = true)
include hs hr

/-- A tester that runs ends its chunk, and borrows the next bank that it may where it has none (R324, R326). -/
theorem execTesterChunk_of_running (recent : List Nat) (fail : Option MarchFail) :
    execTesterChunk recent fail s = .next (
      match s.pal.tester.hold with
      | some (b, first, saved) =>
        let s := s.chunkDone b first saved
        match fail with
        | none => s
        | some f => (s.onPal (fun p => { p with tester := { p.tester with
            fail := true, bank := BitVec.ofNat 8 b, line := BitVec.ofNat 13 f.line } })).fenceBank b
      | none =>
        let t := s.pal.tester.turn
        match ((List.range 256).map (fun i => (t + i) % 256)).find? (s.mayBorrow recent) with
        | none => s
        | some b =>
          let first := 64 * (s.bank b).chunk
          s.onPal (fun p => { p with tester := { p.tester with
            turn := b, hold := some (b, first, (List.range 64).map (fun i => (s.bank b).line (first + i))) } })) :=
  congrArg _ (onlyIf_of (and_of hs hr))

/-- Without a chunk in progress the tester saves the next 64 lines of the bank that it borrows (R323, R324). -/
theorem execTesterChunk_of_borrows {b : Nat} {recent : List Nat} (hh : s.pal.tester.hold = none)
    (hb : ((List.range 256).map (fun i => (s.pal.tester.turn + i) % 256)).find? (s.mayBorrow recent) = some b) (fail : Option MarchFail) :
    execTesterChunk recent fail s = .next (s.onPal (fun p => { p with tester := { p.tester with
      turn := b, hold := some (b, 64 * (s.bank b).chunk, (List.range 64).map (fun i => (s.bank b).line (64 * (s.bank b).chunk + i))) } })) := by
  simp only [execTesterChunk_of_running hs hr, hh, hb]

section
variable {b first : Nat} {saved : List PLine} (hh : s.pal.tester.hold = some (b, first, saved))
include hh

/-- A chunk that ends well is put back (R324). -/
theorem execTesterChunk_of_good (recent : List Nat) : execTesterChunk recent none s = .next (s.chunkDone b first saved) := by
  simp only [execTesterChunk_of_running hs hr, hh]

/-- A chunk with a failing cell is put back, its line is recorded, and its bank is fenced (R326). -/
theorem execTesterChunk_of_fails (recent : List Nat) (f : MarchFail) :
    execTesterChunk recent (some f) s = .next (((s.chunkDone b first saved).onPal (fun p => { p with tester := { p.tester with
      fail := true, bank := BitVec.ofNat 8 b, line := BitVec.ofNat 13 f.line } })).fenceBank b) := by
  simp only [execTesterChunk_of_running hs hr, hh]

end
end
end

namespace State

/-- The state once a raw command has begun: its DONE is 0 (R321). -/
def beginRaw (s : State) : State := s.onPal (fun p => { p with test := { p.test with done := false } })

section
variable {s : State}

/-- A tester that holds no bank yields none. -/
theorem testerYield_of_no_hold (hh : s.pal.tester.hold = none) (b : Nat) : s.testerYield b = s := by
  simp only [testerYield, hh]

/-- A raw command finds nothing to yield where the tester held no bank before it. -/
theorem testerYield_beginRaw (hh : s.pal.tester.hold = none) (b : Nat) : s.beginRaw.testerYield b = s.beginRaw :=
  testerYield_of_no_hold (s := s.beginRaw) hh b

/-- A raw write that is not allowed leaves its DONE at 0 (R321). -/
theorem rawWrite_of_refused (hok : s.beginRaw.rawOk = false) : s.rawWrite = s.beginRaw :=
  if_neg (Bool.eq_false_iff.1 hok)

/-- A raw read that is not allowed leaves its DONE at 0 (R321). -/
theorem rawRead_of_refused (hok : s.beginRaw.rawOk = false) : s.rawRead = s.beginRaw :=
  if_neg (Bool.eq_false_iff.1 hok)

section
variable (hok : s.beginRaw.rawOk = true)
include hok

/-- A raw read that is allowed has the tester yield the bank, and then changes the test registers alone (R321, R325). -/
theorem rawRead_changes_only_test :
    ∃ f : Palette → PalTest,
      s.rawRead = (s.beginRaw.testerYield s.pal.test.bank.toNat).onPal (fun p => { p with test := f p }) ∧ ∀ p, (f p).done = true :=
  ⟨_, if_pos hok, fun _ => rfl⟩

variable (hh : s.pal.tester.hold = none)
include hh

/-- A raw write that is allowed stores the word and its check bits as given, and is done (R321). -/
theorem rawWrite_of_allowed :
    s.rawWrite = (s.beginRaw.onBank s.pal.test.bank.toNat (fun k => k.store s.pal.test.place.1
      ((k.line s.pal.test.place.1).setWord s.pal.test.place.2 (s.pal.test.lo.toNat + 2 ^ 32 * s.pal.test.hi.toNat)
        s.pal.test.check.toNat))).onPal (fun p => { p with test := { p.test with done := true } }) := by
  rw [← testerYield_beginRaw hh s.pal.test.bank.toNat]
  exact if_pos hok

/-- A raw read that is allowed changes the test registers alone, and is done (R321). -/
theorem rawRead_of_allowed : s.rawRead = { s with pal := { s.pal with test := s.rawRead.pal.test } } ∧ s.rawRead.pal.test.done = true := by
  obtain ⟨f, hread, hdone⟩ := rawRead_changes_only_test hok
  rw [testerYield_beginRaw hh] at hread
  rw [hread]
  exact ⟨rfl, hdone _⟩

end
end
end State

/-- A raw write runs while the part is up. -/
theorem execRawWrite_of_up {s : State} (hu : s.up = true) : execRawWrite s = .next s.rawWrite := congrArg _ (onlyIf_of hu)

/-- A raw read runs while the part is up. -/
theorem execRawRead_of_up {s : State} (hu : s.up = true) : execRawRead s = .next s.rawRead := congrArg _ (onlyIf_of hu)

/-- Settles O21: the tester without a chunk, at the end of a good one and of one with a failing cell, and set not to run; a raw access that is refused
and one that is allowed. -/
theorem testerBorrowsAndRawAccessRuns : Obligations.TesterBorrowsAndRawAccessRuns :=
  ⟨fun recent fail _ hs hr => execTesterChunk_of_running hs hr recent fail,
    fun _ => execRawWrite_of_up,
    fun _ => execRawRead_of_up,
    ⟨fun _ fail _ _ hs hr hh hb => execTesterChunk_of_borrows hs hr hh hb fail,
      fun recent _ _ _ _ hs hr hh => ⟨execTesterChunk_of_good hs hr hh recent, execTesterChunk_of_fails hs hr hh recent⟩,
      fun _ hr recent fail => execTesterChunk_of_idle hr recent fail,
      fun _ hu hok =>
        ⟨(execRawWrite_of_up hu).trans (congrArg _ (State.rawWrite_of_refused hok)),
          (execRawRead_of_up hu).trans (congrArg _ (State.rawRead_of_refused hok))⟩⟩,
    fun _ hu hok hh => (execRawWrite_of_up hu).trans (congrArg _ (State.rawWrite_of_allowed hok hh)),
    fun _ hu hok hh => ⟨_, execRawRead_of_up hu, State.rawRead_of_allowed hok hh⟩⟩

end Sys2Proof.Machine
end

section
/-! SUPPORT. The Window's settings and its busy time (R335, R336). -/

namespace Sys2Proof.Machine

section
variable {s : State}

/-- WIN_CFG takes effect, and the mode that it replaces is kept (R336). -/
theorem execWinCommit_of_reaches (h : s.reaches = true) :
    execWinCommit s = .next (s.onWin (fun w => { w with compat := w.shadow, was := w.compat })) :=
  congrArg _ (onlyIf_of h)

/-- A commit that does not reach the registers changes nothing. -/
theorem execWinCommit_of_unreached (h : s.reaches = false) : execWinCommit s = .next s := by
  simp only [execWinCommit, h, onlyIf_false]

/-- WIN_BUSY_N is released on a part that is not dead (R335). -/
theorem execWinBusyExpiry_of_alive (h : s.dead = false) : execWinBusyExpiry s = .next (s.onWin (fun w => { w with busy := false })) := by
  simp only [execWinBusyExpiry, h, Bool.not_false, onlyIf_true]

end

/-- Settles O22: a commit that reaches the registers and one that does not, and the release of WIN_BUSY_N. -/
theorem windowSettingsAndBusy : Obligations.WindowSettingsAndBusy :=
  ⟨fun _ => execWinCommit_of_reaches, fun _ => execWinBusyExpiry_of_alive, fun _ => execWinCommit_of_reaches,
    fun _ => execWinCommit_of_unreached, fun _ => execWinBusyExpiry_of_alive⟩

end Sys2Proof.Machine
end

section
/-! SUPPORT. What the Swatch Map finds for an access, and how the access is answered (R342, R347, R357, R360 to R366, R369). -/

namespace Sys2Proof.Machine

namespace State

/-- A write of a swatch that exists in a read-only object is dropped (R347). -/
def dropsWrite (o i : Nat) (op : SwOp) (s : State) : Bool := op != .read && ((s.obj o).map (fun b => b.ro && decide (i < b.size))).getD false

/-- The state once a unit's lookup has found the entry: the lookup counts, and the entry has its use marks and its holder (R357, R358, R361). -/
def marked (unit k : Nat) (e : Entry) (hit : Bool) (s : State) : State :=
  (s.countLook (hit && e.holders.contains unit)).onEntry k (fun x => { x with
    ppin := true, use := true, holders := if x.holders.contains unit then x.holders else unit :: x.holders })

section
variable {unit r o i k : Nat} {read hit : Bool} {b : Obj} {e : Entry} {op : SwOp} {s : State}

/-- A lookup of an object that is not defined is unmapped (R342). -/
theorem lookup_of_undefined (hobj : s.obj o = none) : s.lookup unit r o i read hit = (.unmapped, s) := by
  simp only [lookup, hobj]

section
variable (hobj : s.obj o = some b)
include hobj

/-- A lookup of an index beyond the object is unmapped (R342). -/
theorem lookup_of_beyond (hi : b.size ≤ i) : s.lookup unit r o i read hit = (.unmapped, s) := by
  simp only [lookup, hobj, if_pos hi]

theorem dropsWrite_of_readOnly (hi : i < b.size) (hro : b.ro = true) (hop : op ≠ .read) : s.dropsWrite o i op = true := by
  simp [dropsWrite, hobj, hi, hro, hop]

theorem dropsWrite_of_allowed (h : b.ro = false ∨ op = .read) : s.dropsWrite o i op = false := by
  rcases h with hro | rfl
  · simp [dropsWrite, hobj, hro]
  · rfl

section
variable (hi : i < b.size) (hcopy : s.sw.copy o i = some (k, e))
include hi hcopy

/-- A RESIDENT copy is found in its slot (R347). -/
theorem lookup_of_resident (hst : e.st = .resident) : s.lookup unit r o i read hit = (.slot k, s.marked unit k e hit) := by
  simp only [lookup, hobj, if_neg hi.not_ge, hcopy, hst, marked]

/-- A copy that leaves wins the race, and is found in its slot (R360, R364). -/
theorem lookup_of_evicting (hst : e.st = .evicting) :
    s.lookup unit r o i read hit = (.slot k, (s.marked unit k e hit).raceWon k) := by
  simp only [lookup, hobj, if_neg hi.not_ge, hcopy, hst, marked]

/-- A write waits in the entry of a copy that comes (R361). -/
theorem lookup_write_of_promoting (hst : e.st = .promoting) :
    s.lookup unit r o i false hit = (.wait k, s.marked unit k e hit) := by
  simp only [lookup, hobj, if_neg hi.not_ge, hcopy, hst, marked, Bool.false_and, Bool.false_eq_true, if_false]

/-- A REALTIME reader of a POISONED copy hands over with cause POISON (R369). -/
theorem lookup_of_poisoned_realtime (hst : e.st = .poisoned) (hreal : (s.marked unit k e hit).realReader r = true) :
    s.lookup unit r o i read hit = (.gone, (s.marked unit k e hit).handover r 5) := by
  simp only [lookup, hobj, if_neg hi.not_ge, hcopy, hst]
  exact if_pos hreal

/-- Any other reader of a POISONED copy waits in its entry (R369). -/
theorem lookup_of_poisoned_waits (hst : e.st = .poisoned) (hreal : (s.marked unit k e hit).realReader r = false) :
    s.lookup unit r o i read hit = (.wait k, s.marked unit k e hit) := by
  simp only [lookup, hobj, if_neg hi.not_ge, hcopy, hst]
  exact if_neg (Bool.eq_false_iff.1 hreal)

end
end
end

section
variable {unit ctx o off k : Nat} {op : SwOp} {hit : Bool} {s t : State}

/-- A write that is dropped has no effect but the count (R347). -/
theorem swatchAccess_of_dropped (h : s.dropsWrite o (off / 16384) op = true) : s.swatchAccess unit ctx o off op hit = s.unmapped :=
  if_pos h

/-- A read of a swatch that does not exist counts as unmapped and is answered with status 4 (R342). -/
theorem swatchAccess_of_unmapped_read (hl : s.lookup unit (s.readerOf unit ctx) o (off / 16384) true hit = (.unmapped, t)) :
    s.swatchAccess unit ctx o off .read hit = t.unmapped.respond 0 4 := by
  simp [swatchAccess, hl]

section
variable (hkept : s.dropsWrite o (off / 16384) op = false)
include hkept

/-- An access to a swatch found in a slot is served from it (R347). -/
theorem swatchAccess_of_slot (hl : s.lookup unit (s.readerOf unit ctx) o (off / 16384) (op == .read) hit = (.slot k, t)) :
    s.swatchAccess unit ctx o off op hit = t.serveEntry k (s.readerOf unit ctx) off op := by
  unfold dropsWrite at hkept
  simp only [swatchAccess, hkept, hl, Bool.false_eq_true, if_false]

/-- An access whose context hands over has no answer. -/
theorem swatchAccess_of_gone (hl : s.lookup unit (s.readerOf unit ctx) o (off / 16384) (op == .read) hit = (.gone, t)) :
    s.swatchAccess unit ctx o off op hit = t := by
  unfold dropsWrite at hkept
  simp only [swatchAccess, hkept, hl, Bool.false_eq_true, if_false]

end

/-- A read of a swatch that is not to be had yet waits in its entry (R361). -/
theorem swatchAccess_of_waiting_read (hl : s.lookup unit (s.readerOf unit ctx) o (off / 16384) true hit = (.wait k, t)) :
    s.swatchAccess unit ctx o off .read hit = t.readLater k (s.readerOf unit ctx, off % 16384 / 64) := by
  simp [swatchAccess, hl]

/-- A line written to a swatch that is not to be had yet waits in its entry (R361). -/
theorem swatchAccess_of_waiting_write {n : Nat} {l : Line} (hkept : s.dropsWrite o (off / 16384) (.write n l) = false)
    (hl : s.lookup unit (s.readerOf unit ctx) o (off / 16384) false hit = (.wait k, t)) :
    s.swatchAccess unit ctx o off (.write n l) hit = t.writeLater k n l := by
  have hwrite : (SwOp.write n l == .read) = false := rfl
  unfold dropsWrite at hkept
  simp only [swatchAccess, hkept, hwrite, hl, Bool.false_eq_true, if_false]

end
end State

/-- A requester of the Swatch Map is answered while the part serves, and the map is ready and has no fence (R357). -/
theorem execSwatchAccess_of_serving {unit : Nat} {s : State} (hs : s.serving = true) (hr : s.sw.swReady = true) (hf : s.sw.swFenced = false)
    (hu : unit < 0x60) (ctx o off : Nat) (op : SwOp) (hit : Bool) :
    execSwatchAccess unit ctx o off op hit s = .next (s.swatchAccess unit ctx o off op hit) :=
  congrArg _ (onlyIf_of (and_of (and_of (and_of hs hr) (by rw [hf]; rfl)) (decide_eq_true hu)))

/-- Settles O24: any access, one to a swatch that does not exist, a write that is dropped, and an access to a copy by the copy's state. -/
theorem swatchAccessByState : Obligations.SwatchAccessByState := by
  unfold Obligations.SwatchAccessByState
  refine ⟨fun _ ctx o off op hit _ hs hr hf hu => execSwatchAccess_of_serving hs hr hf hu ctx o off op hit, ?_⟩
  intro r c o off op hit s hs hr hf hu i d
  have answers {t : State} (h : s.swatchAccess r c o off op hit = t) : exec (.swatchAccess r c o off op hit) s = .next t :=
    (execSwatchAccess_of_serving hs hr hf hu c o off op hit).trans (congrArg _ h)
  refine ⟨?undefined, ?beyond, ?dropped, ?byState⟩
  case undefined =>
    rintro hobj rfl
    exact answers (State.swatchAccess_of_unmapped_read (State.lookup_of_undefined hobj))
  case beyond =>
    rintro b hobj hi rfl
    exact answers (State.swatchAccess_of_unmapped_read (State.lookup_of_beyond hobj hi))
  case dropped =>
    intro b hobj hi hro hop
    exact answers (State.swatchAccess_of_dropped (State.dropsWrite_of_readOnly hobj hi hro hop))
  case byState =>
    intro b k e hobj hi hallowed hcopy s1
    have hkept : s.dropsWrite o i op = false := State.dropsWrite_of_allowed hobj hallowed
    refine ⟨?resident, ?evicting, ?promoting, ?handsOver, ?waits⟩
    case resident =>
      intro hst
      exact answers (State.swatchAccess_of_slot hkept (State.lookup_of_resident hobj hi hcopy hst))
    case evicting =>
      intro hst
      exact answers (State.swatchAccess_of_slot hkept (State.lookup_of_evicting hobj hi hcopy hst))
    case promoting =>
      rintro n l hst rfl
      exact answers (State.swatchAccess_of_waiting_write hkept (State.lookup_write_of_promoting hobj hi hcopy hst))
    case handsOver =>
      intro hst hreal
      exact answers (State.swatchAccess_of_gone hkept (State.lookup_of_poisoned_realtime hobj hi hcopy hst hreal))
    case waits =>
      rintro hst hreal rfl
      exact answers (State.swatchAccess_of_waiting_read (State.lookup_of_poisoned_waits hobj hi hcopy hst hreal))

end Sys2Proof.Machine
end

section
/-! SUPPORT. What every row keeps: memories in canonical form and a consistent test port (R327, R392, R679, R711). -/

namespace Sys2Proof.Machine

section
variable {s : State} {q : List Instr × SMap WWord × Flash × Debug} (h : Keeps q (Safety.still s))
include h

/-- An outcome that leaves alone what few rows touch keeps it. -/
theorem ends_keeps_of_still {o : Host.Outcome State Fault Refusal} (ho : Safety.ends o (fun t => Safety.still t = Safety.still s)) :
    Safety.ends o (fun t => Keeps q (Safety.still t)) := by
  intro t e
  rw [ho t e]
  exact h

/-- Every row keeps the queue, the canonical form of the memories and the test port's consistency. The cases named are the rows that write
the Window, the Plan chest's flash or the debug registers; every other row leaves these as they are. -/
theorem exec_keeps (i : Instr) : Safety.ends (exec i s) (fun t => Keeps q (Safety.still t)) := by
  cases i with
  | registeredEdge draw same => exact execRegisteredEdge_keeps draw same s h
  | writebackDone obj idx => exact execWritebackDone_keeps obj idx s h
  | chestRead addr sys find => exact execChestRead_keeps addr sys find s h
  | chestWriteDone quad blockSet page failed => exact execChestWriteDone_keeps quad blockSet page failed s h
  | relocation blockSet finds => exact execRelocation_keeps blockSet finds s h
  | refreshScan find => exact execRefreshScan_keeps find s h
  | xipFetch addr lat busy => exact execXipFetch_keeps addr lat busy s h
  | read find => exact execRead_keeps find s h
  | readRaw => exact execReadRaw_keeps s h
  | program verified => exact execProgram_keeps verified s h
  | erase verified => exact execErase_keeps verified s h
  | blankCheck programmedBits => exact execBlankCheck_keeps programmedBits s h
  | chsCommit => exact execChsCommit_keeps s h
  | cwr rx off data resp portB => exact execCwr_keeps rx off data resp portB s h
  | crd rx off len portB => exact execCrd_keeps rx off len portB s h
  | hlkUrgDb mask => exact execHlkUrgDb_keeps mask s h
  | objDefineUndef p => exact execObjDefineUndef_keeps p s h
  | programComplete group good pulses time refs => exact execProgramComplete_keeps group good pulses time refs s h
  | abort p urgent => exact execAbort_keeps p urgent s h
  | abortCompletion ctx => exact execAbortCompletion_keeps ctx s h
  | powerActive p => exact execPowerActive_keeps p s h
  | powerHold p => exact execPowerHold_keeps p s h
  | powerDoze p => exact execPowerDoze_keeps p s h
  | powerRest p => exact execPowerRest_keeps p s h
  | powerOff p => exact execPowerOff_keeps p s h
  | fwStage p => exact execFwStage_keeps p s h
  | selfTestDone passed => exact execSelfTestDone_keeps passed s h
  | confirmWindowExpiry => exact execConfirmWindowExpiry_keeps s h
  | service p => exact execService_keeps p s h
  | chestRaw p find verified => exact execChestRaw_keeps p find verified s h
  | rmt w => exact execRmt_keeps w s h
  | tierWrack w obj idx => exact execTierWrack_keeps w obj idx s h
  | coldReset rstAsserted pwrGood => exact execColdReset_keeps rstAsserted pwrGood s h
  | start inp => exact execStart_keeps inp s h
  | recoveryGo verified => exact execRecoveryGo_keeps verified s h
  | watchdogExpiry => exact execWatchdogExpiry_keeps s h
  | registerWrite a off v => exact execRegisterWrite_keeps a off v s h
  | blockEraseDone blockSet failed => exact execBlockEraseDone_keeps blockSet failed s h
  | jtagTckEdge tms tdi => exact execJtagTckEdge_keeps tms tdi s h
  | trstNAssert => exact execTrstNAssert_keeps s h
  | _ => exact ends_keeps_of_still h (by simp [exec])

end

/-- A step keeps what is good: an empty queue idles, and taking the front row off the queue changes neither a memory nor the test port. -/
theorem step_keeps_good {s t : State} (hs : step s = .next t) (hg : GoodStill (Safety.still s)) : GoodStill (Safety.still t) := by
  unfold step at hs
  split at hs
  case h_1 =>
    cases hs
    exact hg
  case h_2 i rest _ =>
    exact (exec_keeps (keeps_refl (Safety.still { s with pending := rest })) i t hs).2 hg

/-- Settles O3: the invariant is what every row keeps, said of what few rows touch. -/
theorem stepKeepsTheInvariant : Obligations.StepKeepsTheInvariant := by
  intro s t hmem hport hs
  rw [← goodStill_iff]
  exact step_keeps_good hs ((goodStill_iff s).2 ⟨hmem, hport⟩)

end Sys2Proof.Machine
end

section
/-! SUPPORT. What the count of page reads leaves alone (R394). -/

namespace Sys2Proof.Machine

/-- What every operation of a sequence leaves alone the sequence leaves alone. -/
theorem each_leaves {α β : Type} (g : State → β) (f : α → State → State) (hf : ∀ a t, g (f a t) = g t) (l : List α) (s : State) :
    g (each l f s) = g s := by
  induction l generalizing s with
  | nil => rfl
  | cons a l ih => exact (ih (f a s)).trans (hf a s)

namespace State

/-- Counting page reads changes the blocks' records and queues relocations, and leaves what neither changes. -/
theorem countPages_leaves {β : Type} (g : State → β) (hflash : ∀ f t, g (onFlash f t) = g t) (hreloc : ∀ k n t, g (queueReloc k n t) = g t)
    (bs : List Nat) (s : State) : g (s.countPages bs) = g s :=
  (each_leaves g _ (fun b t => hreloc (setOf b) 0 t) _ _).trans (hflash _ s)

/-- Counting page reads leaves the limit of the refresh scan. -/
theorem countPages_refreshT (bs : List Nat) (s : State) : (s.countPages bs).chest.refreshT = s.chest.refreshT :=
  countPages_leaves (fun t => t.chest.refreshT) (fun _ _ => rfl) (fun _ _ _ => rfl) bs s

/-- Counting page reads leaves the raw page. -/
theorem countPages_rawPage (bs : List Nat) (s : State) : (s.countPages bs).chest.rawPage = s.chest.rawPage :=
  countPages_leaves (fun t => t.chest.rawPage) (fun _ _ => rfl) (fun _ _ _ => rfl) bs s

end State
end Sys2Proof.Machine
end

section
/-! SUPPORT. The Plan chest's reads, writes, refresh scan and relocations (R385, R391, R394, R395, R400, R403). -/

namespace Sys2Proof.Machine

/-- A guarded effect that leaves the state leaves it whether or not the guard holds. -/
theorem onlyIf_of_id {f : State → State} {s : State} (h : f s = s) (b : Bool) : onlyIf b f s = s := by
  cases b with
  | false => rfl
  | true => exact h

/-- The bytes named lie in the 16 GiB of the user space or the 256 MiB of the system space (R385). -/
theorem chestOk_iff (sys : Bool) (a n : Nat) : chestOk sys a n = true ↔ a + n ≤ if sys then 256 * 2 ^ 20 else 16 * 2 ^ 30 := by
  cases sys <;> simp [chestOk]

/-- Writes are performed on a Plan chest that is neither read-only nor fenced (R399). -/
theorem chestWritable_of {s : State} (hro : s.chest.readonly_ = false) (hf : s.chest.fenced = false) : s.chestWritable = true := by
  simp [State.chestWritable, hro, hf]

namespace State

section
variable {s : State} {k : Nat}

/-- A set that no wear makes due has its erase begun where it is stale and a plane may erase (R403, R721). -/
theorem levelWear_of_no_wear (hw : s.chest.flash.wearDue k = false) (g : List ReadFinding) :
    s.levelWear k g =
      onlyIf (s.chest.flash.stale k && s.chest.planeRoom (k / 2560)) (onChest (fun c => c.beginErase (k / 2560))) s := by
  unfold levelWear
  dsimp only
  rw [hw]
  split
  case h_1 => contradiction
  case h_2 => rfl

/-- A queued relocation waits while no block set is erased. -/
theorem relocate_of_no_fresh (hn : s.chest.flash.freshSet = none) (kind : Nat) (g : List ReadFinding) : s.relocate k kind g = s := by
  unfold relocate
  dsimp only
  rw [hn]

/-- A queued relocation with an erased set to go to reads the units that are not lost, moves those that could be read, and begins the erase
of the old set unless it has gone bad (R395, R396, R403). -/
theorem relocate_of_fresh {kind n : Nat} (hn : s.chest.flash.freshSet = some n) (hroom : kind = 2 ∨ s.chest.planeRoom (k / 2560) = true)
    (g : List ReadFinding) :
    let us := (s.chest.flash.unitsIn k).filter (fun u => !s.chest.flash.lost.contains u)
    let t := s.relocReads us k g
    s.relocate k kind g = (t.onFlash (fun f =>
      let f := f.moveTo (us.filter (fun u => !f.lost.contains u)) n
      { (f.unitsIn k).foldl (fun f u => f.retire u) f with free := f.free - 4 })).onChest (fun c =>
        let c := { c with
          reloc := c.reloc.filter (fun r => r.1 != k)
          relDisturb := if kind = 0 then satInc c.relDisturb else c.relDisturb
          relRefresh := if kind = 1 then satInc c.relRefresh else c.relRefresh }
        if t.chest.reloc.any (fun r => r == (k, 2)) then c else c.beginErase (k / 2560)) := by
  have hguard : (decide (kind = 2) || s.chest.planeRoom (k / 2560)) = true := by simpa using hroom
  unfold relocate
  dsimp only
  rw [hn]
  exact onlyIf_of hguard

end
end State

section
variable {s : State}

section
variable (hu : s.up = true) (hr : s.chest.ready = true)
include hu hr

/-- A write is taken, or refused where FL_WP_N protects its address (R389, R400). -/
theorem execChestWrite_of_writable (hw : s.chestWritable = true) {sys : Bool} {a : Nat} {d : List Byte}
    (hok : chestOk sys a d.length = true) (c : Nat) :
    execChestWrite a sys d c s = .next (if protectedAddr sys a && s.pins.flWp then s.wpRefuse c else s.chestPut sys a d c) :=
  congrArg _ (onlyIf_of (and_of (and_of (and_of hu hr) hw) hok))

section
variable (hf : s.chest.fenced = false)
include hf

/-- The controller of an unfenced Plan chest serves. -/
theorem chestServes : (s.up && s.chest.ready && !s.chest.fenced) = true := by
  simp [hu, hr, hf]

/-- A unit in the write buffer is read from there, any other from its page (R391). -/
theorem execChestRead_of_serving {sys : Bool} {a : Nat} (hok : chestOk sys a 1 = true) (find : ReadFinding) :
    execChestRead a sys find s = .next (
      if s.chest.buffer.any (fun w => w.unit == unitKey sys a) then s else s.readUnit (unitKey sys a) find) :=
  congrArg _ (onlyIf_of (and_of (chestServes hu hr hf) hok))

/-- A set that is queued is relocated, and any other is looked at for its wear (R393, R395). -/
theorem execRelocation_of_serving (k : Nat) (g : List ReadFinding) :
    execRelocation k g s = .next (
      match s.chest.reloc.find? (fun r => r.1 == k) with
      | some r => s.relocate k r.2 g
      | none => s.levelWear k g) :=
  congrArg _ (onlyIf_of (chestServes hu hr hf))

/-- A set that is not queued and that no wear makes due has at most its erase begun. -/
theorem execRelocation_of_no_wear {k : Nat} (hq : s.chest.reloc.find? (fun r => r.1 == k) = none)
    (hw : s.chest.flash.wearDue k = false) (g : List ReadFinding) :
    execRelocation k g s = .next (
      onlyIf (s.chest.flash.stale k && s.chest.planeRoom (k / 2560)) (State.onChest (fun c => c.beginErase (k / 2560))) s) := by
  simp only [execRelocation_of_serving hu hr hf, hq, State.levelWear_of_no_wear hw]

end
end

/-- A queued relocation changes nothing while no block set is erased. -/
theorem execRelocation_of_no_fresh {k kind : Nat} (hq : s.chest.reloc.find? (fun r => r.1 == k) = some (k, kind))
    (hn : s.chest.flash.freshSet = none) (g : List ReadFinding) : execRelocation k g s = .next s := by
  refine congrArg _ (onlyIf_of_id ?_ _)
  rw [hq]
  exact State.relocate_of_no_fresh hn kind g

section
variable (hd : s.dead = false) (hs : s.ready = true) (hp : s.power ≤ 1) (hr : s.chest.ready = true) (hf : s.chest.fenced = false)
include hd hs hp hr hf

/-- The scan reads the next programmed page; one that fails is lost, and one with more bits than REFRESH_T has its set relocated (R394). -/
theorem execRefreshScan_of_running (find : ReadFinding) :
    execRefreshScan find s = .next (
      match nextAfter s.chest.scan s.chest.flash.programmed with
      | none => s
      | some n =>
        let b := n / 64
        let s := ((s.onChest (fun c => { c with scan := n })).countRead find).countPages [b]
        if !(failPages find).isEmpty then s.losePage b (n % 64)
        else if s.chest.refreshT < maxBits find ∧ !slotBlock b ∧ !(s.chest.flash.block b).rawUsed then s.queueReloc (setOf b) 1
        else s) :=
  congrArg _ (onlyIf_of (by simp [hd, hs, hp, hr, hf]))

/-- A good page whose bits stay within REFRESH_T only counts. -/
theorem execRefreshScan_of_good_page {f : ReadFinding} {n : Nat} (hn : nextAfter s.chest.scan s.chest.flash.programmed = some n)
    (hfail : failPages f = []) (hbits : maxBits f ≤ s.chest.refreshT) :
    execRefreshScan f s = .next (((s.onChest (fun c => { c with scan := n })).countRead f).countPages [n / 64]) := by
  have hT : (((s.onChest (fun c => { c with scan := n })).countRead f).countPages [n / 64]).chest.refreshT = s.chest.refreshT :=
    State.countPages_refreshT _ _
  simp only [execRefreshScan_of_running hd hs hp hr hf, hn, hfail, hT, Nat.not_lt.2 hbits, List.isEmpty_nil, Bool.not_true,
    Bool.false_eq_true, false_and, if_false]

end
end

/-- Settles O29: a read and a write under their guards, the bounds of the two spaces, the scan of any page and of a good one, and a relocation
by whether it is queued, by what the wear asks for and by whether a set is erased. -/
theorem chestReadsWritesAndScans : Obligations.ChestReadsWritesAndScans := by
  unfold Obligations.ChestReadsWritesAndScans
  refine ⟨fun _ _ find _ hu hr hf hok => execChestRead_of_serving hu hr hf hok find,
    fun _ _ _ c _ hu hr hw hok => execChestWrite_of_writable hu hr hw hok c,
    fun k g _ hu hr hf => execRelocation_of_serving hu hr hf k g,
    fun find _ hd hs hp hr hf => execRefreshScan_of_running hd hs hp hr hf find,
    fun _ _ _ c _ hu hr hro hf hok => execChestWrite_of_writable hu hr (chestWritable_of hro hf) hok c,
    fun a n => ⟨chestOk_iff false a n, chestOk_iff true a n⟩,
    fun _ _ f _ hu hr hf hok => execChestRead_of_serving hu hr hf hok f,
    fun _ _ _ hd hs hp hr hf => execRefreshScan_of_good_page hd hs hp hr hf, ?notStale, ?stale,
    fun _ _ g _ hq hn => execRelocation_of_no_fresh hq hn g, ?moves⟩
  case notStale =>
    intro k g s hu hr hf hq hw hstale
    exact (execRelocation_of_no_wear hu hr hf hq hw g).trans (by rw [hstale, Bool.false_and, onlyIf_false])
  case stale =>
    intro k g s hu hr hf hq hw hstale hroom
    exact (execRelocation_of_no_wear hu hr hf hq hw g).trans (congrArg _ (onlyIf_of (and_of hstale hroom)))
  case moves =>
    intro k kind n g s hu hr hf hq hn hroom us t
    refine (execRelocation_of_serving hu hr hf k g).trans ?_
    rw [hq]
    exact congrArg _ (State.relocate_of_fresh hn hroom g)

end Sys2Proof.Machine
end

section
/-! SUPPORT. The raw operations of service mode (R400, R401, R409, R410, R414). -/

namespace Sys2Proof.Machine

namespace State

section
variable {s : State} {f : ReadFinding}

/-- A raw read that fails ends with result 3 (R409). -/
theorem chestRaw1_of_fails (hfail : failPages f ≠ []) :
    s.chestRaw1 f = (((s.countRead f).countPages [s.chest.rawBlk]).losePage s.chest.rawBlk s.chest.rawPage.toNat).onChest
      (fun c => c.rawEnd 3 63 false) := by
  unfold chestRaw1
  dsimp only
  rw [countPages_rawPage]
  exact if_pos (by simpa using hfail)

/-- A raw read that succeeds gives the page's data (R409). -/
theorem chestRaw1_of_good (hfail : failPages f = []) :
    s.chestRaw1 f = ((s.countRead f).countPages [s.chest.rawBlk]).onChest (fun c =>
      (c.fillRaw (c.flash.page c.rawBlk c.rawPage.toNat)).rawEnd 0 (maxBits f) false) := by
  unfold chestRaw1
  dsimp only
  exact if_neg (by simp [hfail])

section
variable (hp : s.rawProtected = true) (ctx : Nat) (v : Bool)
include hp

/-- A raw program of a protected block is refused and counted (R400). -/
theorem chestRaw3_of_protected : s.chestRaw3 ctx v = (s.wpRefuse ctx).onChest (fun c => c.rawEnd 2 0 false) := if_pos hp

/-- A raw erase of a protected block is refused and counted (R400). -/
theorem chestRaw4_of_protected : s.chestRaw4 ctx v = (s.wpRefuse ctx).onChest (fun c => c.rawEnd 2 0 false) := if_pos hp

end

section
variable (hp : s.rawProtected = false) (ctx : Nat) (v : Bool)
include hp

/-- A raw program of a written page ends with result 1, and with result 2 where the block is not allowed (R409, R410). -/
theorem chestRaw3_of_written (hw : s.chest.rawWritten = true) :
    s.chestRaw3 ctx v = s.onChest (fun c => c.rawEnd (if s.chest.rawAllowed then 1 else 2) 0 false) := by
  cases hallowed : s.chest.rawAllowed <;> simp [chestRaw3, hp, hw, hallowed]

/-- A raw erase of an unprotected block ends by whether the block is allowed and whether it verifies (R409, R410). -/
theorem chestRaw4_of_unprotected :
    s.chestRaw4 ctx v =
      (let u := s.onFlash (fun f => f.eraseBlock s.chest.rawBlk)
      if !s.chest.rawAllowed then s.onChest (fun c => c.rawEnd 2 0 false)
      else if v then u.onChest (fun c => c.rawEnd 0 0 false)
      else (u.growBad [s.chest.rawBlk]).onChest (fun c => c.rawEnd 4 0 false)) :=
  if_neg (Bool.eq_false_iff.1 hp)

end
end
end State

/-- Outside service mode a raw operation changes nothing (R414). -/
theorem raw_of_no_service {s : State} (h : s.rawChest = false) (f : State → State) :
    (.next (onlyIf s.rawChest f s) : Host.Outcome State Fault Refusal) = .next s := by
  rw [h, onlyIf_false]

/-- In service mode a raw operation has its effect (R409, R414). -/
theorem raw_of_service {s t : State} (h : s.rawChest = true) {f : State → State} (ht : f s = t) :
    (.next (onlyIf s.rawChest f s) : Host.Outcome State Fault Refusal) = .next t := by
  rw [onlyIf_of h, ht]

/-- Settles O31: each operation in service mode and outside it, and in service mode by what was read, by the block's protection, by whether it
is allowed and by what verify says. -/
theorem rawChestOperations : Obligations.RawChestOperations := by
  unfold Obligations.RawChestOperations
  refine ⟨fun _ _ hs => raw_of_service hs rfl, fun _ hs => raw_of_service hs rfl, fun _ _ hs => raw_of_service hs rfl,
    fun _ _ hs => raw_of_service hs rfl, fun _ _ hs => raw_of_service hs rfl, ?outside, ?inside⟩
  case outside =>
    intro f v l s hs
    exact ⟨raw_of_no_service hs _, raw_of_no_service hs _, raw_of_no_service hs _, raw_of_no_service hs _, raw_of_no_service hs _⟩
  case inside =>
    intro f v l s hs
    exact ⟨fun hfail => raw_of_service hs (State.chestRaw1_of_fails hfail),
      fun hfail => raw_of_service hs (State.chestRaw1_of_good hfail),
      raw_of_service hs rfl,
      fun _ _ _ => rfl,
      fun hp => ⟨raw_of_service hs (State.chestRaw4_of_protected hp 0 v), raw_of_service hs (State.chestRaw3_of_protected hp 0 v)⟩,
      fun hp => raw_of_service hs (State.chestRaw4_of_unprotected hp 0 v),
      fun hp hw => raw_of_service hs (State.chestRaw3_of_written hp 0 v hw),
      raw_of_service hs rfl⟩

end Sys2Proof.Machine
end

section
/-! SUPPORT. The Mover's semaphores (R431). -/

namespace Sys2Proof.Machine

namespace State

section
variable {s : State} {i : Nat}

/-- A signal of a semaphore at 65,535 sets SEM_SAT only (R431). -/
theorem semSignal_of_saturated (h : look 0 s.mover.sems i = 65535#16) : s.semSignal i = s.onMover (fun m => { m with semSat := true }) :=
  congrArg (fun m => { s with mover := m }) (if_pos h)

/-- A signal of a semaphore below 65,535 adds one to it (R431). -/
theorem semSignal_of_below (h : look 0 s.mover.sems i ≠ 65535#16) :
    s.semSignal i = s.onMover (fun m => { m with sems := modify 0 i (· + 1) m.sems }) :=
  congrArg (fun m => { s with mover := m }) (if_neg h)

end
end State

section
variable {v : Word} {s : State}

/-- MOV_SEM_SIG with bit 9 set signals the semaphore in bits 8:0 (R431). -/
theorem execMovSemSig_of_sig (hu : s.up = true) (hv : v.getLsbD 9 = true) :
    execMovSemSig v s = .next (s.semSignal (bits v.toNat 8 0)) :=
  congrArg _ (onlyIf_of (and_of hu hv))

/-- MOV_SEM_SIG with bit 9 clear signals nothing. -/
theorem execMovSemSig_of_no_sig (hv : v.getLsbD 9 = false) : execMovSemSig v s = .next s := by
  rw [execMovSemSig, hv, Bool.and_false, onlyIf_false]

end

/-- Settles O27: a write with bit 9 is the signal, which by the semaphore's value saturates or adds one to it alone. -/
theorem semaphoresCountAndSaturate : Obligations.SemaphoresCountAndSaturate := by
  unfold Obligations.SemaphoresCountAndSaturate
  refine ⟨fun _ _ => execMovSemSig_of_sig, fun _ _ => execMovSemSig_of_no_sig, ?saturated, ?below⟩
  case saturated =>
    intro v s hu hv hmax
    exact (execMovSemSig_of_sig hu hv).trans (congrArg _ (State.semSignal_of_saturated hmax))
  case below =>
    intro v s hu hv hmax
    exact ⟨modify 0 (bits v.toNat 8 0) (· + 1) s.mover.sems,
      (execMovSemSig_of_sig hu hv).trans (congrArg _ (State.semSignal_of_below hmax)),
      look_modify_self .., fun _ hj => look_modify_ne 0 hj _ _⟩

end Sys2Proof.Machine
end

section
/-! SUPPORT. The Mover's queues: arms, cancels and the latch of their registers (R436 to R443, R713). -/

namespace Sys2Proof.Machine

/-- An unfenced Mover of a serving stack serves its 64 queues. -/
theorem moverServes {q : Nat} {s : State} (hs : s.serving = true) (hr : s.mover.ready = true) (hf : s.mover.fenced = false) (hq : q < 64) :
    (s.serving && s.mover.ready && !s.mover.fenced && decide (q < 64)) = true := by
  simp [hs, hr, hf, hq]

/-- The units act and the Mover is not fenced. -/
theorem moverActs {s : State} (hu : s.up = true) (hf : s.mover.fenced = false) : (s.up && !s.mover.fenced) = true := by
  simp [hu, hf]

/-- Returning semaphore pairs to their starting values leaves the queues (R437). -/
theorem foldl_restorePair_queues (ps : List Nat) (m : Mover) : (ps.foldl (fun m p => m.restorePair p) m).queues = m.queues := by
  induction ps generalizing m with
  | nil => rfl
  | cons p ps ih => exact ih (m.restorePair p)

namespace State

/-- The refund of a run's credits leaves the Mover. -/
theorem refund_mover (r : Machine.Run) (s : State) : (s.refund r).mover = s.mover := by
  unfold refund
  split <;> rfl

/-- Discarding what a run has staged leaves the Mover. -/
theorem dropStages_mover (r : Machine.Run) (s : State) : (s.dropStages r).mover = s.mover := by
  dsimp only [dropStages, onlyIf]
  split <;> rfl

section
variable {q : Nat} {s : State}

/-- A change of the Mover that leaves its queues leaves each of them. -/
theorem onMover_queue {f : Mover → Mover} (h : (f s.mover).queues = s.mover.queues) : (s.onMover f).queue q = s.queue q := by
  simp only [queue, onMover_mover, h]

/-- A cancelled queue issues nothing more of its run, holds no arm and no surplus stream, and drops what is out (R437, R442). -/
theorem cancelQueue_queue {r : Machine.Run} (hrun : (s.queue q).run = some r) :
    (s.cancelQueue q).queue q = { s.queue q with
      cancelling := true, slot := none, surplus := [], run := some { r with blk := r.blocks.length, off := 0 }
      out := (s.queue q).out.map (fun y => { y with dropped := true }) } := by
  have hkept : ((s.refund r).dropStages r).queue q = s.queue q := by
    simp only [queue, dropStages_mover, refund_mover]
  simp only [cancelQueue, hrun]
  rw [onMover_queue (foldl_restorePair_queues _ _), onQueue_queue, hkept]

/-- A queue with neither a surplus stream nor an arm latched is idle after its run (R443). -/
theorem nextRun_of_none (hsurplus : (s.queue q).surplus = []) (hslot : (s.queue q).slot = none) :
    s.nextRun q = s.onQueue q (fun x => { x with run := none, cancelling := false }) := by
  simp only [nextRun, onQueue_queue, hsurplus, hslot]

/-- An arm whose descriptor is read starts a run on an idle queue, and on another takes the slot (R440 to R442). -/
theorem armQueue_of_fetched {d i : Nat} {l : Line} (hf : (s.queue q).fenced = false) (hd : (s.fetchDesc q d).1 = some (i, l)) :
    let u := (s.fetchDesc q d).2
    s.armQueue q d =
      if (u.queue q).run.isNone && !(u.queue q).cancelling && (u.queue q).surplus.isEmpty then u.startRun q i l
      else u.onQueue q (fun x => { x with
        slot := some (i, l), rearms := satInc x.rearms, lost := if x.slot.isSome then satInc x.lost else x.lost }) := by
  simp only [armQueue, hf, hd, Bool.false_eq_true, if_false]

end
end State

section
variable {q : Nat} {s : State}

/-- An ARM that the Mover serves arms the descriptor in its low 10 bits (R440). -/
theorem execArm_of_serving (hs : s.serving = true) (hr : s.mover.ready = true) (hf : s.mover.fenced = false) (hq : q < 64) (d : Nat) :
    execArm q d s = .next (s.armQueue q (d % 1024)) :=
  congrArg _ (onlyIf_of (moverServes hs hr hf hq))

/-- A CANCEL of a queue with a run cancels it and counts for the run's context (R436, R438). -/
theorem execCancel_of_run {r : Machine.Run} (hu : s.up = true) (hf : s.mover.fenced = false) (hrun : (s.queue q).run = some r) :
    execCancel q s = .next ((s.cancelQueue q).countCancel r.ctx) := by
  simp only [execCancel, hrun, onlyIf_of (moverActs hu hf)]

/-- A CANCEL of a queue without a run changes nothing (R436). -/
theorem execCancel_of_idle (hrun : (s.queue q).run = none) : execCancel q s = .next s := by
  simp only [execCancel, hrun]

/-- A cancel with no transfer out completes, and what the queue still holds follows (R438, R443). -/
theorem execCancelComplete_of_all_back (hu : s.up = true) (hc : (s.queue q).cancelling = true) (hout : (s.queue q).out.isEmpty = true) :
    execCancelComplete q s = .next (s.nextRun q) :=
  congrArg _ (onlyIf_of (and_of (and_of hu hc) hout))

/-- A cancel does not complete while a transfer is out (R438). -/
theorem execCancelComplete_of_out (hout : (s.queue q).out ≠ []) : execCancelComplete q s = .next s := by
  rw [execCancelComplete, List.isEmpty_eq_false_iff.2 hout, Bool.and_false, onlyIf_false]

/-- MOV_COMMIT latches every queue's shadow (R713). -/
theorem execMovCommit_of_reaches (hs : s.reaches = true) : execMovCommit s = .next s.movCommit :=
  congrArg _ (onlyIf_of hs)

end

/-- Settles O26: an arm by what the queue holds, a cancel with a run and without one, its completion by what is out, and the latch. -/
theorem queueRunsArmAndCancel : Obligations.QueueRunsArmAndCancel := by
  unfold Obligations.QueueRunsArmAndCancel
  refine ⟨fun _ d _ hs hr hf hq => execArm_of_serving hs hr hf hq d, fun _ _ _ hrun hu hf => execCancel_of_run hu hf hrun,
    fun _ _ => execCancelComplete_of_all_back, fun _ => execMovCommit_of_reaches,
    fun _ _ _ hring => congrArg _ (onlyIf_of hring), fun _ _ _ hring => congrArg _ (onlyIf_of hring),
    ?arms, ?cancels, fun _ _ => execCancel_of_idle, fun _ _ => execCancelComplete_of_out, ?completes, fun _ => execMovCommit_of_reaches⟩
  case arms =>
    intro q d i l s hs hr hf hq hopen hd u
    exact (execArm_of_serving hs hr hf hq d).trans (congrArg _ (State.armQueue_of_fetched hopen hd))
  case cancels =>
    intro q r s hu hf hrun
    rw [State.cancelQueue_queue hrun]
    exact ⟨execCancel_of_run hu hf hrun, rfl, rfl, rfl⟩
  case completes =>
    intro q s hu hc hout hsurplus hslot
    exact (execCancelComplete_of_all_back hu hc (List.isEmpty_iff.2 hout)).trans (congrArg _ (State.nextRun_of_none hsurplus hslot))

end Sys2Proof.Machine
end

section
/-! SUPPORT. Transfers of the Mover's queues: their issue and how they retire (R417 to R419, R424, R427, R429, R437). -/

namespace Sys2Proof.Machine

/-- An issue turn fills the queue's bucket; with fewer than 512 transfers out the offer of the context in turn is issued (R417, R419). -/
theorem execTransferIssue_of_serving {q n : Nat} {s : State} (hs : s.serving = true) (hr : s.mover.ready = true)
    (hf : s.mover.fenced = false) (hq : q < 64) :
    let u := s.onQueue q (fun x => { x with bucket := min 196608 (x.bucket + 5 * x.eff.rate.toNat * n) })
    execTransferIssue q n s = .next (
      if 512 ≤ sumN (u.mover.queues.map (fun q => q.2.out.length)) then u
      else match u.moverTurn with
        | none => u
        | some c => match ((u.offers q).filter u.offerStands).find? (fun o => o.ctx == c) with
          | some o => u.issueOffer q o
          | none => u) :=
  congrArg _ (onlyIf_of (moverServes hs hr hf hq))

section
variable {q id : Nat} {x : Xfer} {s : State}

/-- A transfer that the queue does not have out does not retire. -/
theorem execTransferRetire_of_not_out (hx : (s.queue q).out.find? (fun x => x.id == id) = none) (fault : Option Nat) :
    execTransferRetire q id fault s = .next s := by
  simp only [execTransferRetire, hx]

section
variable (hu : s.up = true) (hf : s.mover.fenced = false) (hx : (s.queue q).out.find? (fun x => x.id == id) = some x)
include hu hf hx

/-- A transfer that is out ends in its mid-stream fault, or lands its bytes and counts them unless it was dropped (R418, R427, R437, R444). -/
theorem execTransferRetire_of_out (fault : Option Nat) :
    execTransferRetire q id fault s = .next (
      match fault with
      | some k =>
        let s := s.midStream q x k
        if k = 3 then s.fenceChannel q else s
      | none =>
        if !s.retires x then s
        else
          let s := if x.dropped then s else
            (((s.land q x).onQueue q (fun y => { y with bytes := y.bytes + x.len })).onCtx x.ctx (fun c =>
              { c with cnt := { c.cnt with movBytes := c.cnt.movBytes + x.len } }))
          ((s.dropXfer q id).handOvers q).runCheck q) := by
  cases fault with
  | none => simp only [execTransferRetire, hx, onlyIf_of (moverActs hu hf)]
  | some k => simp only [execTransferRetire, hx, onlyIf_of (moverActs hu hf)]

/-- A transfer that may retire does. -/
theorem execTransferRetire_of_retires (hretires : s.retires x = true) :
    execTransferRetire q id none s = .next ((((if x.dropped then s else
      ((s.land q x).onQueue q (fun y => { y with bytes := y.bytes + x.len })).onCtx x.ctx (fun c =>
        { c with cnt := { c.cnt with movBytes := c.cnt.movBytes + x.len } })).dropXfer q id).handOvers q).runCheck q) :=
  (execTransferRetire_of_out hu hf hx none).trans (congrArg _ (if_neg (by simp [hretires])))

end
end

/-- Settles O28: an issue turn by the transfers out and by whose turn it is, and a retire by whether the transfer is out and may retire. -/
theorem transfersIssueAndRetire : Obligations.TransfersIssueAndRetire := by
  unfold Obligations.TransfersIssueAndRetire
  refine ⟨fun _ _ _ => execTransferIssue_of_serving, fun _ _ fault _ _ hx hu hf => execTransferRetire_of_out hu hf hx fault, ?issue,
    fun _ _ fault _ hx => execTransferRetire_of_not_out hx fault, fun _ _ _ _ => execTransferRetire_of_retires⟩
  intro q n s hs hr hf hq u
  have hissue := execTransferIssue_of_serving (n := n) hs hr hf hq
  refine ⟨fun hfull => hissue.trans (congrArg _ (if_pos hfull)), fun hroom => ⟨fun hturn => ?none, fun c o hturn hoffer => ?offer⟩⟩
  case none =>
    refine hissue.trans (congrArg _ ((if_neg hroom.not_ge).trans ?_))
    rw [hturn]
  case offer =>
    refine hissue.trans (congrArg _ ((if_neg hroom.not_ge).trans ?_))
    rw [hturn]
    dsimp only
    rw [hoffer]

end Sys2Proof.Machine
end

section
/-! SUPPORT. A step, the queue of rows and the state after reset (R711, R717). -/

namespace Sys2Proof.Machine

/-- A step runs the row at the front of the queue. -/
theorem step_of_front (c : Instr) (q : List Instr) (s : State) : step { s with pending := c :: q } = exec c { s with pending := q } := rfl

/-- With no row in the queue a step idles. -/
theorem step_of_empty {s : State} (h : s.pending = []) : step s = .next s := by
  rw [step, h]

/-- No row puts a row on the queue or takes one off it. -/
theorem exec_pending {c : Instr} {s t : State} (h : exec c s = .next t) : t.pending = s.pending :=
  (exec_keeps (keeps_refl (Safety.still s)) c t h).1

/-- Settles O1: the two cases of a step. -/
theorem stepRunsTheFront : Obligations.StepRunsTheFront :=
  ⟨step_of_front, fun _ => step_of_empty⟩

/-- Settles O4: what every row keeps holds the queue, and a step runs its row on the queue's rest. -/
theorem onlyTheFrontLeavesTheQueue : Obligations.OnlyTheFrontLeavesTheQueue := by
  refine ⟨fun _ _ _ => exec_pending, ?_⟩
  intro c q s t hfront hstep
  rw [step, hfront] at hstep
  exact exec_pending hstep

/-- A cold reset clears every memory. -/
theorem memInv_reset : Safety.MemInv State.reset :=
  ⟨nil_memWf _, nil_memWf _, nil_memWf _, nil_memWf _, nil_memWf _⟩

/-- A cold reset leaves the test port in Test-Logic-Reset with IDCODE in force (R711). -/
theorem portInv_reset : Safety.PortInv State.reset := ⟨rfl, fun _ => rfl⟩

/-- Settles O2: the memories, the port and the queue of a cold reset. -/
theorem resetIsGood : Obligations.ResetIsGood := ⟨memInv_reset, portInv_reset, rfl⟩

end Sys2Proof.Machine
end

section
/-! SUPPORT. How a command row takes its header (R473, R481, R529, R578, R616). -/

namespace Sys2Proof.Machine

/-- Taking a header leaves a whole-stack fence as it is. -/
theorem takeHeader_wholeFence (h : Held) (c : Cmd) (s : State) : (s.takeHeader h c).easel.wholeFence = s.easel.wholeFence := by
  obtain ⟨rs, rr, l, heq⟩ := takeHeader_frame h c s
  rw [heq]

/-- Taking a header leaves the routes of rings. -/
theorem takeHeader_workerOf (h : Held) (c : Cmd) (r : Nat) (s : State) : (s.takeHeader h c).workerOf r = s.workerOf r := by
  obtain ⟨rs, rr, l, heq⟩ := takeHeader_frame h c s
  rw [heq]
  rfl

/-- The header that Easel takes next, met by its row under no fence and no route, is taken: the command bears the header and the next number, and its
packet's bytes are fetched where they are not left for later (R473). -/
theorem take_of_next {p : Packet} {ok : Line → Bool} {h : Held} {s : State} (hnext : s.nextHeader = some h) (hring : h.ring = p.ring)
    (hhdr : h.hdr = p.hdr) (hok : ok h.hdr = true) (hfence : s.easel.wholeFence = false) (hroute : s.workerOf h.ring = none) :
    ∃ t : Taken, t.cmd.hdr = h.hdr ∧ t.cmd.seq = s.easel.nextSeq ∧
      (s.take p ok = (some t, s.takeHeader h t.cmd) ∨
        s.take p ok = (some t, ((s.takeHeader h t.cmd).passPacket t.cmd).commandBytes (64 * t.slots))) := by
  have hkind : ¬ (h.ring ≠ p.ring ∨ h.hdr ≠ p.hdr ∨ (!ok h.hdr) = true) := by simp [hring, hhdr ▸ hok, hhdr]
  simp only [State.take, hnext, if_neg hkind, takeHeader_wholeFence, hfence, takeHeader_workerOf, hroute, Bool.false_and, Bool.false_eq_true, if_false]
  by_cases hlater : hdrOp h.hdr = 0x30 ∨ hdrOp h.hdr = 0x31
  · rw [if_pos hlater]
    exact ⟨_, rfl, rfl, .inl rfl⟩
  · rw [if_neg hlater]
    cases hfar : h.payload.isSome with
    | true => exact ⟨_, rfl, rfl, .inl rfl⟩
    | false => exact ⟨_, rfl, rfl, .inr rfl⟩

/-- Settles O38: the two ways in which a header is taken change what taking a header and passing its packet change. -/
theorem aHeaderIsTakenForItsRow : Obligations.AHeaderIsTakenForItsRow := by
  refine ⟨?taken, ?other⟩
  case taken =>
    rintro p ok s ⟨⟨h, hnext, hring, hhdr⟩, hok, hfence, hroute⟩
    obtain ⟨t, hthdr, htseq, htake⟩ := take_of_next hnext hring hhdr (hhdr ▸ hok) hfence (hring ▸ hroute)
    obtain ⟨rs, rr, l, hheader⟩ := takeHeader_frame h t.cmd s
    rcases htake with htake | htake
    · refine ⟨t, _, htake, hthdr.trans hhdr, htseq, ?_⟩
      rw [hheader]
      exact ⟨rfl, rfl, rfl, rfl, rfl, rfl⟩
    · obtain ⟨rs', m, hpass⟩ := passPacket_frame t.cmd (64 * t.slots) (s.takeHeader h t.cmd)
      refine ⟨t, _, htake, hthdr.trans hhdr, htseq, ?_⟩
      rw [hpass, hheader]
      exact ⟨rfl, rfl, rfl, rfl, rfl, rfl⟩
  case other =>
    intro p r s hother
    have hidle (ok : Line → Bool) (body : Taken → State → State) :
        (.next (s.command p ok body) : Host.Outcome State Fault Refusal) = .next s := congrArg _ (command_of_other hother ok body)
    exact ⟨hidle _ _, hidle _ _, hidle _ _, hidle _ _, hidle _ _, hidle _ _, hidle _ _, hidle _ _, hidle _ _⟩

end Sys2Proof.Machine
end

section
/-! SUPPORT. Posts that waited for room (R472, R528, R616). -/

namespace Sys2Proof.Machine

/-- A row whose guard is met has its effect. -/
theorem next_of {b : Bool} {f : State → State} {s : State} (h : b = true) :
    (.next (onlyIf b f s) : Host.Outcome State Fault Refusal) = .next (f s) := congrArg _ (onlyIf_of h)

/-- A row whose guard is not met changes nothing. -/
theorem next_of_not {b : Bool} {f : State → State} {s : State} (h : b = false) :
    (.next (onlyIf b f s) : Host.Outcome State Fault Refusal) = .next s := by rw [h, onlyIf_false]

/-- The oldest completion of a ring with room is posted, where no whole-stack fence holds it back (R472, R616). -/
theorem execCompletionPost_of_room {r : Nat} {w : Waiting} {s : State} (hw : s.easel.waiting.find? (fun w => w.ring == r) = some w)
    (hu : s.up = true) (hroom : s.canPost r (1 + (pieces 64 w.payload).length) = true)
    (hleaves : (!s.easel.wholeFence || underFence (hdrBits w.slot 135 128)) = true) :
    execCompletionPost r s = .next ((s.onEasel (fun e => { e with waiting := dropFirst r e.waiting })).postRing r w.slot w.payload
      (.completion (hdrBits w.slot 159 150)) (cqBit (s.ring r))) := by
  simp only [execCompletionPost, hw]
  exact next_of (and_of (and_of hu hroom) hleaves)

/-- A ring without room takes none of the completions that wait for it (R472). -/
theorem execCompletionPost_of_no_room {r : Nat} {s : State} (h : ∀ n, s.canPost r n = false) : execCompletionPost r s = .next s := by
  cases hw : s.easel.waiting.find? (fun w => w.ring == r) with
  | none => simp only [execCompletionPost, hw]
  | some w =>
    simp only [execCompletionPost, hw]
    exact next_of_not (by simp [h])

/-- The oldest record held is posted where its ring has room (R528). -/
theorem execEventRecordPost_of_room {w : Waiting} {rest : List Waiting} {s : State} (hr : s.easel.records = w :: rest)
    (hu : s.up = true) (hroom : s.canPost w.ring 1 = true) :
    execEventRecordPost s = .next ((s.onEasel (fun e => { e with records := rest })).postRing w.ring w.slot []
      (.completion (hdrBits w.slot 159 150)) (4 ||| cqBit (s.ring w.ring))) := by
  simp only [execEventRecordPost, hr]
  exact next_of (and_of hu hroom)

/-- With no record held there is none to post. -/
theorem execEventRecordPost_of_none {s : State} (h : s.easel.records = []) : execEventRecordPost s = .next s := by
  simp only [execEventRecordPost, h]

/-- Settles O16: a completion and a record with room, and each without. -/
theorem waitingPostsGoWhenTheRingHasRoom : Obligations.WaitingPostsGoWhenTheRingHasRoom := by
  refine ⟨fun _ _ _ => execCompletionPost_of_room, fun _ _ _ => execEventRecordPost_of_room, ?_,
    fun _ _ => execCompletionPost_of_no_room, fun _ _ _ => execEventRecordPost_of_room, fun _ => execEventRecordPost_of_none⟩
  intro r w s hw hu hroom hfence
  refine execCompletionPost_of_room hw hu hroom ?_
  cases h : s.easel.wholeFence with
  | false => rfl
  | true => exact hfence h

end Sys2Proof.Machine
end

section
/-! SUPPORT. Modules of the host link and of the fabric ports (R453, R455, R462, R696, R705). -/

namespace Sys2Proof.Machine

namespace State

section
variable {m : ModId} {s : State}

/-- Only an ACTIVE module retrains (R455). -/
theorem retrain_eq_ite : s.retrain m = if (s.modOf m).st = .active then s.retrain m else s := by
  by_cases h : (s.modOf m).st = .active
  · rw [if_pos h]
  · rw [if_neg h, retrain, if_neg h]

/-- A module trains or retrains. -/
def trains (s : State) (m : ModId) : Bool := (s.modOf m).st == .training || (s.modOf m).st == .retrain

theorem trains_of (h : (s.modOf m).st = .training ∨ (s.modOf m).st = .retrain) : s.trains m = true := by
  rcases h with h | h <;> simp [trains, h]

theorem not_trains_of (h : (s.modOf m).st = .active ∨ (s.modOf m).st = .down ∨ (s.modOf m).st = .reset) : s.trains m = false := by
  rcases h with h | h | h <;> simp [trains, h]

/-- The largest rate allowed for a module: MAXRATE of the host link, or the rate of the fabric (R454). -/
def maxRate (s : State) : ModId → BitVec 2
  | .hl _ => s.link.eff.maxrate
  | .fab _ => s.fab.rate

/-- The state once a module is ACTIVE at the lower of its own rate and the largest allowed (R453, R454). -/
def activated (s : State) (m : ModId) (r : BitVec 2) : State :=
  s.onMod m (fun x => { x with st := .active, rate := if s.maxRate m < r then s.maxRate m else r, again := false })

/-- What follows a module that is ACTIVE: the parked turns and the record WAKE on the host link, an enumeration on a port. -/
def afterActive (s : State) : ModId → State
  | .hl _ => ((s.linkTurns).onLink HostLink.flush).wakeRecord
  | .fab p => s.sendEnum p

end
end State

section
variable {m : ModId} {s : State}

/-- A module in training becomes ACTIVE, retrains where one more is due, and what waited for it follows (R453, R455). -/
theorem execModuleActive_of_trains (hm : modExists m = true) (hmay : s.mayTrain m = true) (ht : s.trains m = true) (r : BitVec 2) :
    execModuleActive m r s = .next
      ((if (s.modOf m).again then (s.activated m r).retrain m else s.activated m r).afterActive m) := by
  refine (next_of (and_of (and_of hm hmay) ht)).trans ?_
  cases m <;> rfl

/-- A module that no longer retrains is ACTIVE. -/
theorem execModuleActive_of_last (hm : modExists m = true) (hmay : s.mayTrain m = true) (ht : s.trains m = true)
    (hagain : (s.modOf m).again = false) (r : BitVec 2) :
    execModuleActive m r s = .next ((s.activated m r).afterActive m) := by
  rw [execModuleActive_of_trains hm hmay ht, hagain, if_neg Bool.false_ne_true]

/-- A module that trains for too long is DOWN (R453). -/
theorem execTrainingTimeout_of_trains (hm : modExists m = true) (hd : s.dead = false) (ht : s.trains m = true) :
    execTrainingTimeout m s = .next (s.onMod m (fun x => { x with st := .down, rate := 0 })).linkTurns :=
  next_of (and_of (and_of hm (by rw [hd]; rfl)) ht)

/-- No other module has a limit of time to miss. -/
theorem execTrainingTimeout_of_not_trains (ht : s.trains m = false) : execTrainingTimeout m s = .next s :=
  next_of_not (show (_ && s.trains m) = false by rw [ht, Bool.and_false])

/-- A DOWN module tries again (R453). -/
theorem execTrainingRetry_of_down (hm : modExists m = true) (hmay : s.mayTrain m = true) (hst : (s.modOf m).st = .down) :
    execTrainingRetry m s = .next (s.train m) :=
  next_of (and_of (and_of hm hmay) (by rw [hst]; rfl))

/-- A management request reaches a module of the host link (R455). -/
theorem execLinkManagementRequest_of_alive {n : Nat} (hd : s.dead = false) (hn : n < 2) :
    execLinkManagementRequest n s = .next (s.retrain (.hl n)) :=
  next_of (and_of (by rw [hd]; rfl) (decide_eq_true hn))

/-- A rail that goes puts its module in RESET (R696). -/
theorem execVddqLoss_of_alive (hm : modExists m = true) (hd : s.dead = false) :
    execVddqLoss m s = .next ((s.modReset m).onMod m (fun x => { x with vddq := false })).linkTurns :=
  next_of (and_of hm (by rw [hd]; rfl))

/-- A rail that is back trains a module in RESET that may train (R705). -/
theorem execVddqReturn_of_lost (hm : modExists m = true) (hd : s.dead = false) (hv : (s.modOf m).vddq = false) :
    execVddqReturn m s = .next (
      let s := s.onMod m (fun x => { x with vddq := true })
      if s.mayTrain m && (s.modOf m).st == .reset then s.train m else s) :=
  next_of (and_of (and_of hm (by rw [hd]; rfl)) (by rw [hv]; rfl))

end

/-- Settles O32: each event of a module, by the state in which it finds the module. -/
theorem modulesTrainAndLeave : Obligations.ModulesTrainAndLeave := by
  refine ⟨?active, fun _ _ => execTrainingTimeout_of_trains, fun _ _ => execTrainingRetry_of_down,
    fun _ _ => execLinkManagementRequest_of_alive, fun _ _ => execVddqLoss_of_alive, fun _ _ => execVddqReturn_of_lost, ?last,
    fun _ _ hm hd ht => execTrainingTimeout_of_trains hm hd (State.trains_of ht),
    fun _ _ ht => execTrainingTimeout_of_not_trains (State.not_trains_of ht), fun _ _ => execTrainingRetry_of_down,
    fun _ _ hd hn => (execLinkManagementRequest_of_alive hd hn).trans (congrArg _ State.retrain_eq_ite),
    fun _ _ => execVddqLoss_of_alive, fun _ _ => execVddqReturn_of_lost⟩
  case active =>
    intro m r s hm hmay ht
    refine (execModuleActive_of_trains hm hmay ht r).trans ?_
    cases m <;> rfl
  case last =>
    intro m r s hm hmay hagain ht
    refine (execModuleActive_of_last hm hmay (State.trains_of ht) hagain r).trans ?_
    cases m <;> rfl

end Sys2Proof.Machine
end

section
/-! SUPPORT. The release of the reset pin (R453, R564, R647). -/

namespace Sys2Proof.Machine

namespace State

/-- The straps are taken: the part leaves reset with its role and address (R564, R647). -/
def strapped (s : State) (k : BitVec 4) : State :=
  ((s.onBoot (fun b => { b with held := false })).onPins (fun p => { p with resetN := true, straps := k })).onFab
    (fun f => { f with strap := k, selfAddr := k.toNat % 4 })

/-- Each module takes its rail. -/
def railed (s : State) (v : BitVec 6) : State :=
  (List.range 6).foldl (fun s i => s.onMod (if i < 2 then .hl i else .fab (i - 2)) (fun x => { x with vddq := v.getLsbD i })) s

/-- A module that may train begins to. -/
def trainIfMay (m : ModId) (s : State) : State := if s.mayTrain m then s.train m else s

/-- The state but for the link and the Fabric unit, which hold the modules. -/
def offModules (s : State) : State := { s with link := {}, fab := {} }

theorem eq_of_offModules {s t : State} (h : t.offModules = s.offModules) : t = { s with link := t.link, fab := t.fab } :=
  congrArg (fun u : State => { u with link := t.link, fab := t.fab }) h

theorem onMod_offModules (m : ModId) (f : Module → Module) (s : State) : (s.onMod m f).offModules = s.offModules := by
  unfold onMod
  split <;> rfl

theorem railed_offModules (v : BitVec 6) (s : State) : (s.railed v).offModules = s.offModules :=
  each_leaves offModules (fun i s => s.onMod (if i < 2 then .hl i else .fab (i - 2)) (fun x => { x with vddq := v.getLsbD i }))
    (fun _ _ => onMod_offModules ..) (List.range 6) s

theorem trainIfMay_offModules (m : ModId) (s : State) : (s.trainIfMay m).offModules = s.offModules := by
  unfold trainIfMay
  split
  · exact onMod_offModules ..
  · rfl

/-- The rails of the host link, the straps and the own address. -/
def rails (s : State) : Bool × Bool × BitVec 4 × Nat := (s.link.hl0.vddq, s.link.hl1.vddq, s.fab.strap, s.fab.selfAddr)

/-- Training changes neither a rail nor the straps. -/
theorem trainIfMay_rails (m : ModId) (s : State) : (s.trainIfMay m).rails = s.rails := by
  unfold trainIfMay train onMod
  split
  · split <;> rfl
  · rfl

/-- The state once the part has left reset: straps and rails are taken, and training begins (R453, R564, R647). -/
def released (s : State) (k : BitVec 4) (v : BitVec 6) : State :=
  let s := (s.strapped k).railed v
  each (if s.manager then [.hl 0, .hl 1] else [.fab 0]) trainIfMay s

/-- The release changes the link, the Fabric unit, the pins and the boot unit. -/
theorem released_eq (s : State) (k : BitVec 4) (v : BitVec 6) :
    s.released k v = { s with
      boot := { s.boot with held := false }, link := (s.released k v).link, fab := (s.released k v).fab
      pins := { s.pins with resetN := true, straps := k } } :=
  eq_of_offModules (s := s.strapped k) ((each_leaves offModules _ trainIfMay_offModules _ _).trans (railed_offModules v _))

/-- The rails and straps after the release are those that the bumps give. -/
theorem released_rails (s : State) (k : BitVec 4) (v : BitVec 6) :
    (s.released k v).rails = (v.getLsbD 0, v.getLsbD 1, k, k.toNat % 4) :=
  each_leaves rails _ trainIfMay_rails _ ((s.strapped k).railed v)

end State

/-- A part held in reset with power good is released (R647). -/
theorem execResetNDeassert_of_held {s : State} (hh : s.boot.held = true) (hp : s.pins.pwrGood = true) (k : BitVec 4) (v : BitVec 6) :
    execResetNDeassert k v s = .next (s.released k v) :=
  next_of (and_of hh hp)

/-- A part that is not held, or lacks power, is not released. -/
theorem execResetNDeassert_of_not_held {s : State} (h : s.boot.held = false ∨ s.pins.pwrGood = false) (k : BitVec 4) (v : BitVec 6) :
    execResetNDeassert k v s = .next s :=
  next_of_not (Bool.and_eq_false_iff.2 h)

/-- Settles O33: the release, what else it leaves alone, and the rails and straps after it. -/
theorem resetReleaseLatchesTheStraps : Obligations.ResetReleaseLatchesTheStraps := by
  refine ⟨fun k v _ hh hp => execResetNDeassert_of_held hh hp k v, fun k v _ h => execResetNDeassert_of_not_held h k v, ?_⟩
  intro k v s hh hp
  obtain ⟨h0, h1, hk, haddr⟩ := by simpa only [State.rails, Prod.mk.injEq] using s.released_rails k v
  exact ⟨s.released k v, execResetNDeassert_of_held hh hp k v, s.released_eq k v, hk, haddr, congrArg (·.getLsbD 3) hk, fun _ => ⟨h0, h1⟩⟩

end Sys2Proof.Machine
end

section
/-! SUPPORT. Doorbells, the urgent doorbell and the sideband (R456, R463, R465, R474, R475, R477). -/

namespace Sys2Proof.Machine

namespace State

section
variable {s : State}

/-- The link of an awake manager brings a doorbell of each ring (R474). -/
theorem canRing_of {r : Nat} (hd : s.dead = false) (hm : s.manager = true) (hp : s.power < 2) (hr : r < 32768) : s.canRing r = true := by
  simp [canRing, hd, hm, hp, hr]

/-- A doorbell rings its ring once the part is ready (R475). -/
theorem doorbell_of_ready (h : s.ready = true) (r op i : Nat) : s.doorbell r op i = s.ringBell r op i := if_pos h

/-- A doorbell before the part is ready is ignored and counted (R475). -/
theorem doorbell_of_not_ready (h : s.ready = false) (r op i : Nat) : s.doorbell r op i = s.dbIgnored := if_neg (by simp [h])

/-- The urgent doorbell takes each mailbox bit in turn, and Easel's handler is active while one is pending (R477, R478). -/
theorem urgDb_eq (m : Half) :
    let u := each ((List.range 16).filter (fun n => m.getLsbD n)) urgBit s
    s.urgDb m = if !s.ready then s.dbIgnored
      else if u.link.urgPending = 0 then u else (u.onPal (fun p => { p with urgent := true })).testerCheck := rfl

end
end State

section
variable {r : Nat} {s : State} (h : s.canRing r = true)
include h

/-- PRODUCE and CONSUME that can reach the part bring their index modulo 2 to the 17 (R474). -/
theorem indexBells_of_canRing (i : Nat) :
    execProduce r i s = .next (s.doorbell r 0 (i % 2 ^ 17)) ∧ execConsume r i s = .next (s.doorbell r 1 (i % 2 ^ 17)) :=
  ⟨next_of h, next_of h⟩

end

/-- HLK_URG_DB reaches an awake manager (R477). -/
theorem execHlkUrgDb_of_awake {s : State} (hd : s.dead = false) (hm : s.manager = true) (hp : s.power < 2) (m : Half) :
    execHlkUrgDb m s = .next (s.urgDb m) :=
  next_of (by simp [hd, hm, hp])

/-- A message of another vendor or an undefined code is ignored and counted (R456). -/
theorem execSidebandMessageIgnored_of_undefined {n : Nat} {v : Half} {c : Byte} {s : State} (hd : s.dead = false) (hm : s.manager = true)
    (hn : n < 2) (hu : (v != 0x5C31 || c == 0 || 3 < c) = true) : execSidebandMessageIgnored n v c s = .next s.dbIgnored :=
  next_of (and_of (and_of (and_of (by rw [hd]; rfl) hm) (decide_eq_true hn)) hu)

/-- Settles O34: the four doorbells on a part that is ready and on one that is not, the urgent one, the sideband and the commit. -/
theorem doorbellsAndSideband : Obligations.DoorbellsAndSideband := by
  refine ⟨fun m _ hd hm hp => execHlkUrgDb_of_awake hd hm hp m, fun _ => next_of, fun _ _ _ _ => execSidebandMessageIgnored_of_undefined,
    ?ready, ?early, fun m _ hd hm hp => execHlkUrgDb_of_awake hd hm hp m, ?sideband, fun _ => next_of⟩
  case ready =>
    intro r i op s hd hm hp hr hready hop
    have hcan := State.canRing_of hd hm hp hr
    simp only [← State.doorbell_of_ready hready]
    interval_cases op
    · exact (indexBells_of_canRing hcan i).1
    · exact (indexBells_of_canRing hcan i).2
    · exact (ringBells_of_canRing hcan).1
    · exact (ringBells_of_canRing hcan).2
  case early =>
    intro r i op s hd hm hp hr hready hop
    have hcan := State.canRing_of hd hm hp hr
    have hignored (op i : Nat) : (.next (s.doorbell r op i) : Host.Outcome State Fault Refusal) = .next s.dbIgnored :=
      congrArg _ (State.doorbell_of_not_ready hready r op i)
    interval_cases op
    · exact (indexBells_of_canRing hcan i).1.trans (hignored ..)
    · exact (indexBells_of_canRing hcan i).2.trans (hignored ..)
    · exact (ringBells_of_canRing hcan).1.trans (hignored ..)
    · exact (ringBells_of_canRing hcan).2.trans (hignored ..)
  case sideband =>
    intro n v c s hd hm hn hu
    exact execSidebandMessageIgnored_of_undefined hd hm hn (by simpa [or_assoc] using hu)

end Sys2Proof.Machine
end

section
/-! SUPPORT. Acknowledgement and replay (R457 to R460, R573). -/

namespace Sys2Proof.Machine

namespace State

/-- What a good ACK does: what it covers leaves the replay buffer, and a port has the Weave credit that came back (R459, R573). -/
def acked (s : State) (n : Half) (credit : List Nat) : LinkId → State
  | .host => s.onLink (fun l => ({ l with tx := freeUpto TxFrame.sent TxFrame.seq n l.tx } : HostLink).flush)
  | .fab p => s.onPort p (fun x => Port.drain (x.wait.length + 1) { x with
      tx := freeUpto (fun _ => true) WFrame.seq n x.tx, credit := (List.range 5).map (fun v => x.credit.getD v 0 + credit.getD v 0) })

/-- What a good NAK and a late ACK do: the named frame and every later one are replayed (R459). -/
def replayedFrom (s : State) (n : Half) : LinkId → State
  | .host => s.replayHost n
  | .fab p => s.replayFab p n

end State

section
variable {k : LinkId} {s : State} (h : s.carries k = true)
include h

/-- A good ACK frees what it covers (R459, R573). -/
theorem execAck_of_good (n : Half) (credit : List Nat) : execAck k true n credit s = .next (s.acked n credit k) := by
  refine (next_of h).trans ?_
  cases k <;> rfl

/-- A bad ACK is counted and answered with NAK (R458). -/
theorem execAck_of_bad (n : Half) (credit : List Nat) : execAck k false n credit s = .next (s.discardFrame k) := next_of h

/-- A good NAK replays (R459). -/
theorem execNak_of_good (n : Half) : execNak k true n s = .next (s.replayedFrom n k) := by
  refine (next_of h).trans ?_
  cases k <;> rfl

/-- A bad NAK is counted and answered with NAK (R458). -/
theorem execNak_of_bad (n : Half) : execNak k false n s = .next (s.discardFrame k) := next_of h

/-- A late ACK replays (R459). -/
theorem execReplayTimeout_of_carries (n : Half) : execReplayTimeout k n s = .next (s.replayedFrom n k) := by
  refine (next_of h).trans ?_
  cases k <;> rfl

end

/-- With no ACTIVE module for 2 ms what has gone out is unrecovered (R460). -/
theorem execLinkDownTimeout_of_down {s : State} (hd : s.dead = false) (hm : s.manager = true) (h0 : s.link.hl0.st ≠ .active)
    (h1 : s.link.hl1.st ≠ .active) : execLinkDownTimeout s = .next (s.unrecover (s.link.tx.filter (·.sent))) :=
  next_of (and_of (and_of (and_of (by rw [hd]; rfl) hm) (bne_iff_ne.2 h0)) (bne_iff_ne.2 h1))

/-- Settles O35: the rows on a link that carries frames, good and bad, on the host link and on a port. -/
theorem framesAreAcknowledgedAndReplayed : Obligations.FramesAreAcknowledgedAndReplayed := by
  refine ⟨?ack, ?nak, ?late, fun _ => execLinkDownTimeout_of_down, ?host, ?fab, fun _ => ⟨rfl, rfl⟩, fun _ => execLinkDownTimeout_of_down⟩
  case ack =>
    intro k good n credit s h
    cases good with
    | false => exact execAck_of_bad h n credit
    | true => exact (execAck_of_good h n credit).trans (by cases k <;> rfl)
  case nak =>
    intro k good n s h
    cases good with
    | false => exact execNak_of_bad h n
    | true => exact (execNak_of_good h n).trans (by cases k <;> rfl)
  case late =>
    intro k n s h
    exact (execReplayTimeout_of_carries h n).trans (by cases k <;> rfl)
  case host =>
    intro good n credit s h
    cases good with
    | false => exact ⟨execAck_of_bad h n credit, execNak_of_bad h n, execReplayTimeout_of_carries h n⟩
    | true => exact ⟨execAck_of_good h n credit, execNak_of_good h n, execReplayTimeout_of_carries h n⟩
  case fab =>
    intro p n credit s h
    exact ⟨execAck_of_good h n credit, execAck_of_bad h n credit, execNak_of_good h n, execReplayTimeout_of_carries h n⟩

end Sys2Proof.Machine
end

section
/-! SUPPORT. Frames from the host die: their check, and what a delivered one does (R457, R458, R463, R464). -/

namespace Sys2Proof.Machine

namespace State

section
variable {k : LinkId} {x : Rx} {s : State}

/-- The state once the next frame of a link is delivered and acknowledged (R458). -/
def delivered (s : State) (k : LinkId) : State := s.onLayer k (fun y => { y with rxNext := y.rxNext + 1, acks := y.acks + 1 })

/-- A good frame in sequence is delivered (R458). -/
theorem checkFrame_of_next (hg : x.good = true) (hseq : x.seq = (s.layer k).rxNext) : s.checkFrame k x = (true, s.delivered k) :=
  if_pos (by simp [hg, hseq])

/-- A good frame that has been delivered before is dropped (R458). -/
theorem checkFrame_of_replayed (hg : x.good = true) (hseq : x.seq ≠ (s.layer k).rxNext)
    (hback : ((s.layer k).rxNext - x.seq).toNat ≤ 32768) : s.checkFrame k x = (false, s) :=
  (if_neg (by simp [hseq])).trans (if_pos (and_of (and_of hg (decide_eq_true hback)) (bne_iff_ne.2 hseq)))

/-- A bad frame is discarded and answered with NAK (R458). -/
theorem checkFrame_of_bad (hg : x.good = false) : s.checkFrame k x = (false, s.discardFrame k) :=
  (if_neg (by simp [hg])).trans (if_neg (by simp [hg]))

end
end State

section
variable {rx : Rx} {s u : State}

/-- MRDC on a host link that carries frames (R457). -/
theorem execMrdc_of_carries (h : s.carries .host = true) (id : Nat) (data : List Byte) :
    execMrdc rx id data s = .next (
      let r := s.checkFrame .host rx
      if !r.1 then r.2
      else match r.2.link.reads.find? (fun x => x.id == id) with
        | none => r.2
        | some x => (r.2.onLink (fun l => { l with reads := l.reads.filter (fun y => y.id != id) })).readReply x.by_ data) :=
  next_of h

/-- A delivered MRDC ends the read that it answers (R457). -/
theorem execMrdc_of_delivered {id : Nat} {o : HostRead} (h : s.carries .host = true) (hc : s.checkFrame .host rx = (true, u))
    (ho : u.link.reads.find? (fun y => y.id == id) = some o) (data : List Byte) :
    execMrdc rx id data s = .next
      ((u.onLink (fun l => { l with reads := l.reads.filter (fun y => y.id != id) })).readReply o.by_ data) := by
  simp only [execMrdc_of_carries h, hc, ho, Bool.not_true, Bool.false_eq_true, if_false]

/-- CWR on a host link that reaches the control space (R463, R464). -/
theorem execCwr_of_reach (h : s.hostReach = true) (off : Nat) (data : List Byte) (resp : Bool) (b : List PortB) :
    execCwr rx off data resp b s = .next (
      let c := s.checkFrame .host rx
      if !c.1 then c.2
      else
        let r := c.2.writeSpace off data b
        if resp then r.2.send (.cwrResp r.1.status r.1.busy) .control else r.2) :=
  next_of h

/-- CRD on a host link that reaches the control space (R463, R464). -/
theorem execCrd_of_reach (h : s.hostReach = true) (off len : Nat) (b : List PortB) :
    execCrd rx off len b s = .next (
      let c := s.checkFrame .host rx
      if !c.1 then c.2
      else
        let r := c.2.readSpace off len b
        r.2.send (.crdc r.1.status r.1.busy r.1.data) .control) :=
  next_of h

/-- A delivered CWR writes the control space, and is answered where it asks (R463, R464). -/
theorem execCwr_of_delivered (h : s.hostReach = true) (hc : s.checkFrame .host rx = (true, u)) (off : Nat) (data : List Byte) (resp : Bool)
    (b : List PortB) :
    let r := u.writeSpace off data b
    execCwr rx off data resp b s = .next (if resp then r.2.send (.cwrResp r.1.status r.1.busy) .control else r.2) := by
  rw [execCwr_of_reach h, hc]
  rfl

/-- A delivered CRD reads the control space and is answered (R463, R464). -/
theorem execCrd_of_delivered (h : s.hostReach = true) (hc : s.checkFrame .host rx = (true, u)) (off len : Nat) (b : List PortB) :
    let r := u.readSpace off len b
    execCrd rx off len b s = .next (r.2.send (.crdc r.1.status r.1.busy r.1.data) .control) := by
  rw [execCrd_of_reach h, hc]
  rfl

/-- A frame that is not delivered does no more than its check does (R458). -/
theorem hostFrames_of_not_delivered (h : s.carries .host = true) (hr : s.hostReach = true) (hc : s.checkFrame .host rx = (false, u))
    (id off len : Nat) (data : List Byte) (resp : Bool) (b : List PortB) :
    execMrdc rx id data s = .next u ∧ execCwr rx off data resp b s = .next u ∧ execCrd rx off len b s = .next u := by
  rw [execMrdc_of_carries h, execCwr_of_reach hr, execCrd_of_reach hr, hc]
  exact ⟨rfl, rfl, rfl⟩

end

/-- Settles O36: the three frames by what their check says. -/
theorem hostFramesAreCheckedAndServed : Obligations.HostFramesAreCheckedAndServed := by
  refine ⟨fun _ id data _ h => execMrdc_of_carries h id data, fun _ off data resp b _ h => execCwr_of_reach h off data resp b,
    fun _ off len b _ h => execCrd_of_reach h off len b, ?answers, ?space, ?dropped⟩
  case answers =>
    intro x id data o s h hg hseq ho
    exact execMrdc_of_delivered h (State.checkFrame_of_next hg hseq) ho data
  case space =>
    intro x off len data resp b s h hg hseq
    have hc := State.checkFrame_of_next hg hseq
    exact ⟨execCwr_of_delivered h hc off data resp b, execCrd_of_delivered h hc off len b⟩
  case dropped =>
    intro x id off len data resp b s h hr
    refine ⟨?_, fun hg => hostFrames_of_not_delivered h hr (State.checkFrame_of_bad hg) id off len data resp b⟩
    rintro ⟨hg, hseq, hback⟩
    exact hostFrames_of_not_delivered h hr (State.checkFrame_of_replayed hg hseq hback) id off len data resp b

end Sys2Proof.Machine
end

section
/-! SUPPORT. Commands of contexts and undefined opcodes (R489, R500, R503, R506). -/

namespace Sys2Proof.Machine

/-- A command row that is taken answers its command's effect. -/
theorem next_of_take {p : Packet} {ok : Line → Bool} {t : Taken} {s u v : State} {body : Taken → State → State}
    (h : s.take p ok = (some t, u)) (hbody : body t u = v) :
    (.next (s.command p ok body) : Host.Outcome State Fault Refusal) = .next v :=
  congrArg _ ((command_of_take h body).trans hbody)

namespace State

section
variable {t : Taken} {u : State}

/-- CTX_OPEN of a CLOSED context starts it afresh (R503). -/
theorem ctxOpen_of_closed (h : (u.ctx t.ctx).st = .closed) :
    u.ctxOpen t = ((u.onCtx t.ctx (fun _ =>
      { st := .open_, even := t.f 143 143 == 1, evq := BitVec.ofNat 15 (t.f 142 128) })).clamps t (t.lengthClamp 0)).complete t.cmd 0 0 0 [] :=
  if_pos h

/-- CTX_OPEN of any other context is not performed (R503). -/
theorem ctxOpen_of_not_closed (h : (u.ctx t.ctx).st ≠ .closed) : u.ctxOpen t = (u.clamps t (t.lengthClamp 0)).notPerformed t.cmd :=
  if_neg h

/-- CTX_CLOSE of an OPEN or BOUND context makes it CLOSING and fences it (R506). -/
theorem ctxClose_of_open (h : ((u.clamps t (t.lengthClamp 0)).ctx t.ctx).st = .open_ ∨ ((u.clamps t (t.lengthClamp 0)).ctx t.ctx).st = .bound) :
    u.ctxClose t = ((u.clamps t (t.lengthClamp 0)).onCtx t.ctx (fun x =>
      { x with st := .closing, next := none, closeCmd := some t.cmd, closeFence := true })).fenceCtx t.ctx :=
  if_pos h

/-- CTX_CLOSE of a CLOSED or CLOSING context is not performed (R506). -/
theorem ctxClose_of_closed
    (h : ((u.clamps t (t.lengthClamp 0)).ctx t.ctx).st = .closed ∨ ((u.clamps t (t.lengthClamp 0)).ctx t.ctx).st = .closing) :
    u.ctxClose t = (u.clamps t (t.lengthClamp 0)).notPerformed t.cmd :=
  if_neg (by rcases h with h | h <;> simp [h])

end
end State

/-- Settles O39: an undefined opcode, and an open and a close by the state of their context. -/
theorem unsupportedAndNotPerformed : Obligations.UnsupportedAndNotPerformed :=
  ⟨fun _ _ _ _ h => next_of_take h rfl, fun _ _ _ _ h => next_of_take h rfl, fun _ _ _ _ h => next_of_take h rfl,
    fun _ _ _ _ h => next_of_take h rfl,
    fun _ _ _ _ h => ⟨fun hst => next_of_take h (State.ctxOpen_of_closed hst), fun hst => next_of_take h (State.ctxOpen_of_not_closed hst)⟩,
    fun _ _ _ _ h => ⟨fun hst => next_of_take h (State.ctxClose_of_open hst), fun hst => next_of_take h (State.ctxClose_of_closed hst)⟩⟩

end Sys2Proof.Machine
end

section
/-! SUPPORT. OBJ_WRITE and OBJ_READ (R344, R347, R373, R374, R495, R509, R510). -/

namespace Sys2Proof.Machine

/-- LEN of an OBJ_READ in whole lines, within its range (R510). -/
def Taken.readLen (t : Taken) : Nat := clampN 64 4194304 ((t.f 214 192 + 63) / 64 * 64)

namespace State

/-- The state of an OBJ_WRITE whose unit of OFF is given, once its clamp is counted (R509). -/
def writeClamped (t : Taken) (unit : Nat) (u : State) : State := u.clamps t (bad (t.f 191 148 != t.f 191 148 / unit * unit) 148)

/-- The state of an OBJ_READ once its clamps are counted (R510). -/
def readClamped (t : Taken) (u : State) : State :=
  u.clamps t (bad (t.f 191 148 != t.f 191 148 / 64 * 64) 148 ++
    bad (t.f 214 192 != clampN 64 4194304 ((t.f 214 192 + 63) / 64 * 64)) 192 ++ t.lengthClamp 0)

/-- The swatches of an OBJ_WRITE without TAGS. -/
def plainItems (r : List Byte) (t : Taken) (b : Obj) (s : State) : List (Nat × List Byte × List Byte × Bool × Nat) :=
  s.writeItems (t.f 147 128) b.size (t.f 191 148 / 64 * 64) t.payload r

/-- The state once swatches are stored and their command waits for them to be durable (R347, R509). -/
def stored (t : Taken) (items : List (Nat × List Byte × List Byte × Bool × Nat)) (s : State) : State :=
  ((each items (fun x s => s.storeSwatch t.cmd (t.f 147 128) x.1 x.2.2.2.1 x.2.1 x.2.2.1) s).onChest (fun c =>
    { c with waits := c.waits ++ [(t.cmd, sumN (items.map (fun x => x.2.2.2.2)) / 64)] })).durable

/-- A home in T1 or T3 is none of the read-only, borrowed and far homes. -/
theorem near_of_home {h : BitVec 3} (hhome : h = 1 ∨ h = 3) : h.toNat ≠ 2 ∧ h.toNat ≠ 4 ∧ h.toNat ≠ 5 := by
  rcases hhome with rfl | rfl <;> decide

section
variable {t : Taken} {b : Obj} {u : State} (r : List Byte)

section
variable (htags : t.f 9 9 = 0)
include htags

/-- A write of no object is not performed (R509). -/
theorem objWrite_of_undefined (hobj : (u.writeClamped t 64).obj (t.f 147 128) = none) :
    u.objWrite r t = (u.writeClamped t 64).notPerformed t.cmd := by
  unfold writeClamped at hobj ⊢
  simp [objWrite, htags, hobj]

variable (hobj : (u.writeClamped t 64).obj (t.f 147 128) = some b) (hbars : (u.writeClamped t 64).serviceBars b.home.toNat = false)
include hobj hbars

/-- A write to a read-only Plan chest completes with status 3 (R389). -/
theorem objWrite_of_readOnly (hhome : b.home = 4) (hw : (u.writeClamped t 64).chestWritable = false) :
    u.objWrite r t = (u.writeClamped t 64).complete t.cmd 3 0 0 [] := by
  have h4 : b.home.toNat = 4 := congrArg BitVec.toNat hhome
  unfold writeClamped at hobj hbars hw ⊢
  simp [objWrite, htags, hobj, h4 ▸ hbars, h4, hw]

/-- A write within an object at home in T1 or T3 stores its swatches (R347, R509). -/
theorem objWrite_of_within (hhome : b.home = 1 ∨ b.home = 3)
    (hlen : t.payload.length ≤ sumN (((u.writeClamped t 64).plainItems r t b).map (fun x => x.2.2.2.2))) :
    u.objWrite r t = ((u.writeClamped t 64).readParts (t.f 147 128) (t.f 191 148 / 64 * 64)
      ((u.writeClamped t 64).plainItems r t b) r).stored t ((u.writeClamped t 64).plainItems r t b) := by
  obtain ⟨h2, h4, h5⟩ := near_of_home hhome
  unfold plainItems writeClamped at *
  simp [objWrite, htags, hobj, hbars, h2, h4, h5, Nat.not_lt.2 hlen, stored]

end

/-- A write with TAGS of whole units within an object at home in T1 or T3 stores its swatches and tags (R344, R509). -/
theorem objWrite_of_tags (htags : t.f 9 9 = 1) (hwhole : t.payload.length % 16448 = 0)
    (hobj : (u.writeClamped t 16384).obj (t.f 147 128) = some b) (hbars : (u.writeClamped t 16384).serviceBars b.home.toNat = false)
    (hhome : b.home = 1 ∨ b.home = 3)
    (hlen : t.payload.length ≤ sumN ((tagItems b.size (t.f 191 148 / 16384 * 16384) t.payload).map (fun x => x.2.2.2.2))) :
    u.objWrite r t = (u.writeClamped t 16384).stored t (tagItems b.size (t.f 191 148 / 16384 * 16384) t.payload) := by
  obtain ⟨h2, h4, h5⟩ := near_of_home hhome
  unfold writeClamped at *
  simp [objWrite, htags, hwhole, hobj, hbars, h2, h4, h5, Nat.not_lt.2 hlen, stored]

/-- A read of no object, and of no trained copies, is not performed (R510). -/
theorem objRead_of_undefined (hobj : (u.readClamped t).obj (t.f 147 128) = none) (hlow : (u.readClamped t).trained (t.f 147 128) = none) :
    u.objRead r t = (u.readClamped t).notPerformed t.cmd := by
  unfold readClamped at *
  simp only [objRead, hobj, hlow]

/-- A read of trained copies returns their bytes (R230). -/
theorem objRead_of_trained {bs : List Byte} (hobj : (u.readClamped t).obj (t.f 147 128) = none)
    (hlow : (u.readClamped t).trained (t.f 147 128) = some bs) (hlim : t.readLen ≤ (u.readClamped t).dataLimit t.cmd) :
    u.objRead r t = (u.readClamped t).readTrained t.cmd bs (t.f 191 148 / 64 * 64) t.readLen := by
  unfold readClamped Taken.readLen at *
  simp only [objRead, hobj, hlow, if_neg (Nat.not_lt.2 hlim), Nat.min_eq_left hlim]

/-- A read within an object reads its swatches in order, and completes with the status of the worst (R374, R510). -/
theorem objRead_of_within (hobj : (u.readClamped t).obj (t.f 147 128) = some b)
    (hbars : (u.readClamped t).serviceBars b.home.toNat = false) (hlim : t.readLen ≤ (u.readClamped t).dataLimit t.cmd)
    (hend : t.f 191 148 / 64 * 64 + t.readLen ≤ b.size * 16384) :
    let off := t.f 191 148 / 64 * 64
    let d := readSwatches (t.f 147 128) (off / 16384) r
      ((List.range ((off + t.readLen + 16383) / 16384 - off / 16384)).map (off / 16384 + ·)) (u.readClamped t)
    u.objRead r t = d.2.2.2.complete t.cmd (if d.2.1 then 4 else if d.2.2.1 then 6 else 0) (t.readLen / 64) 0
      (slice (slice d.1 (off % 16384) t.readLen) 0 t.readLen) := by
  unfold readClamped Taken.readLen at *
  simp only [objRead, hobj, hbars, Bool.false_eq_true, if_false, if_neg (Nat.not_lt.2 hlim), if_neg (Nat.not_lt.2 hend),
    Nat.min_eq_left hlim, Nat.min_eq_left hend, Nat.add_sub_cancel_left]

end
end State

/-- Settles O42: a write and a read by what their object is, where it is at home, and how much of it they name. -/
theorem objectDataIsWrittenAndRead : Obligations.ObjectDataIsWrittenAndRead := by
  unfold Obligations.ObjectDataIsWrittenAndRead
  refine ⟨fun _ _ _ _ _ h => next_of_take h rfl, fun _ _ _ _ _ h => next_of_take h rfl, ?write, ?tags, ?read⟩
  case write =>
    intro p r t u s h htags off v
    refine ⟨fun hobj => next_of_take h (State.objWrite_of_undefined r htags hobj), fun b hobj hbars =>
      ⟨fun hhome hw => next_of_take h (State.objWrite_of_readOnly r htags hobj hbars hhome hw),
        fun hhome hlen => next_of_take h (State.objWrite_of_within r htags hobj hbars hhome hlen)⟩⟩
  case tags =>
    intro p r t b u s h htags hwhole off v items bytes hobj hbars hhome hlen
    exact next_of_take h (State.objWrite_of_tags r htags hwhole hobj hbars hhome hlen)
  case read =>
    intro p r t u s h off len v
    exact ⟨fun hobj hlow => next_of_take h (State.objRead_of_undefined r hobj hlow),
      fun bs hobj hlow hlim => next_of_take h (State.objRead_of_trained r hobj hlow hlim),
      fun b hobj hbars hlim hend => next_of_take h (State.objRead_of_within r hobj hbars hlim hend)⟩

end Sys2Proof.Machine
end

section
/-! SUPPORT. MODEL_STAGE and MODEL_SWITCH (R171, R511, R536, R547, R561). -/

namespace Sys2Proof.Machine

namespace State

section
variable {t : Taken} {b : Obj} {r : List Byte} {u : State}

/-- The state of a MODEL_STAGE once its clamps are counted (R511). -/
def stageClamped (t : Taken) (u : State) : State :=
  u.clamps t (bad (t.f 191 148 != t.f 191 148 / 16384 * 16384) 148 ++ t.lengthClamp 0)

/-- A MODEL_STAGE of no object is not performed (R511). -/
theorem modelStage_of_undefined (hobj : (u.stageClamped t).obj (t.f 147 128) = none) :
    u.modelStage r t = (u.stageClamped t).notPerformed t.cmd := by
  unfold stageClamped at *
  simp only [modelStage, hobj]

/-- A MODEL_STAGE in a context that is neither OPEN nor BOUND is not performed (R511). -/
theorem modelStage_of_closed (hobj : (u.stageClamped t).obj (t.f 147 128) = some b)
    (hst : ((u.stageClamped t).ctx t.ctx).st = .closed ∨ ((u.stageClamped t).ctx t.ctx).st = .closing) :
    u.modelStage r t = (u.stageClamped t).notPerformed t.cmd := by
  unfold stageClamped at *
  simp only [modelStage, hobj]
  exact if_neg (by rcases hst with h | h <;> simp [h])

/-- A MODEL_STAGE of an OPEN or BOUND context reads and checks its manifest (R511, R547). -/
theorem modelStage_of_open (hobj : (u.stageClamped t).obj (t.f 147 128) = some b)
    (hst : ((u.stageClamped t).ctx t.ctx).st = .open_ ∨ ((u.stageClamped t).ctx t.ctx).st = .bound) :
    u.modelStage r t = (u.stageClamped t).stageManifest t (t.f 147 128) (t.f 191 148 / 16384 * 16384) b r := by
  unfold stageClamped at *
  simp only [modelStage, hobj]
  exact if_pos hst

/-- A manifest that lies in its object, is not poisoned and passes its checks, and whose objects are defined and pieces found, becomes the
context's other map (R536, R547). -/
theorem stageManifest_of_good {o off : Nat} {v z : State} {ps : List (Nat × Nat)} :
    let h := readSwatches o (off / 16384) r [off / 16384] v
    let hdr := h.1.take 64
    let m := readSwatches o (off / 16384) r ((List.range (ceilDiv (fieldB hdr 12 4) 16384)).map (off / 16384 + ·)) h.2.2.2
    let man := m.1.take (fieldB hdr 12 4)
    let ss := sectionsOf man
    let w := each ss.2 (fun x s => s.clampAt t.ctx 0x20 x) m.2.2.2
    let g := z.buildMap t.ctx man ss.1 ps
    let y := each g.2 (fun x s => s.clampAt t.ctx 0x20 x) z
    off < b.size * 16384 → h.2.1 = false → manifestOk hdr (b.size * 16384 - off) = true → m.2.1 = false →
    manifestCrc man = fieldB hdr 8 4 → (recsOf man ss.1 8).any (fun x => (w.obj (bits x.2 19 0)).isNone) = false →
    w.takePieces (ceilDiv (fieldB hdr 12 4) 65536) = (some ps, z) →
    v.stageManifest t o off b r = (y.onCtx t.ctx (fun x => { x with maps := x.maps.setOther (some g.1) })).complete t.cmd 0
      (if (y.ctx t.ctx).maps.stageB then 1 else 0) 0 [] := by
  intro h hdr m man ss w g y hin hclean hok hpoison hcrc hobjs hpieces
  have hheader : ¬ (b.size * 16384 ≤ off ∨ h.2.1 = true ∨ (!manifestOk hdr (b.size * 16384 - off)) = true) := by
    simp [hclean, hok, Nat.not_le.2 hin]
  have hbody : ¬ (m.2.1 = true ∨ manifestCrc man ≠ fieldB hdr 8 4) := by simp [hpoison, hcrc]
  refine (if_neg hheader).trans ((if_neg hbody).trans ((if_neg (Bool.eq_false_iff.1 hobjs)).trans ?_))
  rw [hpieces]

/-- A switch of a BOUND context with a map in use and a staged one waits for its boundary (R171, R561). -/
theorem modelSwitch_of_staged (hst : ((u.clamps t (t.lengthClamp 0)).ctx t.ctx).st = .bound)
    (hlive : ((u.clamps t (t.lengthClamp 0)).ctx t.ctx).maps.live = true)
    (hstaged : ((u.clamps t (t.lengthClamp 0)).ctx t.ctx).maps.staged.isSome = true) :
    u.modelSwitch t = (u.clamps t (t.lengthClamp 0)).onCtx t.ctx (fun y =>
      { y with maps := { y.maps with switching := y.maps.switching ++ [t.cmd] } }) :=
  if_pos ⟨hst, hlive, hstaged⟩

/-- Any other switch is not performed (R511). -/
theorem modelSwitch_of_not_staged (h : ((u.clamps t (t.lengthClamp 0)).ctx t.ctx).st ≠ .bound ∨
      ((u.clamps t (t.lengthClamp 0)).ctx t.ctx).maps.live = false ∨ ((u.clamps t (t.lengthClamp 0)).ctx t.ctx).maps.staged = none) :
    u.modelSwitch t = (u.clamps t (t.lengthClamp 0)).notPerformed t.cmd :=
  if_neg (by rcases h with h | h | h <;> simp [h])

end
end State

/-- Settles O43: a stage by its object, its context and its manifest, and a switch by what its context holds. -/
theorem modelsStageAndSwitch : Obligations.ModelsStageAndSwitch := by
  unfold Obligations.ModelsStageAndSwitch
  refine ⟨fun _ _ _ _ _ h => next_of_take h rfl, fun _ _ _ _ h => next_of_take h rfl, ?stage, ?switch⟩
  case stage =>
    intro p r t u s h off v
    refine ⟨fun hobj => next_of_take h (State.modelStage_of_undefined hobj),
      fun b hobj hst => next_of_take h (State.modelStage_of_closed hobj hst), ?_⟩
    intro b hobj hst hd hdr hin hclean hok m man hpoison hcrc ss w hobjs ps z hpieces g y
    exact next_of_take h ((State.modelStage_of_open hobj hst).trans
      (State.stageManifest_of_good hin hclean hok hpoison hcrc hobjs hpieces))
  case switch =>
    intro p t u s h v
    exact ⟨fun hst hlive hstaged => next_of_take h (State.modelSwitch_of_staged hst hlive hstaged),
      fun hnot => next_of_take h (State.modelSwitch_of_not_staged hnot)⟩

end Sys2Proof.Machine
end

section
/-! SUPPORT. RUN_SLICE, RUN_FRAME and RETOUCH (R227, R513 to R516, R518). -/

namespace Sys2Proof.Machine

/-- SLICE of a RUN_SLICE, limited to the last slice of a tick (R513). -/
def Taken.runSlot (t : Taken) (u : State) : Nat := min (t.f 133 128) (u.tick.slices - 1)

/-- The run of gradient steps that a RETOUCH of a context asks for (R227). -/
def Taken.retouchRun (t : Taken) (x : Ctx) : RetouchRun :=
  { cmd := t.cmd
    layers := ((layerList (slice t.payload 0 64)).filter (fun p => (x.runMap.ll p.2).kind.toNat == lowrankKind)).map (·.2)
    steps := max 1 (t.f 151 144), eset := BitVec.ofNat 16 (if t.f 143 128 = 0 then 1 else t.f 143 128)
    lr := BitVec.ofNat 32 (clampLr (t.f 223 192)), mom := BitVec.ofNat 16 (clampMom (t.f 239 224))
    nsamp := t.f 255 240 + 1, samp := t.f 171 152, tgt := t.f 191 172 }

/-- The clamps of a RETOUCH (R227). -/
def Taken.retouchClamps (t : Taken) (x : Ctx) : List Nat :=
  bad (t.f 143 128 == 0) 128 ++ bad (t.f 151 144 == 0) 144 ++ bad (clampLr (t.f 223 192) != t.f 223 192) 192 ++
    bad (clampMom (t.f 239 224) != t.f 239 224) 224 ++
    (if x.st = .bound then
      ((layerList (slice t.payload 0 64)).filter (fun p => !((x.runMap.ll p.2).kind.toNat == lowrankKind))).map (fun p => 0x8000 + 2 * p.1)
      else []) ++ t.lengthClamp 1

namespace State

/-- The state of a RUN_SLICE once the clamp of SLICE is counted (R513). -/
def sliceClamped (t : Taken) (u : State) : State := u.clamps t (bad (decide (u.tick.slices - 1 < t.f 133 128)) 128)

/-- The state of a RUN of opcode `op` once the clamps of its formats are counted too (R513). -/
def formatClamped (t : Taken) (op : Nat) (v : State) : State := each (v.runFormats t).2.2 (fun w s => s.clampAt t.ctx op w) v

/-- The first tick in which a slice has not begun (R514). -/
def sliceTick (n : Nat) (w : State) : Word := if w.tick.begun && decide (w.tick.sliceNow.toNat < n) then w.tick.count else w.tick.count + 1

section
variable {t : Taken} {u : State}

/-- A RUN_SLICE of a context that is not BOUND is not performed (R513). -/
theorem runSlice_of_unbound (h : (u.ctx t.ctx).st ≠ .bound) (n : Nat) :
    u.runSlice n t = (u.sliceClamped t).notPerformed t.cmd :=
  if_pos h

section
variable (h : (u.ctx t.ctx).st = .bound) (n : Nat)
include h

/-- A slice that the context has in that tick already is not performed again (R514). -/
theorem runSlice_of_taken
    (hrun : (u.ctx t.ctx).runs.contains (((u.sliceClamped t).formatClamped t 0x30).sliceTick (t.runSlot u), t.runSlot u) = true) :
    u.runSlice n t = ((u.sliceClamped t).formatClamped t 0x30).notPerformed t.cmd :=
  (if_neg (not_not.2 h)).trans (if_pos hrun)

/-- A RUN_SLICE begins a task of the first tick in which its slice has not begun (R514). -/
theorem runSlice_of_new
    (hrun : (u.ctx t.ctx).runs.contains (((u.sliceClamped t).formatClamped t 0x30).sliceTick (t.runSlot u), t.runSlot u) = false) :
    let v := u.sliceClamped t
    let w := v.formatClamped t 0x30
    let tick := w.sliceTick (t.runSlot u)
    u.runSlice n t = (w.onCtx t.ctx (fun x => { x with runs := x.runs ++ [(tick, t.runSlot u)] })).beginTask t
      (runTask t false (t.runSlot u) (v.runFormats t).1 (v.runFormats t).2.1 tick w.tick.count (u.ctx t.ctx).runMap.tone (max 1 n) true) :=
  (if_neg (not_not.2 h)).trans (if_neg (Bool.eq_false_iff.1 hrun))

end

/-- A RUN_FRAME of a context that is not BOUND is not performed (R515). -/
theorem runFrame_of_unbound (h : (u.ctx t.ctx).st ≠ .bound) (n : Nat) : u.runFrame n t = (u.clamps t []).notPerformed t.cmd :=
  if_pos h

section
variable (h : (u.ctx t.ctx).st = .bound) (n : Nat)
include h

/-- A part out of order is not performed (R515). -/
theorem runFrame_of_disorder
    (hpart : t.f 135 128 ≠ (((u.clamps t []).formatClamped t 0x31).partsTaken t.ctx (t.f 191 160)).length) :
    u.runFrame n t = ((u.clamps t []).formatClamped t 0x31).notPerformed t.cmd :=
  (if_neg (not_not.2 h)).trans (if_pos hpart)

/-- A part in order begins its task in the next tick, unless its frame is there already (R515). -/
theorem runFrame_of_order
    (hpart : t.f 135 128 = (((u.clamps t []).formatClamped t 0x31).partsTaken t.ctx (t.f 191 160)).length) :
    let v := u.clamps t []
    let last := t.f 136 136 == 1
    let w := v.formatClamped t 0x31
    let k := runTask t true (t.f 135 128) (v.runFormats t).1 (v.runFormats t).2.1 (w.tick.count + 1) w.tick.count (u.ctx t.ctx).runMap.tone
      (if last then max 1 n else 0) last
    u.runFrame n t =
      if last && (u.ctx t.ctx).runs.contains (w.tick.count + 1, 64) then (w.endParts k).notPerformed t.cmd
      else (if last then w.onCtx t.ctx (fun x => { x with runs := x.runs ++ [(w.tick.count + 1, 64)] }) else w).beginTask t k :=
  (if_neg (not_not.2 h)).trans (if_neg (not_not.2 hpart))

end

/-- A RETOUCH of a context that is not BOUND is not performed (R227). -/
theorem retouchCmd_of_unbound (h : (u.ctx t.ctx).st ≠ .bound) :
    u.retouchCmd t = (u.clamps t (t.retouchClamps (u.ctx t.ctx))).notPerformed t.cmd :=
  if_pos (.inl h)

section
variable (h : (u.ctx t.ctx).st = .bound) (hsamp : (u.obj (t.f 171 152)).isSome = true) (htgt : (u.obj (t.f 191 172)).isSome = true)
include h hsamp htgt

/-- A RETOUCH whose objects are defined is performed by whether its context is fenced. -/
theorem retouchCmd_of_defined :
    u.retouchCmd t = if (u.ctx t.ctx).fence then (u.clamps t (t.retouchClamps (u.ctx t.ctx))).complete t.cmd 2 0 0 []
      else (u.clamps t (t.retouchClamps (u.ctx t.ctx))).onCtx t.ctx (fun x =>
        if x.retouch.isNone then { x with retouch := some (t.retouchRun (u.ctx t.ctx)) }
        else { x with retouchNext := x.retouchNext ++ [t.retouchRun (u.ctx t.ctx)] }) := by
  refine if_neg ?_
  simp only [clamps_obj, h, ne_eq, not_true_eq_false, false_or, Option.isNone_iff_eq_none, not_or]
  exact ⟨Option.isSome_iff_ne_none.1 hsamp, Option.isSome_iff_ne_none.1 htgt⟩

end
end
end State

/-- Settles O46: each command by the state of its context and what that has in the tick already. -/
theorem runsBeginTheirTask : Obligations.RunsBeginTheirTask := by
  unfold Obligations.RunsBeginTheirTask
  refine ⟨fun _ _ _ _ _ h => next_of_take h rfl, fun _ _ _ _ _ h => next_of_take h rfl, fun _ _ _ _ h => next_of_take h rfl,
    ?slice, ?frame, ?retouch⟩
  case slice =>
    intro p n t u s h sl v
    exact ⟨fun hst => next_of_take h (State.runSlice_of_unbound hst n), fun hst =>
      ⟨fun hrun => next_of_take h (State.runSlice_of_taken hst n hrun), fun hrun => next_of_take h (State.runSlice_of_new hst n hrun)⟩⟩
  case frame =>
    intro p n t u s h v last
    exact ⟨fun hst => next_of_take h (State.runFrame_of_unbound hst n), fun hst =>
      ⟨fun hpart => next_of_take h (State.runFrame_of_disorder hst n hpart), fun hpart => next_of_take h (State.runFrame_of_order hst n hpart)⟩⟩
  case retouch =>
    intro p t u s h
    refine ⟨fun hst => ⟨_, next_of_take h (State.retouchCmd_of_unbound hst)⟩, fun hst hsamp htgt => ?_⟩
    have hcmd := State.retouchCmd_of_defined hst hsamp htgt
    exact ⟨fun hf => ⟨_, next_of_take h (hcmd.trans (if_pos hf))⟩, fun hf =>
      ⟨_, t.retouchRun (u.ctx t.ctx), next_of_take h (hcmd.trans (if_neg (Bool.eq_false_iff.1 hf))), rfl, rfl, rfl, rfl, rfl, rfl, rfl⟩⟩

end Sys2Proof.Machine
end

section
/-! SUPPORT. Wake sources and the end of an exit (R633, R634, R636, R637, R690). -/

namespace Sys2Proof.Machine

namespace State

section
variable {s : State} {n c : Nat} {low : Bool}

/-- With VDD_CORE at its level, or in a state that does not lower it, a wake event starts the exit (R636). -/
theorem wakeBy_of_core (h : low = false ∨ s.power < 2) :
    s.wakeBy n low = .next (s.onPmu (fun m => { m with leaving := some (BitVec.ofNat 3 (2 ^ n)) })) :=
  if_neg (by rcases h with h | h <;> simp [h])

/-- The WAKE bump is at its new level. -/
def bumped (s : State) (level short : Bool) : State := s.onPins (fun p => { p with wake := level && !short })

/-- The sideband's request is at its new level (R633). -/
def sidebanded (s : State) (b : Byte) : State :=
  s.onPmu (fun m => { m with sideLevel := if b = 1 then true else if b = 0 then false else m.sideLevel })

end
end State

section
variable {l sh low : Bool} {c : Nat} {s : State}

/-- A WAKE bump that does not fire only has its level kept (R633). -/
theorem execWakeBump_of_quiet (h : (s.bumped l sh).fires 0 l (l && !s.pins.wake) c = false) :
    execWakeBump l c sh low s = .next (s.bumped l sh) :=
  if_neg (Bool.eq_false_iff.1 h)

/-- A WAKE bump of full length that fires is a wake event (R633, R634). -/
theorem execWakeBump_of_full (h : (s.bumped l false).fires 0 l (l && !s.pins.wake) c = true) :
    execWakeBump l c false low s = (s.bumped l false).wakeBy 0 low :=
  (if_pos h).trans (if_neg (by simp))

section
variable (h : (s.bumped l true).fires 0 l (l && !s.pins.wake) c = true)
include h

/-- A short high of an edge source that fires is a wake event (R634). -/
theorem execWakeBump_of_short_edge (hlvl : s.pmu.lvl.getLsbD 0 = false) :
    execWakeBump l c true low s = (s.bumped l true).wakeBy 0 low :=
  (if_pos h).trans (if_neg (Bool.eq_false_iff.1 (Bool.and_eq_false_iff.2 (.inl hlvl))))

/-- A short high of a level source that fires may be missed (R633). -/
theorem execWakeBump_of_short_level (hlvl : s.pmu.lvl.getLsbD 0 = true) :
    execWakeBump l c true low s = (if (s.bumped l true).freeBit.1 then (s.bumped l true).freeBit.2.wakeBy 0 low
      else .next (s.bumped l true).freeBit.2) :=
  (if_pos h).trans (if_pos (and_of hlvl rfl))

end

section
variable {n : Nat} {b : Byte} (hd : s.dead = false) (hm : s.manager = true) (hn : n < 2)
include hd hm hn

/-- A WAKE message that does not fire only has its level kept (R633). -/
theorem execWake_of_quiet (h : (s.sidebanded b).fires 1 (b == 1) (b == 1) c = false) : execWake n b c low s = .next (s.sidebanded b) :=
  (if_neg (by simp [hd, hm, hn])).trans (if_neg (Bool.eq_false_iff.1 h))

/-- A WAKE message that fires is a wake event (R633). -/
theorem execWake_of_fires (h : (s.sidebanded b).fires 1 (b == 1) (b == 1) c = true) : execWake n b c low s = (s.sidebanded b).wakeBy 1 low :=
  (if_neg (by simp [hd, hm, hn])).trans (if_pos h)

end

section
variable {n : Nat}

/-- The timer that runs out and fires is a wake event (R633). -/
theorem execWakeTimer_of_fires (ht : n = s.pmu.timer.toNat) (hn : n ≠ 0) (h : s.fires 2 true true 5 = true) :
    execWakeTimer n low s = s.wakeBy 2 low :=
  if_pos ⟨ht, hn, h⟩

/-- At any other time the timer does nothing. -/
theorem execWakeTimer_of_quiet (h : n ≠ s.pmu.timer.toNat ∨ n = 0 ∨ s.fires 2 true true 5 = false) : execWakeTimer n low s = .next s :=
  if_neg (by rcases h with h | h | h <;> simp [h])

end

/-- Without an exit under way there is none to end. -/
theorem execEaselResume_of_none (h : s.pmu.leaving = none) (ok : Bool) : execEaselResume ok s = .next s := by
  simp only [execEaselResume, h]

section
variable {m : BitVec 3} (hleave : s.pmu.leaving = some m) (hd : s.dead = false) (ha : s.pmu.asleep = true) (ok : Bool)
include hleave hd ha

/-- The exit from a sleep ends in ACTIVE: what the state left of the banks, the Window, the Tick unit, the modules and the helpers returns, the
watchdog starts anew and the wake is reported (R636, R637). -/
theorem execEaselResume_of_leaving :
    execEaselResume ok s = .next (
      let st := s.power
      let lost := if st = 3 then ((s.pal.banks.filter (fun b => b.2.ctl.state == 0 && b.2.shadow.state.getLsbD 1)).map (·.1)) else []
      let s := s.onPmu (fun p => { p with
        mode := 0, asleep := false, leaving := none, lastSrc := m, lastState := BitVec.ofNat 3 st, wakes := satInc p.wakes
        wakeRecord := some (lowestSrc m) })
      let s := if 2 ≤ st then
          (((s.palCommit).onWin (fun w => { w with power := 2 })).onTick (fun k => { k with
            periods := [], bandPeriods := [], lastReal := none })).retrainAll
        else s
      let s := if st = 3 then ((s.loseVolatile).zeroHomes lost).reloadHelpers ok else s
      let s := s.onBoot (fun b => { b with wdogRun := true, wdogKicks := 0 })
      let s := s.onLink (fun l => { l with side := if s.manager then l.side ++ [0, 1] else l.side })
      s.wakeRecord) := by
  simp only [execEaselResume, hleave]
  exact next_of (and_of (by rw [hd]; rfl) ha)

/-- The exit from HOLD (R636). -/
theorem execEaselResume_of_hold (hp : s.power = 1) :
    execEaselResume ok s = .next (State.wakeRecord ({ s with
      pmu := { s.pmu with
        mode := 0, asleep := false, leaving := none, lastSrc := m, lastState := 1, wakes := satInc s.pmu.wakes, wakeRecord := some (lowestSrc m) }
      boot := { s.boot with wdogRun := true, wdogKicks := 0 }
      link := { s.link with side := if s.manager then s.link.side ++ [0, 1] else s.link.side } })) := by
  rw [execEaselResume_of_leaving hleave hd ha, hp]
  rfl

/-- The exit from DOZE (R29, R636). -/
theorem execEaselResume_of_doze (hp : s.power = 2) :
    execEaselResume ok s = .next (
      let u := s.onPmu (fun p => { p with
        mode := 0, asleep := false, leaving := none, lastSrc := m, lastState := 2, wakes := satInc p.wakes, wakeRecord := some (lowestSrc m) })
      let v := (((u.palCommit).onWin (fun w => { w with power := 2 })).onTick (fun k => { k with
        periods := [], bandPeriods := [], lastReal := none })).retrainAll.onBoot (fun b => { b with wdogRun := true, wdogKicks := 0 })
      (v.onLink (fun l => { l with side := if v.manager then l.side ++ [0, 1] else l.side })).wakeRecord) := by
  rw [execEaselResume_of_leaving hleave hd ha, hp]
  rfl

end
end

/-- Settles O49: each source by whether it fires, and the end of an exit by the state that it leaves. -/
theorem wakeSourcesEndASleep : Obligations.WakeSourcesEndASleep := by
  unfold Obligations.WakeSourcesEndASleep
  refine ⟨?bump, ?message, ?timer, fun ok m s hl hd ha => execEaselResume_of_leaving hl hd ha ok, fun _ _ _ _ _ h => execWakeBump_of_quiet h,
    fun _ _ _ _ h => execWakeBump_of_full h, ?short, ?messages, ?timers, fun ok _ h => execEaselResume_of_none h ok,
    fun ok _ _ hl hd ha hp => execEaselResume_of_hold hl hd ha ok hp, fun ok _ _ hl hd ha hp => execEaselResume_of_doze hl hd ha ok hp⟩
  case bump =>
    intro l c low s h hcore
    have hbump : s.bumped l false = s.onPins (fun p => { p with wake := l }) := by simp only [State.bumped, Bool.not_false, Bool.and_true]
    rw [← hbump] at h ⊢
    exact (execWakeBump_of_full h).trans (State.wakeBy_of_core hcore)
  case message =>
    intro n c b low s hd hm hn u h hcore
    exact (execWake_of_fires hd hm hn h).trans (State.wakeBy_of_core hcore)
  case timer =>
    intro low s hn h hcore
    exact (execWakeTimer_of_fires rfl hn h).trans (State.wakeBy_of_core hcore)
  case short =>
    intro l c low s h u
    exact ⟨execWakeBump_of_short_edge h, execWakeBump_of_short_level h⟩
  case messages =>
    intro n c b low s hd hm hn u
    exact ⟨execWake_of_quiet hd hm hn, execWake_of_fires hd hm hn⟩
  case timers =>
    intro n low s
    exact ⟨execWakeTimer_of_fires, execWakeTimer_of_quiet⟩

end Sys2Proof.Machine
end

section
/-! SUPPORT. Firmware slots: stage, activation, swap, trial and confirmation (R521, R522, R666 to R673). -/

namespace Sys2Proof.Machine

/-- A field within its range counts no clamp. -/
theorem bad_of_not {b : Bool} (h : b = false) (w : Nat) : bad b w = [] := by rw [h]; rfl

/-- A field not above its limit counts no clamp. -/
theorem bad_of_le {a b : Nat} (h : a ≤ b) (w : Nat) : bad (decide (b < a)) w = [] := bad_of_not (decide_eq_false h.not_gt) w

namespace State

section
variable {t : Taken} {u : State}

section
variable (hoff : t.f 140 128 ≤ 6143) (hlen : t.f 191 160 ≤ 25165824)
include hoff hlen

/-- The segment and the length of the image lie within the slot: no field counts a clamp (R521). -/
theorem fwStage_clamps :
    bad (decide (6143 < t.f 140 128)) 128 ++ bad ((t.f 10 10 == 1) && decide (25165824 < t.f 191 160)) 160 = [] := by
  rw [bad_of_le hoff, bad_of_not (by simp [hlen])]
  rfl

/-- A stage on a trial image, in service mode or before FIRST is not performed (R521, R671). -/
theorem fwStage_of_barred
    (h : ((u.clamps t []).boot.trial || (u.clamps t []).chest.eff.service || (t.f 9 9 != 1 && !(u.clamps t []).boot.stageOpen)) = true) :
    u.fwStage t = (u.clamps t []).notPerformed t.cmd := by
  simp only [fwStage, fwStage_clamps hoff hlen]
  exact if_pos h

variable (h : ((u.clamps t []).boot.trial || (u.clamps t []).chest.eff.service || (t.f 9 9 != 1 && !(u.clamps t []).boot.stageOpen)) = false)
  (hw : (u.clamps t []).chestWritable = true)
include h hw

/-- A stage under FL_WP is refused and counted (R400). -/
theorem fwStage_of_protected (hwp : (u.clamps t []).pins.flWp = true) :
    u.fwStage t = ((u.clamps t []).wpRefuse t.ctx).complete t.cmd 0 0 0 [] := by
  simp only [fwStage, fwStage_clamps hoff hlen]
  exact (if_neg (Bool.eq_false_iff.1 h)).trans ((if_neg (by simp [hw])).trans (if_pos hwp))

/-- A stage that is neither the first nor the last programs its segment into the inactive slot (R521). -/
theorem fwStage_of_middle (hwp : (u.clamps t []).pins.flWp = false) (hfirst : t.f 9 9 = 0) (hlast : t.f 10 10 = 0) :
    u.fwStage t = ((u.clamps t []).onFlash (fun f => f.slotProgram (!(u.clamps t []).boot.slotB) (4096 * t.f 140 128) t.payload)).complete
      t.cmd 0 (t.f 140 128) 0 [] := by
  simp only [fwStage, fwStage_clamps hoff hlen]
  refine (if_neg (Bool.eq_false_iff.1 h)).trans ((if_neg (by simp [hw])).trans ((if_neg (Bool.eq_false_iff.1 hwp)).trans ?_))
  simp only [hfirst, hlast, Nat.reduceBEq, Bool.false_eq_true, if_false, Nat.min_eq_right hoff]

end

/-- An activation on a trial image is not performed; of a slot that verifies Easel settles, and of any other it completes with 1 (R667). -/
theorem fwActivate_eq (b : Bool) :
    let v := u.clamps t (t.lengthClamp 0)
    u.fwActivate b t = if v.boot.trial then v.notPerformed t.cmd
      else if v.slotState (!v.boot.slotB) = 1 ∧ v.chest.fenced = false ∧ v.verifySlot (!v.boot.slotB) b = true ∧ v.handsOver (!v.boot.slotB) = true then
        (v.onBoot (fun b => { b with settle := 2, settleCmd := some t.cmd })).settled
      else (v.clampAt t.ctx 0x81 whereWhole).complete t.cmd 0 1 0 [] := by
  simp only [fwActivate, Bool.not_eq_true']

end

section
variable {s : State}

/-- The state once the ACTIVATE record of a swap is written (R667). -/
def swapRecorded (s : State) : State := s.writeRec (fun r => { r with kind := 1, slotB := !s.boot.slotB, trial := true })

/-- The state once the other image runs on trial, with 64 edges to confirm itself (R668, R673). -/
def onTrial (s : State) : State :=
  (s.swapRecorded.loadImage (!s.boot.slotB)).onBoot (fun b => { b with
    phase := 8, settle := 0, settleCmd := none, trial := true, confirmed := false, left := 64, switch := true })

/-- The activation that began a swap, if there is one, completes. -/
def swapDone (s : State) : Option Cmd → State
  | some c => s.complete c 0 0 0 []
  | none => s

/-- A swap whose image loads runs it on trial, and the activation completes (R667, R668). -/
theorem fwSwap_of_loads (h : s.swapRecorded.chest.flash.loads (!s.boot.slotB) [1, 2, 3] = true) :
    s.fwSwap true = s.onTrial.swapDone (s.swapRecorded.loadImage (!s.boot.slotB)).boot.settleCmd := by
  refine (if_neg (by simpa [swapRecorded] using h)).trans ?_
  rfl

/-- A swap whose image cannot be loaded fences the stack with error 5 (R661). -/
theorem fwSwap_of_fails : s.fwSwap false = s.swapRecorded.startFenced 5 0xFF := rfl

end
end State

section
variable {s : State}

/-- Easel swaps once it has settled and no urgent command waits (R667, R670). -/
theorem execFwSwap_of_settled (hs : s.serving = true) (hset : s.boot.settle = 3) (hph : s.boot.phase = 11) (hu : s.link.urgPending = 0)
    (ht : s.urgentTaken.isEmpty = true) (ok : Bool) : execFwSwap ok s = .next (s.fwSwap ok) :=
  next_of (and_of (and_of (and_of (and_of hs (by rw [hset]; rfl)) (by rw [hph]; rfl)) (by rw [hu]; rfl)) ht)

/-- With an urgent command pending the swap does not begin (R670). -/
theorem execFwSwap_of_urgent (hu : s.link.urgPending ≠ 0) (ok : Bool) : execFwSwap ok s = .next s :=
  next_of_not (by rw [beq_false_of_ne hu, Bool.and_false, Bool.false_and])

/-- The self test of a trial image whose helpers have switched confirms it, or resets the part with cause 3 (R672). -/
theorem execSelfTestDone_of_trial (hu : s.up = true) (ht : s.boot.trial = true) (hsw : s.boot.switch = false) (passed : Bool) :
    execSelfTestDone passed s = .next (if passed then s.confirm else s.internalReset 3) :=
  next_of (and_of (and_of hu ht) (by rw [hsw]; rfl))

/-- A trial image that has no edge left to confirm itself is rolled back with cause 2 (R673). -/
theorem execConfirmWindowExpiry_of_due (hd : s.dead = false) (ht : s.boot.trial = true) (hl : s.boot.left = 0) :
    execConfirmWindowExpiry s = .next (s.internalReset 2) :=
  next_of (and_of (and_of (by rw [hd]; rfl) ht) (by rw [hl]; rfl))

/-- With edges left the window goes on (R673). -/
theorem execConfirmWindowExpiry_of_left (hl : s.boot.left ≠ 0) : execConfirmWindowExpiry s = .next s :=
  next_of_not (by rw [beq_false_of_ne hl, Bool.and_false])

end

/-- Settles O52: a stage and an activation by what they meet, a swap by whether its image loads, and the two ends of a trial. -/
theorem firmwareStagesAndSwaps : Obligations.FirmwareStagesAndSwaps := by
  unfold Obligations.FirmwareStagesAndSwaps
  refine ⟨fun _ _ _ _ h => next_of_take h rfl, fun _ _ _ _ _ h => next_of_take h rfl,
    fun ok _ hs hset hph hu ht => execFwSwap_of_settled hs hset hph hu ht ok,
    fun b _ hu ht hsw => execSelfTestDone_of_trial hu ht hsw b, fun _ => execConfirmWindowExpiry_of_due, ?stage,
    fun _ b _ _ _ h => next_of_take h (State.fwActivate_eq b), ?swap, fun ok _ hu => execFwSwap_of_urgent hu ok,
    fun b _ hu ht hsw => execSelfTestDone_of_trial hu ht hsw b,
    fun _ hd ht => ⟨execConfirmWindowExpiry_of_due hd ht, execConfirmWindowExpiry_of_left⟩⟩
  case stage =>
    intro p t u s h hoff hlen v
    exact ⟨fun hbar => next_of_take h (State.fwStage_of_barred hoff hlen hbar), fun hfree hw =>
      ⟨fun hwp => next_of_take h (State.fwStage_of_protected hoff hlen hfree hw hwp), fun hwp hfirst hlast =>
        next_of_take h (State.fwStage_of_middle hoff hlen hfree hw hwp hfirst hlast)⟩⟩
  case swap =>
    intro s hs hset hph hu ht w u v
    have hswap := execFwSwap_of_settled hs hset hph hu (List.isEmpty_iff.2 ht)
    refine ⟨fun hloads => ((hswap true).trans (congrArg _ (State.fwSwap_of_loads hloads))).trans ?_,
      (hswap false).trans (congrArg _ State.fwSwap_of_fails)⟩
    rfl

end Sys2Proof.Machine
end

section
/-! SUPPORT. DIAG functions and ATTEST (R321, R408, R409, R500, R523, R524, R528, R676). -/

namespace Sys2Proof.Machine

namespace State

/-- A change of a bank is seen in it. -/
theorem onBank_bank (b : Nat) (f : Bank → Bank) (s : State) : (s.onBank b f).bank b = f (s.bank b) := look_modify_self ..

/-- A commit of the Plan chest's settings into service mode erases nothing (R408, R713). -/
theorem chsCommit_of_service {s : State} (h : s.chest.shadow.service = true) : s.chsCommit = s.onChest (fun c => { c with eff := c.shadow }) :=
  if_neg (by simp [h])

section
variable {t : Taken} {u : State}

/-- CLAMPS completes with the counter and the record, and clears them where asked (R500). -/
theorem clampsDiag_eq :
    let v := u.clamps t (t.lengthClamp 0)
    let x := v.ctx t.ctx
    let w := if t.f 136 136 = 1 then v.onCtx t.ctx (fun x => { x with clampCnt := 0, clampOp := 0, clampTick := 0, clampWhere := 0 }) else v
    u.clampsDiag t = w.complete t.cmd 0 x.clampCnt.toNat (x.clampWhere.toNat + x.clampOp.toNat * 2 ^ 32 + x.clampTick.toNat * 2 ^ 64) [] := rfl

/-- SWATCH of a fenced Swatch Map gives status 3. -/
theorem swatchDiag_of_fenced (h : (u.clamps t (t.lengthClamp 0)).sw.swFenced = true) :
    u.swatchDiag t = (u.clamps t (t.lengthClamp 0)).complete t.cmd 3 0 0 [] :=
  if_pos h

section
variable (h : (u.clamps t (t.lengthClamp 0)).sw.swFenced = false)
include h

/-- SWATCH of a swatch that has an entry gives the entry (R355, R523). -/
theorem swatchDiag_of_entry {e : Nat × Entry}
    (he : ((u.clamps t (t.lengthClamp 0)).sw.copy (t.f 155 136) (t.f 185 156)).orElse
      (fun _ => (u.clamps t (t.lengthClamp 0)).sw.homeEntry (t.f 155 136) (t.f 185 156)) = some e) :
    u.swatchDiag t = (u.clamps t (t.lengthClamp 0)).complete t.cmd 0 1
      ({ e.2 with claim := (u.clamps t (t.lengthClamp 0)).claimOf e.2 } : Entry).word [] := by
  refine (if_neg (Bool.eq_false_iff.1 h)).trans ?_
  rw [he]

/-- SWATCH of a swatch without an entry gives none (R523). -/
theorem swatchDiag_of_no_entry
    (he : ((u.clamps t (t.lengthClamp 0)).sw.copy (t.f 155 136) (t.f 185 156)).orElse
      (fun _ => (u.clamps t (t.lengthClamp 0)).sw.homeEntry (t.f 155 136) (t.f 185 156)) = none) :
    u.swatchDiag t = (u.clamps t (t.lengthClamp 0)).complete t.cmd 0 0 0 [] := by
  refine (if_neg (Bool.eq_false_iff.1 h)).trans ?_
  rw [he]

end

/-- PAL_CHECK of a fenced bank gives status 3. -/
theorem palCheck_of_fenced (hf : ((u.clamps t (t.lengthClamp 0)).bank (t.f 143 136)).fenced = true) :
    u.palCheck t = (u.clamps t (t.lengthClamp 0)).complete t.cmd 3 0 0 [] :=
  if_pos hf

section
variable (hf : ((u.clamps t (t.lengthClamp 0)).bank (t.f 143 136)).fenced = false)
include hf

/-- PAL_CHECK of a bank that PAL does not own is not performed (R321). -/
theorem palCheck_of_owned (ho : ((u.clamps t (t.lengthClamp 0)).bank (t.f 143 136)).owner ≠ 0) :
    u.palCheck t = (u.clamps t (t.lengthClamp 0)).notPerformed t.cmd :=
  (if_neg (Bool.eq_false_iff.1 hf)).trans (if_pos ho)

variable (ho : ((u.clamps t (t.lengthClamp 0)).bank (t.f 143 136)).owner = 0)
include ho

/-- PAL_CHECK of a bank that is off gives status 6. -/
theorem palCheck_of_off (hon : ((u.clamps t (t.lengthClamp 0)).bank (t.f 143 136)).on = false) :
    u.palCheck t = (u.clamps t (t.lengthClamp 0)).complete t.cmd 6 0 0 [] :=
  (if_neg (Bool.eq_false_iff.1 hf)).trans ((if_neg (not_not.2 ho)).trans (if_pos (by rw [hon]; rfl)))

/-- PAL_CHECK of a bank of PAL that is on gives the findings of its sequences (R321). -/
theorem palCheck_of_on (hon : ((u.clamps t (t.lengthClamp 0)).bank (t.f 143 136)).on = true) :
    let v := (u.clamps t (t.lengthClamp 0)).testerYield (t.f 143 136)
    u.palCheck t = (v.palSequence (t.f 143 136)).2.complete t.cmd 0 (v.palSequence (t.f 143 136)).1 0 [] :=
  (if_neg (Bool.eq_false_iff.1 hf)).trans ((if_neg (not_not.2 ho)).trans (if_neg (by rw [hon]; decide)))

end

/-- The sequences of PAL_CHECK leave their bank as it was (R321). -/
theorem palSequence_bank (b : Nat) (s : State) : (s.palSequence b).2.bank b = s.bank b := onBank_bank ..

/-- WIN_CHECK of a word of the Window gives the findings of its sequence, with status 7 after a collision in native mode (R321, R474). -/
theorem winCheck_of_word (hw : t.f 156 136 ≤ 262143) (c : Bool) :
    let v := u.clamps t (t.lengthClamp 0)
    u.winCheck c t = (v.winSequence c).2.complete t.cmd (if c && !v.win.compat then 7 else 0) (v.winSequence c).1 0 [] := by
  simp only [winCheck, bad_of_le hw, List.nil_append]

/-- SERVICE of a fenced Plan chest gives status 3. -/
theorem service_of_fenced (hf : (u.clamps t (t.lengthClamp 0)).chest.fenced = true) :
    u.service t = (u.clamps t (t.lengthClamp 0)).complete t.cmd 3 0 0 [] :=
  if_pos hf

/-- SERVICE enters service mode where it may (R408). -/
theorem service_of_allowed (hf : (u.clamps t (t.lengthClamp 0)).chest.fenced = false) (henter : t.f 136 136 = 1)
    (hok : (u.clamps t (t.lengthClamp 0)).serviceAllowed = true) :
    u.service t = ((u.clamps t (t.lengthClamp 0)).onChest (fun c =>
      { c with shadow := { c.shadow with service := true } })).chsCommit.complete t.cmd 0 1 0 [] := by
  have henter' : (t.f 136 136 == 1) = true := by rw [henter]; rfl
  have hcommit := chsCommit_of_service (s := (u.clamps t (t.lengthClamp 0)).onChest (fun c => { c with shadow := { c.shadow with service := true } })) rfl
  refine (if_neg (Bool.eq_false_iff.1 hf)).trans ((if_neg (by simp [hok])).trans ?_)
  rw [henter', hcommit]
  rfl

section
variable (hblk : t.f 155 144 ≤ 2559) (f : ReadFinding) (b : Bool)
include hblk

/-- CHEST_RAW of a fenced Plan chest gives status 3. -/
theorem chestRawDiag_of_fenced (hf : (u.clamps t (t.lengthClamp (if t.f 138 136 = 3 then 64 else 0))).chest.fenced = true) :
    u.chestRawDiag f b t = (u.clamps t (t.lengthClamp (if t.f 138 136 = 3 then 64 else 0))).complete t.cmd 3 0 0 [] := by
  simp only [chestRawDiag, bad_of_le hblk, List.nil_append]
  exact if_pos hf

/-- CHEST_RAW outside service mode is not performed (R409). -/
theorem chestRawDiag_of_no_service (hf : (u.clamps t (t.lengthClamp (if t.f 138 136 = 3 then 64 else 0))).chest.fenced = false)
    (hs : (u.clamps t (t.lengthClamp (if t.f 138 136 = 3 then 64 else 0))).chest.eff.service = false) :
    u.chestRawDiag f b t = (u.clamps t (t.lengthClamp (if t.f 138 136 = 3 then 64 else 0))).notPerformed t.cmd := by
  simp only [chestRawDiag, bad_of_le hblk, List.nil_append]
  exact (if_neg (Bool.eq_false_iff.1 hf)).trans (if_pos (by rw [hs]; rfl))

/-- CHEST_RAW with the raw erase in service mode erases the block named and completes with the result (R409). -/
theorem chestRawDiag_of_erase (hf : (u.clamps t (t.lengthClamp (if t.f 138 136 = 3 then 64 else 0))).chest.fenced = false)
    (hs : (u.clamps t (t.lengthClamp (if t.f 138 136 = 3 then 64 else 0))).chest.eff.service = true) (hcmd : t.f 138 136 = 4) :
    let w := ((u.clamps t (t.lengthClamp (if t.f 138 136 = 3 then 64 else 0))).onChest (fun c => { c with
      rawPlane := BitVec.ofNat 5 (t.f 143 139), rawBlock := BitVec.ofNat 12 (t.f 155 144), rawPage := BitVec.ofNat 6 (t.f 161 156)
      rawDone := false })).chestRaw4 t.ctx b
    u.chestRawDiag f b t = w.complete t.cmd (if w.chest.rawStatus = 1 then 5 else 0) w.chest.rawResult 0 [] := by
  simp only [chestRawDiag, bad_of_le hblk, List.nil_append, Nat.min_eq_right hblk]
  refine (if_neg (Bool.eq_false_iff.1 hf)).trans ((if_neg (by rw [hs]; decide)).trans ?_)
  simp only [hcmd]
  rfl

end
end
end State

/-- Settles O53: each function by the unit that it reads, and an ATTEST by whether it can be served. -/
theorem diagnosticsAnswerTheirFunction : Obligations.DiagnosticsAnswerTheirFunction := by
  unfold Obligations.DiagnosticsAnswerTheirFunction
  refine ⟨fun _ _ _ _ h => next_of_take h rfl, fun _ _ _ _ h => next_of_take h rfl, fun _ _ _ _ _ h => next_of_take h rfl,
    fun _ _ _ _ h => next_of_take h rfl, fun _ _ _ _ _ _ h => next_of_take h rfl, fun _ _ _ _ h => next_of_take h rfl,
    fun _ _ _ _ h => next_of_take h rfl, fun _ _ _ _ h => next_of_take h rfl, fun _ _ _ _ h => next_of_take h rfl,
    fun _ _ _ _ h => next_of_take h rfl, fun _ _ _ _ h => next_of_take h State.clampsDiag_eq, ?swatch, fun _ _ _ _ h => next_of_take h rfl,
    fun _ _ _ _ h => next_of_take h rfl, fun _ _ _ _ h => next_of_take h rfl, ?palCheck,
    fun _ x _ _ _ h hw => next_of_take h (State.winCheck_of_word hw x), ?service, ?chestRaw, fun _ _ _ _ h => next_of_take h rfl⟩
  case swatch =>
    intro p t u s h v
    refine ⟨fun hf => next_of_take h (State.swatchDiag_of_fenced hf), fun hf => ?_⟩
    cases he : (v.sw.copy (t.f 155 136) (t.f 185 156)).orElse (fun _ => v.sw.homeEntry (t.f 155 136) (t.f 185 156)) with
    | none => exact next_of_take h (State.swatchDiag_of_no_entry hf he)
    | some e => exact next_of_take h (State.swatchDiag_of_entry hf he)
  case palCheck =>
    intro p t u s h v b
    exact ⟨fun hf => next_of_take h (State.palCheck_of_fenced hf), fun hf ho => next_of_take h (State.palCheck_of_owned hf ho),
      fun hf ho hon => next_of_take h (State.palCheck_of_off hf ho hon),
      fun hf ho hon => ⟨next_of_take h (State.palCheck_of_on hf ho hon), State.palSequence_bank ..⟩⟩
  case service =>
    intro p t u s h v
    exact ⟨fun hf => next_of_take h (State.service_of_fenced hf),
      fun hf henter hok => next_of_take h (State.service_of_allowed hf henter hok)⟩
  case chestRaw =>
    intro p f b t u s h hblk v
    exact ⟨fun hf => next_of_take h (State.chestRawDiag_of_fenced hblk f b hf),
      fun hf hs => next_of_take h (State.chestRawDiag_of_no_service hblk f b hf hs),
      fun hf hs hcmd => next_of_take h (State.chestRawDiag_of_erase hblk f b hf hs hcmd)⟩

end Sys2Proof.Machine
end

section
/-! SUPPORT. Weight broadcast (R585 to R591). -/

namespace Sys2Proof.Machine

/-- A Weave frame's row on a frame that arrives answers its body's effect. -/
theorem next_of_arrives {kind vc : Nat} {w : Wrx} {s u v : State} {body : State → State} (h : Safety.arrives kind vc s w u)
    (hbody : body u = v) : (.next (s.frame kind vc w body) : Host.Outcome State Fault Refusal) = .next v :=
  congrArg _ ((frame_of_arrives h body).trans hbody)

/-- OFFSET of a FAB_BROADCAST in whole swatches (R585). -/
def Taken.bcastOff (t : Taken) : Nat := t.f 191 148 / 16384 * 16384

/-- Workers that a FAB_BROADCAST names and that are joined and not gone (R585). -/
def State.bcastNamed (t : Taken) (s : State) : List Nat := below 16 (fun d => bit (t.f 239 224) d && s.fab.joined.getLsbD d && !s.gone d)

/-- Fields of a FAB_BROADCAST that are clamped (R497, R585). -/
def State.bcastClamps (t : Taken) (s : State) : List Nat :=
  (bad (t.f 191 148 != t.bcastOff) 148 ++ bad (t.f 221 192 == 0) 192 ++
    bad (below 16 (fun d => bit (t.f 239 224) d) != s.bcastNamed t) 224) ++ t.lengthClamp 0

/-- Body of a BCAST_START (R585). -/
def bcastBody (t : Taken) (named : List Nat) (count : Nat) : List Byte :=
  bytesOf 4 (t.f 147 128) ++ bytesOf 8 t.bcastOff ++ bytesOf 4 count ++ bytesOf 48 (sumN (named.map (fun d => 2 ^ d)))

namespace State

section
variable {t : Taken} {u : State} (r : List Byte)

/-- A broadcast to no worker completes at once (R585). -/
theorem fabBroadcast_of_none_named (h : u.bcastNamed t = []) :
    State.fabBroadcast r t u = (u.clamps t (u.bcastClamps t)).complete t.cmd 0 0 0 [] :=
  if_pos (show (u.bcastNamed t).isEmpty = true by rw [h]; rfl)

section
variable (h : u.bcastNamed t ≠ [])
include h

/-- A broadcast that names a worker goes on. -/
theorem bcastNamed_not_isEmpty : ¬ (u.bcastNamed t).isEmpty = true := by simpa using h

/-- A broadcast of no object is not performed (R585). -/
theorem fabBroadcast_of_undefined (hobj : u.obj (t.f 147 128) = none) :
    State.fabBroadcast r t u = (u.clamps t (u.bcastClamps t)).notPerformed t.cmd := by
  refine (if_neg (bcastNamed_not_isEmpty h)).trans ?_
  rw [clamps_obj, hobj]
  rfl

/-- A broadcast of swatches that the object has starts with the workers named (R585). -/
theorem fabBroadcast_of_object {b : Obj} (hobj : u.obj (t.f 147 128) = some b) (hglaze : u.glaze.fenced = false)
    (hsize : t.bcastOff / 16384 + max 1 (t.f 221 192) ≤ b.size) :
    let v := u.clamps t (u.bcastClamps t)
    let count := max 1 (t.f 221 192)
    State.fabBroadcast r t u =
      each (below 4 (fun p => (u.bcastNamed t).any (fun d => d / 4 == p)))
        (fun p s => s.weaveOn p 31 0x24 2 0 0 (bcastBody t (u.bcastNamed t) count))
        (v.onFab (fun f => { f with
          serial := v.fab.serial + 1
          bcast := some { cmd := t.cmd, obj := t.f 147 128, off := t.bcastOff, count := count, named := u.bcastNamed t
                          waiting := u.bcastNamed t, serial := v.fab.serial, remote := r } })) := by
  have hfits : ¬ b.size ≤ t.bcastOff / 16384 := by omega
  have hcount : min (max 1 (t.f 221 192)) (b.size - t.bcastOff / 16384) = max 1 (t.f 221 192) := by omega
  have hclamped : (u.clamps t (u.bcastClamps t)).glaze.fenced = false := by
    obtain ⟨x, hx⟩ := clamps_frame t (u.bcastClamps t) u
    rw [hx]
    exact hglaze
  refine (if_neg (bcastNamed_not_isEmpty h)).trans ?_
  rw [clamps_obj, hobj]
  refine (if_neg hfits).trans ?_
  unfold Taken.bcastOff at hcount
  simp only [hcount, lt_irrefl, if_false]
  exact if_neg (Bool.eq_false_iff.1 hclamped)

end
end
end State
section
variable {w : Wrx} {s u : State}

/-- A message over the Weave leaves the objects. -/
theorem weave_obj (dst kind vc param aux : Nat) (data : List Byte) (v : State) (o : Nat) :
    (v.weave dst kind vc param aux data).obj o = v.obj o := by
  obtain ⟨x, hx⟩ := weave_frame dst kind vc param aux data v
  rw [hx]
  rfl

/-- A worker refuses a broadcast of an object that it has not (R585). -/
theorem execBcastStart_of_undefined (h : Safety.arrives 0x24 2 s w u) (hmember : u.isMember = true)
    (hnamed : bit (fieldB w.data 16 2) u.addr = true) (hobj : u.obj (fieldB w.data 0 4) = none) :
    execBcastStart w s = .next ((u.weave 16 0x22 2 0 0 []).onFab (fun f => { f with bcastIn := none })) := by
  refine next_of_arrives h ?_
  simp [hmember, hnamed, hobj]

/-- A worker accepts a broadcast of an object that it holds whole (R585). -/
theorem execBcastStart_of_object {b : Obj} (h : Safety.arrives 0x24 2 s w u) (hmember : u.isMember = true)
    (hnamed : bit (fieldB w.data 16 2) u.addr = true) (hobj : u.obj (fieldB w.data 0 4) = some b) (href : b.ref = 0)
    (hsize : fieldB w.data 4 8 / 16384 + fieldB w.data 12 4 ≤ b.size) :
    execBcastStart w s = .next ((u.weave 16 0x22 2 0 1 []).onFab (fun f => { f with
      bcastIn := some { obj := fieldB w.data 0 4, off := fieldB w.data 4 8, count := fieldB w.data 12 4, onlyPoisoned := b.pois } })) := by
  refine next_of_arrives h ?_
  simp [hmember, hnamed, hobj, href, hsize, weave_obj]

/-- The manager takes an acknowledgement or an answer (R585, R589). -/
theorem execShardAck_of_manager (h : Safety.arrives 0x22 2 s w u) (hmanager : u.manager = true) :
    execShardAck w s = .next (if w.aux = 2 then u.bcastAcked w.src w.param.toNat else u.bcastAnswer w.src (w.aux == 1)) :=
  next_of_arrives h (if_neg (by simp [hmanager]))

/-- A shard that a live worker asks for goes to it again, and counts (R588, R589). -/
theorem execShardNack_of_kept {b : Bcast} {x : Nat × List Byte} (h : Safety.arrives 0x23 2 s w u) (hmanager : u.manager = true)
    (hb : u.fab.bcast = some b) (hx : b.shards.find? (fun x => x.1 == w.param.toNat) = some x) (hlive : b.live.contains w.src = true)
    (hglaze : u.glaze.fenced = false) :
    execShardNack w s = .next ((((u.onFab (fun f => { f with nacks := satInc f.nacks })).sendShard (w.src / 4) w.src x.1 x.2).onFab
      (fun f => { f with retx := satInc f.retx })).onGlaze (fun g => { g with outBytes := g.outBytes + shardRecBytes x.2 })) := by
  have hb' : (u.onFab (fun f => { f with nacks := satInc f.nacks })).fab.bcast = some b := hb
  have hglaze' : (u.onFab (fun f => { f with nacks := satInc f.nacks })).glaze.fenced = false := hglaze
  refine next_of_arrives h ((if_neg (by simp [hmanager])).trans ?_)
  simp only [hb', hx, hlive, hglaze', Bool.not_false, Bool.and_self, if_true]

/-- A shard changes nothing where no broadcast is taken in (R587). -/
theorem execShard_of_no_broadcast (h : Safety.arrives 0x20 2 s w u) (hmember : u.isMember = false) (hb : u.fab.bcastIn = none) :
    execShard w s = .next u := by
  refine next_of_arrives h ?_
  simp [hmember, hb]

/-- The first shard, where it is good and wanted, is stored and held (R587). -/
theorem execShard_of_first {b : BcastIn} {d : List Byte × List Byte} (h : Safety.arrives 0x20 2 s w u) (hmember : u.isMember = true)
    (hno : w.param.toNat = 0) (hgap : u.shardGap 0 = u) (hb : u.fab.bcastIn = some b) (hwants : b.wants 0 = true)
    (hglaze : u.glaze.fenced = false) (hcrc : shardCrc w.data = true)
    (hdata : shardData (u.glaze.shardTable w.src w.data) w.src b.obj (b.off / 16384) w.data = some d) (hpois : b.onlyPoisoned = false)
    (hack : (b.held.length + 1) % 16 ≠ 0) (hended : b.ended = false) :
    execShard w s = .next (((u.onGlaze (fun g => g.shardTable w.src w.data)).storeSwatch shardCmd b.obj (b.off / 16384) true d.1 d.2).onFab
      (fun f => { f with bcastIn := some { b with held := b.held ++ [0] } })) := by
  have hfenced : (u.glaze.shardTable w.src w.data).fenced = false := by
    rw [← hglaze, Glaze.shardTable]
    split <;> rfl
  refine next_of_arrives h ?_
  simp [hmember, hno, hgap, hb, hwants, hglaze, hcrc, hfenced, hdata, hpois, hack, hended, State.onGlaze]

/-- The end of a broadcast asks for what has not come and acknowledges what is held (R588, R589). -/
theorem execBcastEnd_of_broadcast {b : BcastIn} (h : Safety.arrives 0x21 2 s w u) (hmember : u.isMember = true) (hb : u.fab.bcastIn = some b) :
    execBcastEnd w s = .next (((u.onFab (fun f => { f with bcastIn := some { b with ended := true } })).shardGap b.count).shardAckNow) := by
  refine next_of_arrives h ?_
  simp [hmember, hb]

/-- A worker that gives a shard up is counted and marked as failed (R591). -/
theorem execBcastFail_of_manager (h : Safety.arrives 0x25 2 s w u) (hmanager : u.manager = true) (n : Nat) :
    execBcastFail (some w) n s = .next (((u.onFab (fun f => { f with incomplete := satInc f.incomplete })).bcastFail w.src).bcastGo) :=
  next_of_arrives h (onlyIf_of hmanager)

end

section
variable {s : State} {b : BcastIn} {n : Nat} (hb : s.fab.bcastIn = some b) (hup : s.up = true) (hmember : s.isMember = true)
  (hwants : b.wants n = true)
include hb hup hmember hwants

/-- A shard missed for less than the fourth time is asked for again (R588). -/
theorem execShardTimeout_of_tries (htries : look 0 b.tries n < 3) :
    execShardTimeout n s = .next (((s.onFab (fun f => { f with bcastIn := some { b with tries := putRaw n (look 0 b.tries n + 1) b.tries } })).weave
      16 0x23 2 n 0 []).onFab (fun f => { f with nacks := satInc f.nacks })) := by
  have hleft : ¬ 4 ≤ look 0 b.tries n := by omega
  have hagain : look 0 b.tries n + 1 < 4 := by omega
  refine (next_of (and_of hup hmember)).trans (congrArg _ ?_)
  simp [State.shardMiss, hb, hwants, hleft, hagain]

/-- A worker gives up a shard after the fourth failed try (R588, R590). -/
theorem execBcastFail_of_tries (htries : 4 ≤ look 0 b.tries n) :
    let v := s.poisonStuck b.obj (b.off / 16384 + n)
    let c := { b with gaveUp := b.gaveUp ++ [n] }
    let v := (v.onFab (fun f => { f with bcastIn := some c, incomplete := satInc f.incomplete })).weave 16 0x25 2 n 0 []
    execBcastFail none n s = .next (if c.ended ∧ c.upto = c.count then v.shardAckNow else v) := by
  have hguard : (s.up && s.isMember && b.wants n && decide (4 ≤ look 0 b.tries n)) = true := by simp [hup, hmember, hwants, htries]
  rw [execBcastFail, hb]
  exact next_of hguard

/-- Before the end of the broadcast it acknowledges nothing then. -/
theorem execBcastFail_of_tries_before_end (htries : 4 ≤ look 0 b.tries n) (hended : b.ended = false) :
    execBcastFail none n s = .next (((s.poisonStuck b.obj (b.off / 16384 + n)).onFab (fun f => { f with
      bcastIn := some { b with gaveUp := b.gaveUp ++ [n] }, incomplete := satInc f.incomplete })).weave 16 0x25 2 n 0 []) :=
  (execBcastFail_of_tries hb hup hmember hwants htries).trans (congrArg _ (if_neg (by simp [hended])))

end

/-- Settles O56: the broadcast's start by the workers and the object it names, each frame that arrives, and the two timeouts. -/
theorem broadcastShardsArriveOnce : Obligations.BroadcastShardsArriveOnce := by
  refine ⟨fun _ _ _ _ _ h => next_of_take h rfl, fun _ _ _ h => next_of_arrives h rfl, fun _ _ hup hd => next_of (and_of hup hd),
    fun _ _ _ h => next_of_arrives h rfl, fun _ _ _ h => next_of_arrives h rfl, fun _ _ _ h => next_of_arrives h rfl,
    fun _ _ hup hmember => next_of (and_of hup hmember), fun _ _ _ h => next_of_arrives h rfl,
    ⟨fun _ n _ _ h hmanager => execBcastFail_of_manager h hmanager n,
      fun _ _ _ hb hup hmember hwants htries => execBcastFail_of_tries hb hup hmember hwants htries⟩,
    ?broadcast, fun _ _ hup hd => next_of (and_of hup hd), ?frames,
    fun _ _ _ hup hmember hb hwants htries => execShardTimeout_of_tries hb hup hmember hwants htries,
    fun _ _ _ hup hmember hb hwants htries hended => execBcastFail_of_tries_before_end hb hup hmember hwants htries hended⟩
  case broadcast =>
    intro p r t u s h named
    exact ⟨fun hn => ⟨_, next_of_take h (State.fabBroadcast_of_none_named r hn)⟩,
      fun hn hobj => ⟨_, next_of_take h (State.fabBroadcast_of_undefined r hn hobj)⟩,
      fun b hn hobj hglaze hsize => ⟨_, next_of_take h (State.fabBroadcast_of_object r hn hobj hglaze hsize)⟩⟩
  case frames =>
    intro w s u
    exact ⟨execBcastStart_of_undefined, fun _ => execBcastStart_of_object, execShardAck_of_manager, fun _ _ => execShardNack_of_kept,
      execShard_of_no_broadcast, fun _ _ => execShard_of_first, fun _ => execBcastEnd_of_broadcast,
      fun n h hmanager => execBcastFail_of_manager h hmanager n⟩

end Sys2Proof.Machine
end

section
/-! SUPPORT. Sensors, the reference clock, the test port and register pages (R401, R463, R622, R623, R698, R708, R711). -/

namespace Sys2Proof.Machine

section
variable {l : List Int} {s : State} (hheld : s.boot.held = false) (href : s.pins.refLost = false)
include hheld href

/-- A sample acts while the part runs on its reference clock (R622). -/
theorem execSensorSample_of_running (hl : l.isEmpty = false) :
    let hot := l.foldl max (l.headD 0)
    let v := s.onPmu (fun p => { p with alert := decide (alertAt ≤ hot) })
    execSensorSample l s =
      .next (if 115 ≤ hot ∧ !v.pins.thermTrip then v.darkLinks.onPins (fun p => { p with thermTrip := true }) else v) :=
  next_of (by simp [hheld, href, hl])

/-- A sample below 115 °C sets the alert alone (R622). -/
theorem execSensorSample_of_below (hl : l ≠ []) (hhot : l.foldl max (l.headD 0) < 115) :
    execSensorSample l s = .next (s.onPmu (fun p => { p with alert := decide (alertAt ≤ l.foldl max (l.headD 0)) })) :=
  (execSensorSample_of_running hheld href (List.isEmpty_eq_false_iff.2 hl)).trans
    (congrArg _ (if_neg (fun h => not_le.2 hhot h.1)))

/-- A sample of 115 °C or more darkens every link and trips (R623). -/
theorem execSensorSample_of_trip (hl : l ≠ []) (hhot : 115 ≤ l.foldl max (l.headD 0)) (htrip : s.pins.thermTrip = false) :
    execSensorSample l s = .next ((s.onPmu (fun p => { p with alert := decide (alertAt ≤ l.foldl max (l.headD 0)) })).darkLinks.onPins
      (fun p => { p with thermTrip := true })) :=
  (execSensorSample_of_running hheld href (List.isEmpty_eq_false_iff.2 hl)).trans
    (congrArg _ (if_pos ⟨hhot, congrArg not htrip⟩))

/-- The loss of the reference clock darkens every link (R698). -/
theorem execRefclkLoss_of_running : execRefclkLoss s = .next (s.darkLinks.onPins (fun p => { p with refLost := true })) :=
  next_of (by simp [hheld, href])

end

/-- Dark links have both host modules in reset (R623). -/
theorem darkLinks_host (s : State) : s.darkLinks.link.hl0.st = .reset ∧ s.darkLinks.link.hl1.st = .reset := ⟨rfl, rfl⟩

/-- The agent may reach the register pages: the host over its link, Easel while it runs (R463, R712). -/
def State.agentReach (a : Agent) (s : State) : Bool :=
  match a with
  | .host => s.hostReach
  | .easel _ => s.easelRuns

/-- A write of 4 bytes to a register page by an agent that reaches it writes the page (R463). -/
theorem execRegisterWrite_of_page {a : Agent} {off n o : Nat} {s : State} (hplace : placeOfOff off = .page n o) (halign : off % 4 = 0)
    (hreach : s.agentReach a = true) (v : Word) : execRegisterWrite a off v s = .next (s.pageWrite a n o v.toNat) := by
  simp only [execRegisterWrite, hplace]
  exact next_of (and_of (by simp [halign]) hreach)

/-- A write that does not lie at a 4-byte boundary changes nothing (R463). -/
theorem execRegisterWrite_of_unaligned {off : Nat} (halign : off % 4 ≠ 0) (a : Agent) (v : Word) (s : State) :
    execRegisterWrite a off v s = .next s := by
  have hbound : (off % 4 == 0) = false := by simpa using halign
  unfold execRegisterWrite
  cases placeOfOff off with
  | page _ _ => rw [hbound]; rfl
  | ident _ => rfl
  | bell _ => rfl
  | window _ => rfl
  | nowhere => rfl

/-- Settles O58: each sensor, clock, pin and port event, and a register write by its place, its boundary and its agent. -/
theorem pinsTestPortAndRegisterPages : Obligations.PinsTestPortAndRegisterPages :=
  ⟨fun _ _ hheld href hl => execSensorSample_of_running hheld href hl, fun _ hheld href => execRefclkLoss_of_running hheld href,
    fun _ _ v _ _ _ hplace halign hreach => execRegisterWrite_of_page hplace halign hreach v, fun _ _ => rfl, fun _ _ _ => rfl, fun _ => rfl,
    fun _ _ hheld href hl => ⟨execSensorSample_of_below hheld href hl, execSensorSample_of_trip hheld href hl⟩,
    fun s hheld href => ⟨execRefclkLoss_of_running hheld href, darkLinks_host s⟩, fun _ _ => rfl, fun _ _ _ => rfl,
    fun _ => ⟨rfl, rfl, rfl⟩,
    fun _ _ _ v _ hplace halign => ⟨fun hreach => execRegisterWrite_of_page (a := .host) hplace halign hreach v,
      fun q hruns => execRegisterWrite_of_page (a := .easel q) hplace halign hruns v⟩,
    fun a _ v s halign => execRegisterWrite_of_unaligned halign a v s⟩

end Sys2Proof.Machine
end
